-- ==== Sys2Proof/Word.lean ====
section
/-!
DEFINITION. The word types of the Flonar machine (R51, R52) and the one map type that sparse state is held in.
-/

namespace Sys2Proof

/-- A 32-bit register word (R52). -/
abbrev Word := BitVec 32

/-- A byte of memory. -/
abbrev Byte := BitVec 8

/-- A 64-bit address, mask or double word. -/
abbrev Dword := BitVec 64

/-- A set of lanes, one bit a lane (R2: lanes 0 to W−1). -/
abbrev Lanes := BitVec 64

/-- Sparse data by number: pairs with strictly rising keys. An absent key holds the default its user names. -/
abbrev NatMap (α : Type) := List (Nat × α)

end Sys2Proof
end

