-- ==== Sys2Proof/Machine/Bits.lean ====
section
/-!
DEFINITION. Sparse maps by number, sets of lanes, bit fields, sign extension and byte order (R52).
-/

namespace Sys2Proof

/-- The value at a key of a sparse map. -/
def mget {α : Type} (m : NatMap α) (k : Nat) : Option α :=
  match m with
  | [] => none
  | (j, v) :: r => if j = k then some v else mget r k

/-- The value at a key, or a default. -/
def mgetD {α : Type} (m : NatMap α) (k : Nat) (d : α) : α := (mget m k).getD d

/-- Puts a value at a key, keys rising. -/
def mput {α : Type} (m : NatMap α) (k : Nat) (v : α) : NatMap α :=
  match m with
  | [] => [(k, v)]
  | (j, w) :: r => if k < j then (k, v) :: (j, w) :: r else if k = j then (k, v) :: r else (j, w) :: mput r k v

/-- Takes a key out. -/
def mdel {α : Type} (m : NatMap α) (k : Nat) : NatMap α :=
  match m with
  | [] => []
  | (j, w) :: r => if j = k then r else (j, w) :: mdel r k

/-- Changes the value at a key, where there is one. -/
def mmod {α : Type} (m : NatMap α) (k : Nat) (f : α → α) : NatMap α :=
  match m with
  | [] => []
  | (j, w) :: r => if j = k then (j, f w) :: r else (j, w) :: mmod r k f

/-- Keys strictly rising: the canonical form of a sparse map. -/
def msorted {α : Type} (m : NatMap α) : Bool :=
  match m with
  | [] => true
  | (j, _) :: r => (match r with | [] => true | (k, _) :: _ => decide (j < k)) && msorted r

/-- The lowest number below n that the map does not hold. -/
def mfree {α : Type} (m : NatMap α) (n : Nat) : Option Nat := (List.range n).find? (fun k => (mget m k).isNone)

/-- The lanes of a set in ascending order (R93, R147). -/
def laneList (m : Lanes) : List Nat := (List.range 64).filter (fun l => m.getLsbD l)

/-- The lowest lane of a set. -/
def lowest (m : Lanes) : Option Nat := (List.range 64).find? (fun l => m.getLsbD l)

/-- The number of lanes of a set. -/
def laneCount (m : Lanes) : Nat := (laneList m).length

/-- The set of one lane. -/
def oneLane (l : Nat) : Lanes := 1#64 <<< l

/-- The set of the lanes below w that satisfy a test. -/
def lanesWhere (w : Nat) (f : Nat → Bool) : Lanes :=
  (List.range w).foldl (fun m l => if f l then m ||| oneLane l else m) 0

/-- All lanes below w. -/
def allLanes (w : Nat) : Lanes := BitVec.ofNat 64 (2 ^ w - 1)

/-- Bits lo+n−1 to lo of a double word as a number. -/
def bits (v : Dword) (lo n : Nat) : Nat := v.toNat >>> lo % 2 ^ n

/-- Bits lo+n−1 to lo of a word as a number. -/
def wbits (v : Word) (lo n : Nat) : Nat := v.toNat >>> lo % 2 ^ n

/-- A number of n bits read as two's complement. -/
def signed (n v : Nat) : Int := if v < 2 ^ (n - 1) then (v : Int) else (v : Int) - (2 : Int) ^ n

/-- The low n bits of an integer as a number. -/
def wrapN (n : Nat) (x : Int) : Nat := (x % (2 ^ n : Nat)).toNat

/-- A word from an integer, modulo 2^32 (R51). -/
def wordI (x : Int) : Word := BitVec.ofInt 32 x

/-- The n little-endian bytes of a number (R52). -/
def leBytes (n v : Nat) : List Byte := (List.range n).map (fun i => BitVec.ofNat 8 (v >>> (8 * i)))

/-- The number whose little-endian bytes these are (R52). -/
def leNat (bs : List Byte) : Nat := bs.foldr (fun b a => b.toNat + 256 * a) 0

/-- The low and the high word of a double word (R52). -/
def loWord (v : Dword) : Word := v.setWidth 32
def hiWord (v : Dword) : Word := (v >>> 32).setWidth 32

/-- The double word of a register pair, low word first (R52). -/
def pairWord (lo hi : Word) : Dword := hi ++ lo

/-- a − b ≥ 0 as a signed 32-bit difference (R158, R175, R421). -/
def seqGe (a b : Word) : Bool := decide (0 ≤ (a - b).toInt)

/-- The nine bits of a designator as a number (R27). -/
abbrev Desig := BitVec 9

end Sys2Proof
end

