-- ==== Sys2Proof/Syntax.lean ====
section
/-!
DEFINITION. The instruction set as syntax: the fields of the formats of R24 to R41, the operands of the device's event
steps, and Instr, one constructor for each row of spec/opcode_table.json.
-/

namespace Sys2Proof

/-- The guard of an instruction (R24): GRD 0 to 11 names a predicate, 15 none, 12 to 14 are illegal; SNS inverts it. -/
structure Guard where
  grd : BitVec 4
  sns : Bool
deriving DecidableEq, Repr

/-- L3, three operands (R24, R31). For FCVT the source-B field is FMT (R282). -/
structure L3 where
  g    : Guard
  la   : BitVec 4
  dst  : BitVec 9
  ocw  : BitVec 4
  sa   : BitVec 9
  xa   : BitVec 3
  ka   : Bool
  sb   : BitVec 9
  xb   : BitVec 3
  kb   : Bool
  mod6 : BitVec 6
deriving DecidableEq, Repr

/-- LI, long immediate (R33). -/
structure LI where
  g   : Guard
  la  : BitVec 4
  dst : BitVec 9
  md  : BitVec 4
  sa  : BitVec 9
  xa  : BitVec 3
  ka  : Bool
  imm : BitVec 19
deriving DecidableEq, Repr

/-- LM, memory (R34). md is OCW for LDG and LDC and MOD for the others. -/
structure LM where
  g    : Guard
  la   : BitVec 4
  dst  : BitVec 9
  md   : BitVec 4
  base : BitVec 8
  wt   : BitVec 3
  scp  : BitVec 3
  pol  : BitVec 2
  off  : BitVec 16
deriving DecidableEq, Repr

/-- LB, long branch (R35). -/
structure LB where
  g   : Guard
  la  : BitVec 4
  dst : BitVec 9
  md  : BitVec 4
  off : BitVec 32
deriving DecidableEq, Repr

/-- LE, engine and system (R36); its reserved bits 43:41 and 56:54 are ignored (R46) and not held. -/
structure LE where
  g   : Guard
  la  : BitVec 4
  dst : BitVec 9
  md  : BitVec 4
  sa  : BitVec 9
  ka  : Bool
  sb  : BitVec 9
  kb  : Bool
  fn  : BitVec 6
deriving DecidableEq, Repr

/-- LX, matrix (R37); q is header bits 29:28, za bit 30. -/
structure LX where
  g    : Guard
  la   : BitVec 4
  tile : BitVec 5
  q    : BitVec 2
  za   : Bool
  text : BitVec 4
  sa   : BitVec 9
  sb   : BitVec 9
  sc   : BitVec 9
deriving DecidableEq, Repr

/-- C3 (R39). -/
structure C3 where
  g : Guard
  d : BitVec 6
  a : BitVec 6
  b : BitVec 6
deriving DecidableEq, Repr

/-- CI (R39). -/
structure CI where
  g   : Guard
  d   : BitVec 6
  imm : BitVec 12
deriving DecidableEq, Repr

/-- CB (R39). -/
structure CB where
  g   : Guard
  off : BitVec 18
deriving DecidableEq, Repr

/-- S16 (R41). -/
structure S16 where
  d : BitVec 6
  a : BitVec 5
deriving DecidableEq, Repr

/-- The access classes of R83 that a translation is made for. -/
inductive Acc where
  | fetch | load | store | atomic | range | holder | plotter | txeRead | txeWrite | txeReduce | save
deriving DecidableEq, Repr

/-- What a peer device asks of this device's homes (R149, R345): line asks for a line of which n bytes at off are wanted, for a copy
to be kept; a write may carry a poison mark (R91, R240); an atomic carries its order and the operands of the lanes that name the
element, in their order (R147). -/
inductive PeerOp where
  | read (n : Nat)
  | line (off n : Nat)
  | write (bytes : List (Option Byte)) (mark : Bool)
  | atom (op : BitVec 4) (wt : BitVec 3) (order : BitVec 2) (ops : List (Dword × Dword))
  | arrive (n : Nat)
  | bbinit (expect : Word)
  | heapPush (key : BitVec 16) (token : Word)
  | heapClr (cap : Nat) (dir : Bool)
  | heapDrain (keep : Bool) (count : Nat)
  | frzq
deriving DecidableEq, Repr

/-- A request packet from another device (R149): pa is the local part of the pod physical address. -/
structure PeerRequest where
  dev   : Nat
  tag   : Nat
  owner : Nat
  pa    : Nat
  op    : PeerOp
deriving DecidableEq, Repr

/-- A reply to request op of this device; status 0 performed, otherwise the XLC the peer reports (R80, R149). A read of bytes
that are marked poisoned replies status 10 with the bytes and, after a whole line's, its four sector marks (R91); entry is the
index of the home's freeze entry that a replica fill carries (R118). -/
structure PeerReply where
  op     : Nat
  status : Nat
  data   : List Byte
  entry  : Option Nat := none
deriving DecidableEq, Repr

/-- A host-window reply datagram (R474), in the session of an identity with its sequence number there. -/
structure HostReply where
  port   : Nat
  ident  : Nat
  seq    : Nat := 0
  reqid  : Word
  op     : Byte
  len    : Byte
  status : Byte
  data   : List Byte
deriving DecidableEq, Repr

/-- The header of a collective contribution (R358). -/
structure CollHdr where
  gsig    : Word
  step    : Word
  etype   : Nat
  rop     : Nat
  count   : Nat
  base    : Dword
  group   : Nat
  gdim    : Nat
  repmask : Nat
  coord   : Dword
deriving DecidableEq, Repr

/-- One beat of a contribution, a partial or a buddy copy (R359, R360): the elements' bytes, each MX block's scale and
its trailer, and for a partial the counts gathered so far. -/
structure CollBeat where
  ctx     : Nat
  group   : Nat
  hdr     : CollHdr
  rank    : Nat
  beat    : Nat
  bytes   : List Byte
  scales  : List Byte
  raises  : List Nat
  nrank   : Nat
  silent  : List Nat
  late    : List Nat
  novf    : Nat
deriving DecidableEq, Repr

/-- A completion notice: the record of R363 as eight dwords. -/
structure CollNotice where
  ctx    : Nat
  group  : Nat
  step   : Word
  record : List Dword
deriving DecidableEq, Repr

/-- A launch datagram (R468): the identity whose session it came in, its sequence number there and its payload. -/
structure Datagram where
  port  : Nat
  ident : Nat
  seq   : Nat := 0
  bytes : List Byte
deriving DecidableEq, Repr

/-- A management command's header (R469) and its datagram's way: the identity that sends it, its TAG, the port and the sequence
number in the session. -/
structure CmdHdr where
  ident : Nat
  tag   : Word
  port  : Nat := 0
  seq   : Nat := 0
deriving DecidableEq, Repr

/-- A UDP datagram that reaches a host port (R465, R466): whether AES-256-GCM authenticates it, the identity whose session it names,
its sequence number, the device's UDP port it is for, and its payload. -/
structure SecMsg where
  port  : Nat
  auth  : Bool
  ident : Nat
  seq   : Nat
  dport : Nat
  bytes : List Byte
deriving DecidableEq, Repr

/-- The requester's leaf certificate as FINISH leaves it judged (R466): the key digest and the host root key its chain
ends in, absent when it ends in none. -/
structure HostCert where
  digest : BitVec 512
  root   : Option Nat
deriving DecidableEq, Repr

/-- What a row retirement loses (R19, R462): a spare is left, or a unit of the structure named goes. -/
inductive RowLoss where
  | spared (kind unit : Nat)
  | rfRow (core part : Nat)
  | l1Unit (core : Nat)
  | l2Unit (slice : Nat)
  | fixed (kind cluster : Nat)
deriving DecidableEq, Repr

/-- What a write at an address of the management core's map carries (R4, R481): its low size bytes of val. -/
structure WriteData where
  val  : Dword
  size : Nat
deriving DecidableEq, Repr

/-- Every row of spec/opcode_table.json: the instructions a crew issues (their operands the fields of the format
that R43 gives them), then the indivisible steps of the device's other agents (their operands what chooses the step). -/
inductive Instr where
  | iadd (f : L3)
  | isub (f : L3)
  | iaddc (f : L3)
  | isubb (f : L3)
  | imul (f : L3)
  | imulh (f : L3)
  | imad (f : L3)
  | idiv (f : L3)
  | irem (f : L3)
  | ineg (f : L3)
  | iabs (f : L3)
  | imin (f : L3)
  | imax (f : L3)
  | and (f : L3)
  | or (f : L3)
  | xor (f : L3)
  | andn (f : L3)
  | not (f : L3)
  | shl (f : L3)
  | shr (f : L3)
  | sar (f : L3)
  | rol (f : L3)
  | funsh (f : L3)
  | popc (f : L3)
  | clz (f : L3)
  | ctz (f : L3)
  | brev (f : L3)
  | bfe (f : L3)
  | bfi (f : L3)
  | prmb (f : L3)
  | lea (f : L3)
  | sel (f : L3)
  | icmp (f : L3)
  | plop (f : L3)
  | pmov (f : L3)
  | idot4 (f : L3)
  | fadd (f : L3)
  | fsub (f : L3)
  | fmul (f : L3)
  | ffma (f : L3)
  | fmin (f : L3)
  | fmax (f : L3)
  | fminm (f : L3)
  | fmaxm (f : L3)
  | fabs (f : L3)
  | fneg (f : L3)
  | fcopys (f : L3)
  | fcmp (f : L3)
  | fclass (f : L3)
  | frnd (f : L3)
  | fcvt (f : L3)
  | f2i (f : L3)
  | i2f (f : L3)
  | fscale (f : L3)
  | fgete (f : L3)
  | fdot2 (f : L3)
  | rcp (f : L3)
  | sqrt (f : L3)
  | rsq (f : L3)
  | exp2 (f : L3)
  | log2 (f : L3)
  | had32 (f : L3)
  | bmax (f : L3)
  | qnt (f : L3)
  | dqnt (f : L3)
  | shfl (f : L3)
  | vote (f : L3)
  | ballot (f : L3)
  | matchLanes (f : L3)
  | redc (f : L3)
  | scan (f : L3)
  | compact (f : L3)
  | hist (f : L3)
  | hmerge (f : L3)
  | bsrch (f : L3)
  | topk (f : L3)
  | mov (f : L3)
  | movi (f : LI)
  | moviHi (f : LI)
  | movs (f : L3)
  | smov (f : L3)
  | shape (f : L3)
  | ixset (f : LI)
  | movx (f : L3)
  | xset (f : LI)
  | perm (f : L3)
  | ocld (f : L3)
  | ocinv (f : L3)
  | vsave (f : LM)
  | vrest (f : LM)
  | ldg (f : LM)
  | stg (f : LM)
  | ldc (f : LM)
  | pref (f : LM)
  | atom (f : LM)
  | red (f : LM)
  | stm (f : LM)
  | rwb (f : LE)
  | rinv (f : LE)
  | rwi (f : LE)
  | freeze (f : LE)
  | thaw (f : LE)
  | frzqAddr (f : LE)
  | frzqSeq (f : LE)
  | frzqFree (f : LE)
  | crdecl (f : LE)
  | crrel (f : LE)
  | crrelEnd (f : LE)
  | promote (f : LE)
  | fence (f : LE)
  | acq (f : LE)
  | rel (f : LE)
  | waitc (f : LE)
  | cntrd (f : LE)
  | seqwaitChain (f : LE)
  | seqwaitThaw (f : LE)
  | seqwaitMem (f : LE)
  | yieldpt (f : LE)
  | txfer (f : LE)
  | chpush (f : LE)
  | chtail (f : LE)
  | qfence (f : LE)
  | bbinit (f : LE)
  | bbarr (f : LE)
  | bbwait (f : LE)
  | grpdef (f : LE)
  | grpdefDel (f : LE)
  | clstat (f : LE)
  | mma (f : LX)
  | mmas (f : LX)
  | mmag (f : LX)
  | mmax (f : LX)
  | accz (f : LE)
  | task (f : LE)
  | tdoneRun (f : LE)
  | tdone (f : LE)
  | ttok (f : LE)
  | accrd (f : LE)
  | accfree (f : LE)
  | mstat (f : LE)
  | mstatClr (f : LE)
  | mstatCtl (f : LE)
  | bra (f : LB)
  | brx (f : LE)
  | call (f : LB)
  | callx (f : LE)
  | ret (f : LE)
  | land (f : LE)
  | rcv (f : LE)
  | exit (f : LE)
  | loop (f : LB)
  | loopSet (f : LB)
  | loopSeti (f : LB)
  | loopGet (f : LB)
  | brk (f : LE)
  | bar (f : LE)
  | bara (f : LE)
  | barw (f : LE)
  | spawn (f : LB)
  | syncw (f : LE)
  | recruit (f : LB)
  | hjoin (f : LE)
  | hjoinHelper (f : LE)
  | hrel (f : LE)
  | nqpush (f : LE)
  | nqtake (f : LE)
  | nqtakeTry (f : LE)
  | nqtakeRet (f : LE)
  | hpush (f : LE)
  | hdrain (f : LE)
  | hclr (f : LE)
  | trap (f : LE)
  | tret (f : LE)
  | tretSkip (f : LE)
  | tretGet (f : LE)
  | tretSet (f : LE)
  | snap (f : LE)
  | nop
  | prioh (n : BitVec 4)
  | loch (f : LE)
  | hint (n : BitVec 4)
  | c3IaddI32 (f : C3)
  | c3IsubI32 (f : C3)
  | c3ImulI32 (f : C3)
  | c3ImulhI32 (f : C3)
  | c3ImulhN32 (f : C3)
  | c3IdivI32 (f : C3)
  | c3IdivN32 (f : C3)
  | c3IremI32 (f : C3)
  | c3IremN32 (f : C3)
  | c3IminI32 (f : C3)
  | c3IminN32 (f : C3)
  | c3ImaxI32 (f : C3)
  | c3ImaxN32 (f : C3)
  | c3AndB32 (f : C3)
  | c3OrB32 (f : C3)
  | c3XorB32 (f : C3)
  | c3AndnB32 (f : C3)
  | c3ShlB32 (f : C3)
  | c3ShrB32 (f : C3)
  | c3SarB32 (f : C3)
  | c3RolB32 (f : C3)
  | c3PrmbB32 (f : C3)
  | c3InegI32 (f : C3)
  | c3IabsI32 (f : C3)
  | c3NotB32 (f : C3)
  | c3PopcB32 (f : C3)
  | c3ClzB32 (f : C3)
  | c3CtzB32 (f : C3)
  | c3BrevB32 (f : C3)
  | c3IaddSatI32 (f : C3)
  | c3IsubSatI32 (f : C3)
  | c3MovB32 (f : C3)
  | c3FaddF32 (f : C3)
  | c3FsubF32 (f : C3)
  | c3FmulF32 (f : C3)
  | c3FminF32 (f : C3)
  | c3FmaxF32 (f : C3)
  | c3FminmF32 (f : C3)
  | c3FmaxmF32 (f : C3)
  | c3FcopysF32 (f : C3)
  | c3FabsF32 (f : C3)
  | c3FnegF32 (f : C3)
  | c3FscaleF32 (f : C3)
  | c3FgeteF32 (f : C3)
  | c3FrndRneF32 (f : C3)
  | c3FrndRtzF32 (f : C3)
  | c3FrndRupF32 (f : C3)
  | c3FrndRdnF32 (f : C3)
  | c3F2iRtzI32F32 (f : C3)
  | c3F2iRtzN32F32 (f : C3)
  | c3F2iRneI32F32 (f : C3)
  | c3F2iRneN32F32 (f : C3)
  | c3I2fRneF32I32 (f : C3)
  | c3I2fRneF32N32 (f : C3)
  | c3FcvtRneBf16F32 (f : C3)
  | c3FcvtRneF16F32 (f : C3)
  | c3FcvtF32Bf16 (f : C3)
  | c3FcvtF32F16 (f : C3)
  | c3FclassF32 (f : C3)
  | c3RcpF32 (f : C3)
  | c3SqrtF32 (f : C3)
  | c3RsqF32 (f : C3)
  | c3Exp2F32 (f : C3)
  | c3Log2F32 (f : C3)
  | c3FaddF16x2 (f : C3)
  | c3FsubF16x2 (f : C3)
  | c3FmulF16x2 (f : C3)
  | c3FminF16x2 (f : C3)
  | c3FmaxF16x2 (f : C3)
  | c3FabsF16x2 (f : C3)
  | c3FnegF16x2 (f : C3)
  | c3FcvtRneF16x2F32 (f : C3)
  | c3FaddBf16x2 (f : C3)
  | c3FsubBf16x2 (f : C3)
  | c3FmulBf16x2 (f : C3)
  | c3FminBf16x2 (f : C3)
  | c3FmaxBf16x2 (f : C3)
  | c3FabsBf16x2 (f : C3)
  | c3FnegBf16x2 (f : C3)
  | c3FcvtRneBf16x2F32 (f : C3)
  | c3BfeN32 (f : C3)
  | c3BfeI32 (f : C3)
  | c3LeaS1 (f : C3)
  | c3LeaS2 (f : C3)
  | c3LeaS3 (f : C3)
  | c3LeaS4 (f : C3)
  | c3ShflAtB32 (f : C3)
  | c3ShflXorB32 (f : C3)
  | c3RedcAddI32 (f : C3)
  | c3RedcMaxI32 (f : C3)
  | c3RedcAddF32 (f : C3)
  | c3RedcMaxF32 (f : C3)
  | c3ScanAddI32 (f : C3)
  | c3ScanAddF32 (f : C3)
  | ciIaddI32 (f : CI)
  | ciImulI32 (f : CI)
  | ciAndB32 (f : CI)
  | ciOrB32 (f : CI)
  | ciXorB32 (f : CI)
  | ciShlB32 (f : CI)
  | ciShrB32 (f : CI)
  | ciSarB32 (f : CI)
  | ciIminI32 (f : CI)
  | ciImaxI32 (f : CI)
  | ciMoviB32 (f : CI)
  | ciFscaleF32 (f : CI)
  | ciMoviHi (f : CI)
  | cbBra (f : CB)
  | cbLoopLc0 (f : CB)
  | cbLoopLc1 (f : CB)
  | cbLoopLc2 (f : CB)
  | s16Mov (f : S16)
  | nop16 (d : BitVec 5)
  | s16Iadd (f : S16)
  | s16Isub (f : S16)
  | s16Imin (f : S16)
  | s16Imax (f : S16)
  | s16And (f : S16)
  | s16Or (f : S16)
  | s16Xor (f : S16)
  | s16Shl (f : S16)
  | s16Shr (f : S16)
  | s16Sar (f : S16)
  | s16Fadd (f : S16)
  | s16Fsub (f : S16)
  | s16Fmul (f : S16)
  | s16Fmin (f : S16)
  | s16Fmax (f : S16)
  | waitWake (crew : Nat)
  | loadLimitWindow (core : Nat)
  | loadSetEntry (crew : Nat)
  | pageWalk (unit ctx : Nat) (va : Dword) (acc : Acc)
  | stopRecordsWrite (ctx : Nat)
  | loadReturn (crew op : Nat) (lanes : Lanes)
  | storeRetire (crew : Nat)
  | holdMessage (i : Nat)
  | l1Evict (core line : Nat)
  | writeBack (i : Nat)
  | storeAtHome (i : Nat)
  | atomicAtHome (i : Nat)
  | storeAck (i : Nat)
  | rangeRecall (line : Nat)
  | remoteRequest (r : PeerRequest)
  | remoteReply (r : PeerReply)
  | hostWindowReply (r : HostReply)
  | freezeMessage (dev base len : Nat)
  | freezeAck (entry dev : Nat)
  | collectionRequest (dev entry : Nat)
  | collectionAck (entry dev : Nat)
  | collectionStuck (entry dev : Nat)
  | promoteRequest (crew : Nat)
  | fenceConflict (crew line : Nat)
  | fenceComplete (crew : Nat)
  | seqwaitPoll (crew : Nat)
  | nopEntry (handle : Nat)
  | copyEntry (handle : Nat)
  | fillEntry (handle : Nat)
  | qfenceEntry (handle : Nat)
  | mqfillEntry (handle : Nat)
  | bbarrEntry (handle : Nat)
  | txeBeat (handle : Nat)
  | entryComplete (handle : Nat)
  | bbArrival (i : Nat)
  | plotterFetch (cluster quad pos line : Nat)
  | quadrantBlockAdd (cluster quad : Nat)
  | acczZero (cluster quad : Nat)
  | accrdReturn (crew op : Nat)
  | accfreeEffect (cluster i : Nat)
  | taskDispatch (cluster : Nat)
  | deferredCompletion (cluster i : Nat)
  | flitCrcResend (good : Bool)
  | linkDown
  | portDown (port : Nat)
  | scaleOutAbandon (handle : Nat)
  | peerSilenceTimeout (op : Nat)
  | contributionBeat (b : CollBeat)
  | partialBeat (b : CollBeat)
  | buddyCopy (b : CollBeat)
  | groupTimeout (ctx group rank beat : Nat)
  | destAckTimeout (ctx group rank : Nat)
  | completionNotice (n : CollNotice)
  | launchDatagram (d : Datagram)
  | placeTeam (die : Nat)
  | nodeDrainMessage (queue : Nat)
  | privilegedDistribute (queue : Nat)
  | distributorSteal (launch cluster : Nat)
  | taskTake (core part : Nat)
  | crewComplete (crew : Nat)
  | launchComplete (launch : Nat)
  | nodePush (i : Nat)
  | nodeTimerExpiry (node : Nat)
  | nodePressureExpiry (node : Nat)
  | heapPushAtHome (i : Nat)
  | timeSliceExpiry (ctx : Nat)
  | tsliceEscalation (ctx : Nat)
  | watchdogExpiry (crew : Nat)
  | crewEvict (crew : Nat)
  | crewRestore (crew : Nat)
  | rowRetire (r : RowLoss)
  | powerLimitThrottle (watts : Nat)
  | snapinPin
  | snapshotLatch
  | powerOnReset
  | failover
  | ctxcreate (c : CmdHdr) (desc : List Dword)
  | ctxdestroy (c : CmdHdr) (ctx : Nat)
  | bindq (c : CmdHdr) (queue ctx : Nat) (caddr : Dword) (priv : Bool)
  | unbindq (c : CmdHdr) (queue : Nat)
  | halt (c : CmdHdr) (ctx : Nat)
  | release (c : CmdHdr) (ctx : Nat)
  | faultclr (c : CmdHdr) (ctx : Nat)
  | resume (c : CmdHdr) (ctx : Nat)
  | tlbinv (c : CmdHdr) (asn : Nat) (va len : Dword)
  | ownkey (c : CmdHdr) (owner : Nat)
  | thawforce (c : CmdHdr) (entry dev : Nat)
  | snaptrig (c : CmdHdr)
  | powerlim (c : CmdHdr) (watts : Nat)
  | memrd (c : CmdHdr) (pa owner len : Nat)
  | memwr (c : CmdHdr) (pa owner : Nat) (bytes : List Byte)
  | ctlrd (c : CmdHdr) (block off len : Nat)
  | ctlwr (c : CmdHdr) (block off : Nat) (bytes : List Byte)
  | hostwin (c : CmdHdr) (ctx base size : Nat)
  | podjoin (c : CmdHdr) (dev size : Nat)
  | linkkey (c : CmdHdr) (port : Nat) (key : List Byte)
  | epset (c : CmdHdr) (idx : Nat) (bytes : List Byte)
  | report (c : CmdHdr) (first : Nat)
  | dbgunlock (c : CmdHdr) (token : List Byte)
  | lcadvance (c : CmdHdr) (token : List Byte)
  | unassignedCommand (c : CmdHdr) (code : Nat)
  | getVersion (conn : Nat)
  | getCapabilities (conn : Nat)
  | negotiateAlgorithms (conn : Nat)
  | getDigests (conn : Nat)
  | getCertificate (conn slot : Nat)
  | challenge (conn slot : Nat)
  | getMeasurements (conn : Nat) (req : List Byte)
  | keyExchange (conn : Nat)
  | finish (conn : Nat) (cert : HostCert)
  | endSession (conn : Nat)
  | heartbeat (conn : Nat)
  | keyUpdate (conn : Nat)
  | unsupportedRequest (conn : Nat)
  | hctl (v : Dword)
  | hashComplete
  | ectl (v : Dword)
  | verifyComplete
  | mext (v : Dword)
  | hbeat (v : Dword)
  | unlock (v : Dword)
  | kctl (v : Dword)
  | wipeComplete
  | dbgctl (v : Dword)
  | rxlen (v : Dword)
  | txlen (v : Dword)
  | rng
  | registerWrite (addr : Nat) (v : WriteData)
  | securedMessage (m : SecMsg)
  | portTraining (port lanes : Nat)
deriving DecidableEq, Repr

end Sys2Proof
end

