-- ==== Sys2Proof/WellFormed.lean ====
section
/-!
DEFINITION. Which terms of Instr are instructions that a word encodes: where several constructors share an opcode, the field
that tells them apart has the value of the constructor (R233, R125, R112, R175, R354, R332, R338, R415, R398, R442); a hint's
number is 3 to 15 (R45); a short MOV whose registers are one is NOP16 (R41). The steps of the other agents have no word.
-/

namespace Sys2Proof

/-- Whether a term is an instruction that a word encodes. -/
def Instr.wf (i : Instr) : Bool :=
  match i with
  | .iadd _ => true
  | .isub _ => true
  | .iaddc _ => true
  | .isubb _ => true
  | .imul _ => true
  | .imulh _ => true
  | .imad _ => true
  | .idiv _ => true
  | .irem _ => true
  | .ineg _ => true
  | .iabs _ => true
  | .imin _ => true
  | .imax _ => true
  | .and _ => true
  | .or _ => true
  | .xor _ => true
  | .andn _ => true
  | .not _ => true
  | .shl _ => true
  | .shr _ => true
  | .sar _ => true
  | .rol _ => true
  | .funsh _ => true
  | .popc _ => true
  | .clz _ => true
  | .ctz _ => true
  | .brev _ => true
  | .bfe _ => true
  | .bfi _ => true
  | .prmb _ => true
  | .lea _ => true
  | .sel _ => true
  | .icmp _ => true
  | .plop _ => true
  | .pmov _ => true
  | .idot4 _ => true
  | .fadd _ => true
  | .fsub _ => true
  | .fmul _ => true
  | .ffma _ => true
  | .fmin _ => true
  | .fmax _ => true
  | .fminm _ => true
  | .fmaxm _ => true
  | .fabs _ => true
  | .fneg _ => true
  | .fcopys _ => true
  | .fcmp _ => true
  | .fclass _ => true
  | .frnd _ => true
  | .fcvt _ => true
  | .f2i _ => true
  | .i2f _ => true
  | .fscale _ => true
  | .fgete _ => true
  | .fdot2 _ => true
  | .rcp _ => true
  | .sqrt _ => true
  | .rsq _ => true
  | .exp2 _ => true
  | .log2 _ => true
  | .had32 _ => true
  | .bmax _ => true
  | .qnt _ => true
  | .dqnt _ => true
  | .shfl _ => true
  | .vote _ => true
  | .ballot _ => true
  | .matchLanes _ => true
  | .redc _ => true
  | .scan _ => true
  | .compact _ => true
  | .hist _ => true
  | .hmerge _ => true
  | .bsrch _ => true
  | .topk _ => true
  | .mov _ => true
  | .movi f => f.md == 0
  | .moviHi f => f.md != 0
  | .movs _ => true
  | .smov _ => true
  | .shape _ => true
  | .ixset _ => true
  | .movx _ => true
  | .xset _ => true
  | .perm _ => true
  | .ocld _ => true
  | .ocinv _ => true
  | .vsave _ => true
  | .vrest _ => true
  | .ldg _ => true
  | .stg _ => true
  | .ldc _ => true
  | .pref _ => true
  | .atom _ => true
  | .red _ => true
  | .stm _ => true
  | .rwb _ => true
  | .rinv _ => true
  | .rwi _ => true
  | .freeze _ => true
  | .thaw _ => true
  | .frzqAddr f => f.md != 1 && f.md != 2
  | .frzqSeq f => f.md == 1
  | .frzqFree f => f.md == 2
  | .crdecl _ => true
  | .crrel f => !f.md.getLsbD 0
  | .crrelEnd f => f.md.getLsbD 0
  | .promote _ => true
  | .fence _ => true
  | .acq _ => true
  | .rel _ => true
  | .waitc _ => true
  | .cntrd _ => true
  | .seqwaitChain f => decide (f.fn.toNat % 4 = 0 ∨ f.fn.toNat % 4 = 3)
  | .seqwaitThaw f => decide (f.fn.toNat % 4 = 1)
  | .seqwaitMem f => decide (f.fn.toNat % 4 = 2)
  | .yieldpt _ => true
  | .txfer _ => true
  | .chpush _ => true
  | .chtail _ => true
  | .qfence _ => true
  | .bbinit _ => true
  | .bbarr _ => true
  | .bbwait _ => true
  | .grpdef f => !f.md.getLsbD 0
  | .grpdefDel f => f.md.getLsbD 0
  | .clstat _ => true
  | .mma _ => true
  | .mmas _ => true
  | .mmag _ => true
  | .mmax _ => true
  | .accz _ => true
  | .task _ => true
  | .tdoneRun f => f.md != 1
  | .tdone f => f.md == 1
  | .ttok _ => true
  | .accrd _ => true
  | .accfree _ => true
  | .mstat f => f.md != 1 && f.md != 2
  | .mstatClr f => f.md == 1
  | .mstatCtl f => f.md == 2
  | .bra _ => true
  | .brx _ => true
  | .call _ => true
  | .callx _ => true
  | .ret _ => true
  | .land _ => true
  | .rcv _ => true
  | .exit _ => true
  | .loop f => decide (f.md.toNat / 4 = 0)
  | .loopSet f => decide (f.md.toNat / 4 = 1)
  | .loopSeti f => decide (f.md.toNat / 4 = 2)
  | .loopGet f => decide (f.md.toNat / 4 = 3)
  | .brk _ => true
  | .bar _ => true
  | .bara _ => true
  | .barw _ => true
  | .spawn _ => true
  | .syncw _ => true
  | .recruit _ => true
  | .hjoin _ => true
  | .hjoinHelper _ => true
  | .hrel _ => true
  | .nqpush _ => true
  | .nqtake f => decide (f.md.toNat % 4 = 0 ∨ f.md.toNat % 4 = 3)
  | .nqtakeTry f => decide (f.md.toNat % 4 = 2)
  | .nqtakeRet f => decide (f.md.toNat % 4 = 1)
  | .hpush _ => true
  | .hdrain _ => true
  | .hclr _ => true
  | .trap _ => true
  | .tret f => f.md != 1 && f.md != 2 && f.md != 3
  | .tretSkip f => f.md == 1
  | .tretGet f => f.md == 2
  | .tretSet f => f.md == 3
  | .snap _ => true
  | .nop => true
  | .prioh _ => true
  | .loch _ => true
  | .hint n => decide (3 ≤ n.toNat)
  | .c3IaddI32 _ => true
  | .c3IsubI32 _ => true
  | .c3ImulI32 _ => true
  | .c3ImulhI32 _ => true
  | .c3ImulhN32 _ => true
  | .c3IdivI32 _ => true
  | .c3IdivN32 _ => true
  | .c3IremI32 _ => true
  | .c3IremN32 _ => true
  | .c3IminI32 _ => true
  | .c3IminN32 _ => true
  | .c3ImaxI32 _ => true
  | .c3ImaxN32 _ => true
  | .c3AndB32 _ => true
  | .c3OrB32 _ => true
  | .c3XorB32 _ => true
  | .c3AndnB32 _ => true
  | .c3ShlB32 _ => true
  | .c3ShrB32 _ => true
  | .c3SarB32 _ => true
  | .c3RolB32 _ => true
  | .c3PrmbB32 _ => true
  | .c3InegI32 _ => true
  | .c3IabsI32 _ => true
  | .c3NotB32 _ => true
  | .c3PopcB32 _ => true
  | .c3ClzB32 _ => true
  | .c3CtzB32 _ => true
  | .c3BrevB32 _ => true
  | .c3IaddSatI32 _ => true
  | .c3IsubSatI32 _ => true
  | .c3MovB32 _ => true
  | .c3FaddF32 _ => true
  | .c3FsubF32 _ => true
  | .c3FmulF32 _ => true
  | .c3FminF32 _ => true
  | .c3FmaxF32 _ => true
  | .c3FminmF32 _ => true
  | .c3FmaxmF32 _ => true
  | .c3FcopysF32 _ => true
  | .c3FabsF32 _ => true
  | .c3FnegF32 _ => true
  | .c3FscaleF32 _ => true
  | .c3FgeteF32 _ => true
  | .c3FrndRneF32 _ => true
  | .c3FrndRtzF32 _ => true
  | .c3FrndRupF32 _ => true
  | .c3FrndRdnF32 _ => true
  | .c3F2iRtzI32F32 _ => true
  | .c3F2iRtzN32F32 _ => true
  | .c3F2iRneI32F32 _ => true
  | .c3F2iRneN32F32 _ => true
  | .c3I2fRneF32I32 _ => true
  | .c3I2fRneF32N32 _ => true
  | .c3FcvtRneBf16F32 _ => true
  | .c3FcvtRneF16F32 _ => true
  | .c3FcvtF32Bf16 _ => true
  | .c3FcvtF32F16 _ => true
  | .c3FclassF32 _ => true
  | .c3RcpF32 _ => true
  | .c3SqrtF32 _ => true
  | .c3RsqF32 _ => true
  | .c3Exp2F32 _ => true
  | .c3Log2F32 _ => true
  | .c3FaddF16x2 _ => true
  | .c3FsubF16x2 _ => true
  | .c3FmulF16x2 _ => true
  | .c3FminF16x2 _ => true
  | .c3FmaxF16x2 _ => true
  | .c3FabsF16x2 _ => true
  | .c3FnegF16x2 _ => true
  | .c3FcvtRneF16x2F32 _ => true
  | .c3FaddBf16x2 _ => true
  | .c3FsubBf16x2 _ => true
  | .c3FmulBf16x2 _ => true
  | .c3FminBf16x2 _ => true
  | .c3FmaxBf16x2 _ => true
  | .c3FabsBf16x2 _ => true
  | .c3FnegBf16x2 _ => true
  | .c3FcvtRneBf16x2F32 _ => true
  | .c3BfeN32 _ => true
  | .c3BfeI32 _ => true
  | .c3LeaS1 _ => true
  | .c3LeaS2 _ => true
  | .c3LeaS3 _ => true
  | .c3LeaS4 _ => true
  | .c3ShflAtB32 _ => true
  | .c3ShflXorB32 _ => true
  | .c3RedcAddI32 _ => true
  | .c3RedcMaxI32 _ => true
  | .c3RedcAddF32 _ => true
  | .c3RedcMaxF32 _ => true
  | .c3ScanAddI32 _ => true
  | .c3ScanAddF32 _ => true
  | .ciIaddI32 _ => true
  | .ciImulI32 _ => true
  | .ciAndB32 _ => true
  | .ciOrB32 _ => true
  | .ciXorB32 _ => true
  | .ciShlB32 _ => true
  | .ciShrB32 _ => true
  | .ciSarB32 _ => true
  | .ciIminI32 _ => true
  | .ciImaxI32 _ => true
  | .ciMoviB32 _ => true
  | .ciFscaleF32 _ => true
  | .ciMoviHi _ => true
  | .cbBra _ => true
  | .cbLoopLc0 _ => true
  | .cbLoopLc1 _ => true
  | .cbLoopLc2 _ => true
  | .s16Mov f => f.d != f.a.setWidth 6
  | .nop16 _ => true
  | .s16Iadd _ => true
  | .s16Isub _ => true
  | .s16Imin _ => true
  | .s16Imax _ => true
  | .s16And _ => true
  | .s16Or _ => true
  | .s16Xor _ => true
  | .s16Shl _ => true
  | .s16Shr _ => true
  | .s16Sar _ => true
  | .s16Fadd _ => true
  | .s16Fsub _ => true
  | .s16Fmul _ => true
  | .s16Fmin _ => true
  | .s16Fmax _ => true
  | .waitWake _ => false
  | .loadLimitWindow _ => false
  | .loadSetEntry _ => false
  | .pageWalk _ _ _ _ => false
  | .stopRecordsWrite _ => false
  | .loadReturn _ _ _ => false
  | .storeRetire _ => false
  | .holdMessage _ => false
  | .l1Evict _ _ => false
  | .writeBack _ => false
  | .storeAtHome _ => false
  | .atomicAtHome _ => false
  | .storeAck _ => false
  | .rangeRecall _ => false
  | .remoteRequest _ => false
  | .remoteReply _ => false
  | .hostWindowReply _ => false
  | .freezeMessage _ _ _ => false
  | .freezeAck _ _ => false
  | .collectionRequest _ _ => false
  | .collectionAck _ _ => false
  | .collectionStuck _ _ => false
  | .promoteRequest _ => false
  | .fenceConflict _ _ => false
  | .fenceComplete _ => false
  | .seqwaitPoll _ => false
  | .nopEntry _ => false
  | .copyEntry _ => false
  | .fillEntry _ => false
  | .qfenceEntry _ => false
  | .mqfillEntry _ => false
  | .bbarrEntry _ => false
  | .txeBeat _ => false
  | .entryComplete _ => false
  | .bbArrival _ => false
  | .plotterFetch _ _ _ _ => false
  | .quadrantBlockAdd _ _ => false
  | .acczZero _ _ => false
  | .accrdReturn _ _ => false
  | .accfreeEffect _ _ => false
  | .taskDispatch _ => false
  | .deferredCompletion _ _ => false
  | .flitCrcResend _ => false
  | .linkDown => false
  | .portDown _ => false
  | .scaleOutAbandon _ => false
  | .peerSilenceTimeout _ => false
  | .contributionBeat _ => false
  | .partialBeat _ => false
  | .buddyCopy _ => false
  | .groupTimeout _ _ _ _ => false
  | .destAckTimeout _ _ _ => false
  | .completionNotice _ => false
  | .launchDatagram _ => false
  | .placeTeam _ => false
  | .nodeDrainMessage _ => false
  | .privilegedDistribute _ => false
  | .distributorSteal _ _ => false
  | .taskTake _ _ => false
  | .crewComplete _ => false
  | .launchComplete _ => false
  | .nodePush _ => false
  | .nodeTimerExpiry _ => false
  | .nodePressureExpiry _ => false
  | .heapPushAtHome _ => false
  | .timeSliceExpiry _ => false
  | .tsliceEscalation _ => false
  | .watchdogExpiry _ => false
  | .crewEvict _ => false
  | .crewRestore _ => false
  | .rowRetire _ => false
  | .powerLimitThrottle _ => false
  | .snapinPin => false
  | .snapshotLatch => false
  | .powerOnReset => false
  | .failover => false
  | .ctxcreate _ _ => false
  | .ctxdestroy _ _ => false
  | .bindq _ _ _ _ _ => false
  | .unbindq _ _ => false
  | .halt _ _ => false
  | .release _ _ => false
  | .faultclr _ _ => false
  | .resume _ _ => false
  | .tlbinv _ _ _ _ => false
  | .ownkey _ _ => false
  | .thawforce _ _ _ => false
  | .snaptrig _ => false
  | .powerlim _ _ => false
  | .memrd _ _ _ _ => false
  | .memwr _ _ _ _ => false
  | .ctlrd _ _ _ _ => false
  | .ctlwr _ _ _ _ => false
  | .hostwin _ _ _ _ => false
  | .podjoin _ _ _ => false
  | .linkkey _ _ _ => false
  | .epset _ _ _ => false
  | .report _ _ => false
  | .dbgunlock _ _ => false
  | .lcadvance _ _ => false
  | .unassignedCommand _ _ => false
  | .getVersion _ => false
  | .getCapabilities _ => false
  | .negotiateAlgorithms _ => false
  | .getDigests _ => false
  | .getCertificate _ _ => false
  | .challenge _ _ => false
  | .getMeasurements _ _ => false
  | .keyExchange _ => false
  | .finish _ _ => false
  | .endSession _ => false
  | .heartbeat _ => false
  | .keyUpdate _ => false
  | .unsupportedRequest _ => false
  | .hctl _ => false
  | .hashComplete => false
  | .ectl _ => false
  | .verifyComplete => false
  | .mext _ => false
  | .hbeat _ => false
  | .unlock _ => false
  | .kctl _ => false
  | .wipeComplete => false
  | .dbgctl _ => false
  | .rxlen _ => false
  | .txlen _ => false
  | .rng => false
  | .registerWrite _ _ => false
  | .securedMessage _ => false
  | .portTraining _ _ => false

/-- A well-formed instruction. -/
abbrev Instr.WF (i : Instr) : Prop := i.wf = true

end Sys2Proof
end

