-- ==== Sys2Proof/Decode.lean ====
section
/-!
DEFINITION. The decoder, from the bytes of an instruction to its syntax (R22 to R45), and the encoder after it. An encoding
that R42 or R40 leaves unassigned is rejected by name.
-/

namespace Sys2Proof

/-- Why bytes are no instruction: too few of them, an unassigned opcode (R42), an unassigned compact index (R40). -/
inductive DecodeErr where
  | short
  | opcode (opc : Nat)
  | compact (cix : Nat)
deriving DecidableEq, Repr

/-! The fields of the formats. -/

/-- The guard of a 64-bit header (R24). -/
def guard64 (w : Dword) : Guard := { grd := w.extractLsb' 10 4, sns := w.getLsbD 14 }

/-- L3 (R24, R31). -/
def L3.ofWord (w : Dword) : L3 :=
  { g := guard64 w, la := w.extractLsb' 15 4, dst := w.extractLsb' 19 9, ocw := w.extractLsb' 28 4, sa := w.extractLsb' 32 9,
    xa := w.extractLsb' 41 3, ka := w.getLsbD 44, sb := w.extractLsb' 45 9, xb := w.extractLsb' 54 3, kb := w.getLsbD 57,
    mod6 := w.extractLsb' 58 6 }

/-- LI (R33). -/
def LI.ofWord (w : Dword) : LI :=
  { g := guard64 w, la := w.extractLsb' 15 4, dst := w.extractLsb' 19 9, md := w.extractLsb' 28 4, sa := w.extractLsb' 32 9,
    xa := w.extractLsb' 41 3, ka := w.getLsbD 44, imm := w.extractLsb' 45 19 }

/-- LM (R34). -/
def LM.ofWord (w : Dword) : LM :=
  { g := guard64 w, la := w.extractLsb' 15 4, dst := w.extractLsb' 19 9, md := w.extractLsb' 28 4, base := w.extractLsb' 32 8,
    wt := w.extractLsb' 40 3, scp := w.extractLsb' 43 3, pol := w.extractLsb' 46 2, off := w.extractLsb' 48 16 }

/-- LB (R35). -/
def LB.ofWord (w : Dword) : LB :=
  { g := guard64 w, la := w.extractLsb' 15 4, dst := w.extractLsb' 19 9, md := w.extractLsb' 28 4, off := w.extractLsb' 32 32 }

/-- LE (R36). -/
def LE.ofWord (w : Dword) : LE :=
  { g := guard64 w, la := w.extractLsb' 15 4, dst := w.extractLsb' 19 9, md := w.extractLsb' 28 4, sa := w.extractLsb' 32 9,
    ka := w.getLsbD 44, sb := w.extractLsb' 45 9, kb := w.getLsbD 57, fn := w.extractLsb' 58 6 }

/-- LX (R37). -/
def LX.ofWord (w : Dword) : LX :=
  { g := guard64 w, la := w.extractLsb' 15 4, tile := w.extractLsb' 19 5, q := w.extractLsb' 28 2, za := w.getLsbD 30,
    text := w.extractLsb' 32 4, sa := w.extractLsb' 36 9, sb := w.extractLsb' 45 9, sc := w.extractLsb' 54 9 }

/-- The guard of a compact form (R39). -/
def guard32 (w : Word) : Guard := { grd := w.extractLsb' 9 4, sns := w.getLsbD 13 }

/-- C3, CI and CB (R39). -/
def C3.ofWord (w : Word) : C3 :=
  { g := guard32 w, d := w.extractLsb' 14 6, a := w.extractLsb' 20 6, b := w.extractLsb' 26 6 }
def CI.ofWord (w : Word) : CI := { g := guard32 w, d := w.extractLsb' 14 6, imm := w.extractLsb' 20 12 }
def CB.ofWord (w : Word) : CB := { g := guard32 w, off := w.extractLsb' 14 18 }

/-- S16 (R41). -/
def S16.ofWord (w : BitVec 16) : S16 := { d := w.extractLsb' 5 6, a := w.extractLsb' 11 5 }

/-! The decoder. Lean's code generator cannot build a constructor whose number is above 244, and Instr has one constructor for
each row of the opcode table; the decoder is a definition for the kernel alone where it builds such a one. -/

noncomputable section

/-- A 64-bit instruction by its opcode (R42, R43). Where constructors share an opcode, the field that tells them apart decides,
and a value that the table does not list goes to the form that traps on it; HJOIN's form is that of who executes it
(R388). -/
def decode64 (helper : Bool) (w : Dword) : Except DecodeErr Instr :=
  let opc := (w.extractLsb' 2 8).toNat
  let md := (w.extractLsb' 28 4).toNat
  let fn := (w.extractLsb' 58 6).toNat
  match opc with
  | 0x00 => .ok (.iadd (.ofWord w))
  | 0x01 => .ok (.isub (.ofWord w))
  | 0x02 => .ok (.iaddc (.ofWord w))
  | 0x03 => .ok (.isubb (.ofWord w))
  | 0x04 => .ok (.imul (.ofWord w))
  | 0x05 => .ok (.imulh (.ofWord w))
  | 0x06 => .ok (.imad (.ofWord w))
  | 0x07 => .ok (.idiv (.ofWord w))
  | 0x08 => .ok (.irem (.ofWord w))
  | 0x09 => .ok (.ineg (.ofWord w))
  | 0x0A => .ok (.iabs (.ofWord w))
  | 0x0B => .ok (.imin (.ofWord w))
  | 0x0C => .ok (.imax (.ofWord w))
  | 0x0D => .ok (.and (.ofWord w))
  | 0x0E => .ok (.or (.ofWord w))
  | 0x0F => .ok (.xor (.ofWord w))
  | 0x10 => .ok (.andn (.ofWord w))
  | 0x11 => .ok (.not (.ofWord w))
  | 0x12 => .ok (.shl (.ofWord w))
  | 0x13 => .ok (.shr (.ofWord w))
  | 0x14 => .ok (.sar (.ofWord w))
  | 0x15 => .ok (.rol (.ofWord w))
  | 0x16 => .ok (.funsh (.ofWord w))
  | 0x17 => .ok (.popc (.ofWord w))
  | 0x18 => .ok (.clz (.ofWord w))
  | 0x19 => .ok (.ctz (.ofWord w))
  | 0x1A => .ok (.brev (.ofWord w))
  | 0x1B => .ok (.bfe (.ofWord w))
  | 0x1C => .ok (.bfi (.ofWord w))
  | 0x1D => .ok (.prmb (.ofWord w))
  | 0x1E => .ok (.lea (.ofWord w))
  | 0x1F => .ok (.sel (.ofWord w))
  | 0x20 => .ok (.icmp (.ofWord w))
  | 0x21 => .ok (.plop (.ofWord w))
  | 0x22 => .ok (.pmov (.ofWord w))
  | 0x23 => .ok (.idot4 (.ofWord w))
  | 0x30 => .ok (.fadd (.ofWord w))
  | 0x31 => .ok (.fsub (.ofWord w))
  | 0x32 => .ok (.fmul (.ofWord w))
  | 0x33 => .ok (.ffma (.ofWord w))
  | 0x34 => .ok (.fmin (.ofWord w))
  | 0x35 => .ok (.fmax (.ofWord w))
  | 0x36 => .ok (.fminm (.ofWord w))
  | 0x37 => .ok (.fmaxm (.ofWord w))
  | 0x38 => .ok (.fabs (.ofWord w))
  | 0x39 => .ok (.fneg (.ofWord w))
  | 0x3A => .ok (.fcopys (.ofWord w))
  | 0x3B => .ok (.fcmp (.ofWord w))
  | 0x3C => .ok (.fclass (.ofWord w))
  | 0x3D => .ok (.frnd (.ofWord w))
  | 0x3E => .ok (.fcvt (.ofWord w))
  | 0x3F => .ok (.f2i (.ofWord w))
  | 0x40 => .ok (.i2f (.ofWord w))
  | 0x41 => .ok (.fscale (.ofWord w))
  | 0x42 => .ok (.fgete (.ofWord w))
  | 0x43 => .ok (.fdot2 (.ofWord w))
  | 0x50 => .ok (.rcp (.ofWord w))
  | 0x51 => .ok (.sqrt (.ofWord w))
  | 0x52 => .ok (.rsq (.ofWord w))
  | 0x53 => .ok (.exp2 (.ofWord w))
  | 0x54 => .ok (.log2 (.ofWord w))
  | 0x55 => .ok (.had32 (.ofWord w))
  | 0x56 => .ok (.bmax (.ofWord w))
  | 0x57 => .ok (.qnt (.ofWord w))
  | 0x58 => .ok (.dqnt (.ofWord w))
  | 0x60 => .ok (.shfl (.ofWord w))
  | 0x61 => .ok (.vote (.ofWord w))
  | 0x62 => .ok (.ballot (.ofWord w))
  | 0x63 => .ok (.matchLanes (.ofWord w))
  | 0x64 => .ok (.redc (.ofWord w))
  | 0x65 => .ok (.scan (.ofWord w))
  | 0x66 => .ok (.compact (.ofWord w))
  | 0x67 => .ok (.hist (.ofWord w))
  | 0x68 => .ok (.hmerge (.ofWord w))
  | 0x69 => .ok (.bsrch (.ofWord w))
  | 0x6A => .ok (.topk (.ofWord w))
  | 0x70 => .ok (.mov (.ofWord w))
  | 0x71 => if md = 0 then .ok (.movi (.ofWord w)) else .ok (.moviHi (.ofWord w))
  | 0x72 => .ok (.movs (.ofWord w))
  | 0x73 => .ok (.smov (.ofWord w))
  | 0x74 => .ok (.shape (.ofWord w))
  | 0x75 => .ok (.ixset (.ofWord w))
  | 0x76 => .ok (.movx (.ofWord w))
  | 0x77 => .ok (.xset (.ofWord w))
  | 0x78 => .ok (.perm (.ofWord w))
  | 0x79 => .ok (.ocld (.ofWord w))
  | 0x7A => .ok (.ocinv (.ofWord w))
  | 0x7B => .ok (.vsave (.ofWord w))
  | 0x7C => .ok (.vrest (.ofWord w))
  | 0x80 => .ok (.ldg (.ofWord w))
  | 0x81 => .ok (.stg (.ofWord w))
  | 0x82 => .ok (.ldc (.ofWord w))
  | 0x83 => .ok (.pref (.ofWord w))
  | 0x84 => .ok (.atom (.ofWord w))
  | 0x85 => .ok (.red (.ofWord w))
  | 0x86 => .ok (.stm (.ofWord w))
  | 0x87 => .ok (.rwb (.ofWord w))
  | 0x88 => .ok (.rinv (.ofWord w))
  | 0x89 => .ok (.rwi (.ofWord w))
  | 0x8A => .ok (.freeze (.ofWord w))
  | 0x8B => .ok (.thaw (.ofWord w))
  | 0x8C => if md = 1 then .ok (.frzqSeq (.ofWord w)) else if md = 2 then .ok (.frzqFree (.ofWord w)) else .ok (.frzqAddr (.ofWord w))
  | 0x8D => .ok (.crdecl (.ofWord w))
  | 0x8E => if md % 2 = 1 then .ok (.crrelEnd (.ofWord w)) else .ok (.crrel (.ofWord w))
  | 0x8F => .ok (.promote (.ofWord w))
  | 0xA0 => .ok (.fence (.ofWord w))
  | 0xA1 => .ok (.acq (.ofWord w))
  | 0xA2 => .ok (.rel (.ofWord w))
  | 0xA3 => .ok (.waitc (.ofWord w))
  | 0xA4 => .ok (.cntrd (.ofWord w))
  | 0xA5 => if fn % 4 = 1 then .ok (.seqwaitThaw (.ofWord w)) else if fn % 4 = 2 then .ok (.seqwaitMem (.ofWord w))
    else .ok (.seqwaitChain (.ofWord w))
  | 0xA6 => .ok (.yieldpt (.ofWord w))
  | 0xB0 => .ok (.txfer (.ofWord w))
  | 0xB1 => .ok (.chpush (.ofWord w))
  | 0xB2 => .ok (.chtail (.ofWord w))
  | 0xB3 => .ok (.qfence (.ofWord w))
  | 0xB4 => .ok (.bbinit (.ofWord w))
  | 0xB5 => .ok (.bbarr (.ofWord w))
  | 0xB6 => .ok (.bbwait (.ofWord w))
  | 0xB7 => if md % 2 = 1 then .ok (.grpdefDel (.ofWord w)) else .ok (.grpdef (.ofWord w))
  | 0xB8 => .ok (.clstat (.ofWord w))
  | 0xC0 => .ok (.mma (.ofWord w))
  | 0xC1 => .ok (.mmas (.ofWord w))
  | 0xC2 => .ok (.mmag (.ofWord w))
  | 0xC3 => .ok (.mmax (.ofWord w))
  | 0xC4 => .ok (.accz (.ofWord w))
  | 0xC5 => .ok (.task (.ofWord w))
  | 0xC6 => if md = 1 then .ok (.tdone (.ofWord w)) else .ok (.tdoneRun (.ofWord w))
  | 0xC7 => .ok (.ttok (.ofWord w))
  | 0xC8 => .ok (.accrd (.ofWord w))
  | 0xC9 => .ok (.accfree (.ofWord w))
  | 0xCA => if md = 1 then .ok (.mstatClr (.ofWord w)) else if md = 2 then .ok (.mstatCtl (.ofWord w)) else .ok (.mstat (.ofWord w))
  | 0xD0 => .ok (.bra (.ofWord w))
  | 0xD1 => .ok (.brx (.ofWord w))
  | 0xD2 => .ok (.call (.ofWord w))
  | 0xD3 => .ok (.callx (.ofWord w))
  | 0xD4 => .ok (.ret (.ofWord w))
  | 0xD5 => .ok (.land (.ofWord w))
  | 0xD6 => .ok (.rcv (.ofWord w))
  | 0xD7 => .ok (.exit (.ofWord w))
  | 0xD8 => if md / 4 = 0 then .ok (.loop (.ofWord w)) else if md / 4 = 1 then .ok (.loopSet (.ofWord w))
    else if md / 4 = 2 then .ok (.loopSeti (.ofWord w)) else .ok (.loopGet (.ofWord w))
  | 0xD9 => .ok (.brk (.ofWord w))
  | 0xE0 => .ok (.bar (.ofWord w))
  | 0xE1 => .ok (.bara (.ofWord w))
  | 0xE2 => .ok (.barw (.ofWord w))
  | 0xE3 => .ok (.spawn (.ofWord w))
  | 0xE4 => .ok (.syncw (.ofWord w))
  | 0xE5 => .ok (.recruit (.ofWord w))
  | 0xE6 => if helper then .ok (.hjoinHelper (.ofWord w)) else .ok (.hjoin (.ofWord w))
  | 0xE7 => .ok (.hrel (.ofWord w))
  | 0xE8 => .ok (.nqpush (.ofWord w))
  | 0xE9 => if md % 4 = 1 then .ok (.nqtakeRet (.ofWord w)) else if md % 4 = 2 then .ok (.nqtakeTry (.ofWord w))
    else .ok (.nqtake (.ofWord w))
  | 0xEA => .ok (.hpush (.ofWord w))
  | 0xEB => .ok (.hdrain (.ofWord w))
  | 0xEC => .ok (.hclr (.ofWord w))
  | 0xED => .ok (.trap (.ofWord w))
  | 0xEE => if md = 1 then .ok (.tretSkip (.ofWord w)) else if md = 2 then .ok (.tretGet (.ofWord w))
    else if md = 3 then .ok (.tretSet (.ofWord w)) else .ok (.tret (.ofWord w))
  | 0xEF => .ok (.snap (.ofWord w))
  | 0xF0 => .ok .nop
  | 0xF1 => .ok (.prioh (w.extractLsb' 28 4))
  | 0xF2 => .ok (.loch (.ofWord w))
  | n => if 0xF3 ≤ n then .ok (.hint (w.extractLsb' 2 4)) else .error (.opcode n)

/-- A 32-bit instruction by its compact index (R40). -/
def decode32 (w : Word) : Except DecodeErr Instr :=
  match (w.extractLsb' 2 7).toNat with
  | 0 => .ok (.c3IaddI32 (.ofWord w))
  | 1 => .ok (.c3IsubI32 (.ofWord w))
  | 2 => .ok (.c3ImulI32 (.ofWord w))
  | 3 => .ok (.c3ImulhI32 (.ofWord w))
  | 4 => .ok (.c3ImulhN32 (.ofWord w))
  | 5 => .ok (.c3IdivI32 (.ofWord w))
  | 6 => .ok (.c3IdivN32 (.ofWord w))
  | 7 => .ok (.c3IremI32 (.ofWord w))
  | 8 => .ok (.c3IremN32 (.ofWord w))
  | 9 => .ok (.c3IminI32 (.ofWord w))
  | 10 => .ok (.c3IminN32 (.ofWord w))
  | 11 => .ok (.c3ImaxI32 (.ofWord w))
  | 12 => .ok (.c3ImaxN32 (.ofWord w))
  | 13 => .ok (.c3AndB32 (.ofWord w))
  | 14 => .ok (.c3OrB32 (.ofWord w))
  | 15 => .ok (.c3XorB32 (.ofWord w))
  | 16 => .ok (.c3AndnB32 (.ofWord w))
  | 17 => .ok (.c3ShlB32 (.ofWord w))
  | 18 => .ok (.c3ShrB32 (.ofWord w))
  | 19 => .ok (.c3SarB32 (.ofWord w))
  | 20 => .ok (.c3RolB32 (.ofWord w))
  | 21 => .ok (.c3PrmbB32 (.ofWord w))
  | 22 => .ok (.c3InegI32 (.ofWord w))
  | 23 => .ok (.c3IabsI32 (.ofWord w))
  | 24 => .ok (.c3NotB32 (.ofWord w))
  | 25 => .ok (.c3PopcB32 (.ofWord w))
  | 26 => .ok (.c3ClzB32 (.ofWord w))
  | 27 => .ok (.c3CtzB32 (.ofWord w))
  | 28 => .ok (.c3BrevB32 (.ofWord w))
  | 29 => .ok (.c3IaddSatI32 (.ofWord w))
  | 30 => .ok (.c3IsubSatI32 (.ofWord w))
  | 31 => .ok (.c3MovB32 (.ofWord w))
  | 32 => .ok (.c3FaddF32 (.ofWord w))
  | 33 => .ok (.c3FsubF32 (.ofWord w))
  | 34 => .ok (.c3FmulF32 (.ofWord w))
  | 35 => .ok (.c3FminF32 (.ofWord w))
  | 36 => .ok (.c3FmaxF32 (.ofWord w))
  | 37 => .ok (.c3FminmF32 (.ofWord w))
  | 38 => .ok (.c3FmaxmF32 (.ofWord w))
  | 39 => .ok (.c3FcopysF32 (.ofWord w))
  | 40 => .ok (.c3FabsF32 (.ofWord w))
  | 41 => .ok (.c3FnegF32 (.ofWord w))
  | 42 => .ok (.c3FscaleF32 (.ofWord w))
  | 43 => .ok (.c3FgeteF32 (.ofWord w))
  | 44 => .ok (.c3FrndRneF32 (.ofWord w))
  | 45 => .ok (.c3FrndRtzF32 (.ofWord w))
  | 46 => .ok (.c3FrndRupF32 (.ofWord w))
  | 47 => .ok (.c3FrndRdnF32 (.ofWord w))
  | 48 => .ok (.c3F2iRtzI32F32 (.ofWord w))
  | 49 => .ok (.c3F2iRtzN32F32 (.ofWord w))
  | 50 => .ok (.c3F2iRneI32F32 (.ofWord w))
  | 51 => .ok (.c3F2iRneN32F32 (.ofWord w))
  | 52 => .ok (.c3I2fRneF32I32 (.ofWord w))
  | 53 => .ok (.c3I2fRneF32N32 (.ofWord w))
  | 54 => .ok (.c3FcvtRneBf16F32 (.ofWord w))
  | 55 => .ok (.c3FcvtRneF16F32 (.ofWord w))
  | 56 => .ok (.c3FcvtF32Bf16 (.ofWord w))
  | 57 => .ok (.c3FcvtF32F16 (.ofWord w))
  | 58 => .ok (.c3FclassF32 (.ofWord w))
  | 59 => .ok (.c3RcpF32 (.ofWord w))
  | 60 => .ok (.c3SqrtF32 (.ofWord w))
  | 61 => .ok (.c3RsqF32 (.ofWord w))
  | 62 => .ok (.c3Exp2F32 (.ofWord w))
  | 63 => .ok (.c3Log2F32 (.ofWord w))
  | 64 => .ok (.c3FaddF16x2 (.ofWord w))
  | 65 => .ok (.c3FsubF16x2 (.ofWord w))
  | 66 => .ok (.c3FmulF16x2 (.ofWord w))
  | 67 => .ok (.c3FminF16x2 (.ofWord w))
  | 68 => .ok (.c3FmaxF16x2 (.ofWord w))
  | 69 => .ok (.c3FabsF16x2 (.ofWord w))
  | 70 => .ok (.c3FnegF16x2 (.ofWord w))
  | 71 => .ok (.c3FcvtRneF16x2F32 (.ofWord w))
  | 72 => .ok (.c3FaddBf16x2 (.ofWord w))
  | 73 => .ok (.c3FsubBf16x2 (.ofWord w))
  | 74 => .ok (.c3FmulBf16x2 (.ofWord w))
  | 75 => .ok (.c3FminBf16x2 (.ofWord w))
  | 76 => .ok (.c3FmaxBf16x2 (.ofWord w))
  | 77 => .ok (.c3FabsBf16x2 (.ofWord w))
  | 78 => .ok (.c3FnegBf16x2 (.ofWord w))
  | 79 => .ok (.c3FcvtRneBf16x2F32 (.ofWord w))
  | 80 => .ok (.c3BfeN32 (.ofWord w))
  | 81 => .ok (.c3BfeI32 (.ofWord w))
  | 82 => .ok (.c3LeaS1 (.ofWord w))
  | 83 => .ok (.c3LeaS2 (.ofWord w))
  | 84 => .ok (.c3LeaS3 (.ofWord w))
  | 85 => .ok (.c3LeaS4 (.ofWord w))
  | 86 => .ok (.c3ShflAtB32 (.ofWord w))
  | 87 => .ok (.c3ShflXorB32 (.ofWord w))
  | 88 => .ok (.c3RedcAddI32 (.ofWord w))
  | 89 => .ok (.c3RedcMaxI32 (.ofWord w))
  | 90 => .ok (.c3RedcAddF32 (.ofWord w))
  | 91 => .ok (.c3RedcMaxF32 (.ofWord w))
  | 92 => .ok (.c3ScanAddI32 (.ofWord w))
  | 93 => .ok (.c3ScanAddF32 (.ofWord w))
  | 96 => .ok (.ciIaddI32 (.ofWord w))
  | 97 => .ok (.ciImulI32 (.ofWord w))
  | 98 => .ok (.ciAndB32 (.ofWord w))
  | 99 => .ok (.ciOrB32 (.ofWord w))
  | 100 => .ok (.ciXorB32 (.ofWord w))
  | 101 => .ok (.ciShlB32 (.ofWord w))
  | 102 => .ok (.ciShrB32 (.ofWord w))
  | 103 => .ok (.ciSarB32 (.ofWord w))
  | 104 => .ok (.ciIminI32 (.ofWord w))
  | 105 => .ok (.ciImaxI32 (.ofWord w))
  | 106 => .ok (.ciMoviB32 (.ofWord w))
  | 107 => .ok (.ciFscaleF32 (.ofWord w))
  | 108 => .ok (.ciMoviHi (.ofWord w))
  | 112 => .ok (.cbBra (.ofWord w))
  | 113 => .ok (.cbLoopLc0 (.ofWord w))
  | 114 => .ok (.cbLoopLc1 (.ofWord w))
  | 115 => .ok (.cbLoopLc2 (.ofWord w))
  | n => .error (.compact n)

/-- A 16-bit instruction by OP4 (R41). -/
def decode16 (w : BitVec 16) : Instr :=
  let f := S16.ofWord w
  match (w.extractLsb' 1 4).toNat with
  | 0 => if f.d = f.a.setWidth 6 then .nop16 f.a else .s16Mov f
  | 1 => .s16Iadd f
  | 2 => .s16Isub f
  | 3 => .s16Imin f
  | 4 => .s16Imax f
  | 5 => .s16And f
  | 6 => .s16Or f
  | 7 => .s16Xor f
  | 8 => .s16Shl f
  | 9 => .s16Shr f
  | 10 => .s16Sar f
  | 11 => .s16Fadd f
  | 12 => .s16Fsub f
  | 13 => .s16Fmul f
  | 14 => .s16Fmin f
  | _ => .s16Fmax f

/-- The instruction at the head of a byte string, and its length (R22). -/
def decode (helper : Bool) (bs : List Byte) : Except DecodeErr (Instr × Nat) :=
  match bs with
  | [] => .error .short
  | b :: _ =>
    let n := if !b.getLsbD 0 then 2 else if b.getLsbD 1 then 8 else 4
    if bs.length < n then .error .short
    else
      let v := leNat (bs.take n)
      if n = 2 then .ok (decode16 (BitVec.ofNat 16 v), 2)
      else if n = 4 then (decode32 (BitVec.ofNat 32 v)).map (fun i => (i, 4))
      else (decode64 helper (BitVec.ofNat 64 v)).map (fun i => (i, 8))

end

/-! The encoder. -/

/-- The header of the 64-bit formats (R24): bits 31:28, DST, LA, SNS, GRD, OPC, LEN. -/
def header (opc : Nat) (g : Guard) (la : BitVec 4) (dst : BitVec 9) (md : BitVec 4) : Word :=
  md ++ dst ++ la ++ BitVec.ofBool g.sns ++ g.grd ++ BitVec.ofNat 8 opc ++ 3#2

/-- The words of the 64-bit formats (R31, R33 to R37). -/
def L3.word (opc : Nat) (f : L3) : Dword :=
  (f.mod6 ++ BitVec.ofBool f.kb ++ f.xb ++ f.sb ++ BitVec.ofBool f.ka ++ f.xa ++ f.sa : BitVec 32) ++
  header opc f.g f.la f.dst f.ocw
def LI.word (opc : Nat) (f : LI) : Dword :=
  (f.imm ++ BitVec.ofBool f.ka ++ f.xa ++ f.sa : BitVec 32) ++ header opc f.g f.la f.dst f.md
def LM.word (opc : Nat) (f : LM) : Dword :=
  (f.off ++ f.pol ++ f.scp ++ f.wt ++ f.base : BitVec 32) ++ header opc f.g f.la f.dst f.md
def LB.word (opc : Nat) (f : LB) : Dword := f.off ++ header opc f.g f.la f.dst f.md
def LE.word (opc : Nat) (f : LE) : Dword :=
  (f.fn ++ BitVec.ofBool f.kb ++ 0#3 ++ f.sb ++ BitVec.ofBool f.ka ++ 0#3 ++ f.sa : BitVec 32) ++
  header opc f.g f.la f.dst f.md
def LX.word (opc : Nat) (f : LX) : Dword :=
  (0#1 ++ f.sc ++ f.sb ++ f.sa ++ f.text : BitVec 32) ++
  header opc f.g f.la (0#4 ++ f.tile : BitVec 9) (0#1 ++ BitVec.ofBool f.za ++ f.q : BitVec 4)

/-- The words of the compact formats (R39) and of S16 (R41). -/
def C3.word (cix : Nat) (f : C3) : Word :=
  f.b ++ f.a ++ f.d ++ BitVec.ofBool f.g.sns ++ f.g.grd ++ BitVec.ofNat 7 cix ++ 1#2
def CI.word (cix : Nat) (f : CI) : Word :=
  f.imm ++ f.d ++ BitVec.ofBool f.g.sns ++ f.g.grd ++ BitVec.ofNat 7 cix ++ 1#2
def CB.word (cix : Nat) (f : CB) : Word :=
  f.off ++ BitVec.ofBool f.g.sns ++ f.g.grd ++ BitVec.ofNat 7 cix ++ 1#2
def S16.word (op : Nat) (f : S16) : BitVec 16 := f.a ++ f.d ++ BitVec.ofNat 4 op ++ 0#1

/-- A word with its length in bytes. -/
inductive Code where
  | w16 (w : BitVec 16)
  | w32 (w : Word)
  | w64 (w : Dword)
deriving DecidableEq, Repr

/-- The bytes of a word as they stand in memory (R22). -/
def Code.bytes (c : Code) : List Byte :=
  match c with
  | .w16 w => leBytes 2 w.toNat
  | .w32 w => leBytes 4 w.toNat
  | .w64 w => leBytes 8 w.toNat

/-- A hint's word (R45): the fields that are ignored as milas leaves them. -/
def hintWord (opc : Nat) (md : BitVec 4) : Dword :=
  LE.word opc { g := { grd := 15, sns := false }, la := 0, dst := 0x110, md := md, sa := 0x110, ka := false, sb := 0x110, kb := false, fn := 0 }

/-- The word of an instruction; the steps of the other agents have none. -/
def encode (i : Instr) : Option Code :=
  match i with
  | .iadd f => some (.w64 (f.word 0x00))
  | .isub f => some (.w64 (f.word 0x01))
  | .iaddc f => some (.w64 (f.word 0x02))
  | .isubb f => some (.w64 (f.word 0x03))
  | .imul f => some (.w64 (f.word 0x04))
  | .imulh f => some (.w64 (f.word 0x05))
  | .imad f => some (.w64 (f.word 0x06))
  | .idiv f => some (.w64 (f.word 0x07))
  | .irem f => some (.w64 (f.word 0x08))
  | .ineg f => some (.w64 (f.word 0x09))
  | .iabs f => some (.w64 (f.word 0x0A))
  | .imin f => some (.w64 (f.word 0x0B))
  | .imax f => some (.w64 (f.word 0x0C))
  | .and f => some (.w64 (f.word 0x0D))
  | .or f => some (.w64 (f.word 0x0E))
  | .xor f => some (.w64 (f.word 0x0F))
  | .andn f => some (.w64 (f.word 0x10))
  | .not f => some (.w64 (f.word 0x11))
  | .shl f => some (.w64 (f.word 0x12))
  | .shr f => some (.w64 (f.word 0x13))
  | .sar f => some (.w64 (f.word 0x14))
  | .rol f => some (.w64 (f.word 0x15))
  | .funsh f => some (.w64 (f.word 0x16))
  | .popc f => some (.w64 (f.word 0x17))
  | .clz f => some (.w64 (f.word 0x18))
  | .ctz f => some (.w64 (f.word 0x19))
  | .brev f => some (.w64 (f.word 0x1A))
  | .bfe f => some (.w64 (f.word 0x1B))
  | .bfi f => some (.w64 (f.word 0x1C))
  | .prmb f => some (.w64 (f.word 0x1D))
  | .lea f => some (.w64 (f.word 0x1E))
  | .sel f => some (.w64 (f.word 0x1F))
  | .icmp f => some (.w64 (f.word 0x20))
  | .plop f => some (.w64 (f.word 0x21))
  | .pmov f => some (.w64 (f.word 0x22))
  | .idot4 f => some (.w64 (f.word 0x23))
  | .fadd f => some (.w64 (f.word 0x30))
  | .fsub f => some (.w64 (f.word 0x31))
  | .fmul f => some (.w64 (f.word 0x32))
  | .ffma f => some (.w64 (f.word 0x33))
  | .fmin f => some (.w64 (f.word 0x34))
  | .fmax f => some (.w64 (f.word 0x35))
  | .fminm f => some (.w64 (f.word 0x36))
  | .fmaxm f => some (.w64 (f.word 0x37))
  | .fabs f => some (.w64 (f.word 0x38))
  | .fneg f => some (.w64 (f.word 0x39))
  | .fcopys f => some (.w64 (f.word 0x3A))
  | .fcmp f => some (.w64 (f.word 0x3B))
  | .fclass f => some (.w64 (f.word 0x3C))
  | .frnd f => some (.w64 (f.word 0x3D))
  | .fcvt f => some (.w64 (f.word 0x3E))
  | .f2i f => some (.w64 (f.word 0x3F))
  | .i2f f => some (.w64 (f.word 0x40))
  | .fscale f => some (.w64 (f.word 0x41))
  | .fgete f => some (.w64 (f.word 0x42))
  | .fdot2 f => some (.w64 (f.word 0x43))
  | .rcp f => some (.w64 (f.word 0x50))
  | .sqrt f => some (.w64 (f.word 0x51))
  | .rsq f => some (.w64 (f.word 0x52))
  | .exp2 f => some (.w64 (f.word 0x53))
  | .log2 f => some (.w64 (f.word 0x54))
  | .had32 f => some (.w64 (f.word 0x55))
  | .bmax f => some (.w64 (f.word 0x56))
  | .qnt f => some (.w64 (f.word 0x57))
  | .dqnt f => some (.w64 (f.word 0x58))
  | .shfl f => some (.w64 (f.word 0x60))
  | .vote f => some (.w64 (f.word 0x61))
  | .ballot f => some (.w64 (f.word 0x62))
  | .matchLanes f => some (.w64 (f.word 0x63))
  | .redc f => some (.w64 (f.word 0x64))
  | .scan f => some (.w64 (f.word 0x65))
  | .compact f => some (.w64 (f.word 0x66))
  | .hist f => some (.w64 (f.word 0x67))
  | .hmerge f => some (.w64 (f.word 0x68))
  | .bsrch f => some (.w64 (f.word 0x69))
  | .topk f => some (.w64 (f.word 0x6A))
  | .mov f => some (.w64 (f.word 0x70))
  | .movi f => some (.w64 (f.word 0x71))
  | .moviHi f => some (.w64 (f.word 0x71))
  | .movs f => some (.w64 (f.word 0x72))
  | .smov f => some (.w64 (f.word 0x73))
  | .shape f => some (.w64 (f.word 0x74))
  | .ixset f => some (.w64 (f.word 0x75))
  | .movx f => some (.w64 (f.word 0x76))
  | .xset f => some (.w64 (f.word 0x77))
  | .perm f => some (.w64 (f.word 0x78))
  | .ocld f => some (.w64 (f.word 0x79))
  | .ocinv f => some (.w64 (f.word 0x7A))
  | .vsave f => some (.w64 (f.word 0x7B))
  | .vrest f => some (.w64 (f.word 0x7C))
  | .ldg f => some (.w64 (f.word 0x80))
  | .stg f => some (.w64 (f.word 0x81))
  | .ldc f => some (.w64 (f.word 0x82))
  | .pref f => some (.w64 (f.word 0x83))
  | .atom f => some (.w64 (f.word 0x84))
  | .red f => some (.w64 (f.word 0x85))
  | .stm f => some (.w64 (f.word 0x86))
  | .rwb f => some (.w64 (f.word 0x87))
  | .rinv f => some (.w64 (f.word 0x88))
  | .rwi f => some (.w64 (f.word 0x89))
  | .freeze f => some (.w64 (f.word 0x8A))
  | .thaw f => some (.w64 (f.word 0x8B))
  | .frzqAddr f => some (.w64 (f.word 0x8C))
  | .frzqSeq f => some (.w64 (f.word 0x8C))
  | .frzqFree f => some (.w64 (f.word 0x8C))
  | .crdecl f => some (.w64 (f.word 0x8D))
  | .crrel f => some (.w64 (f.word 0x8E))
  | .crrelEnd f => some (.w64 (f.word 0x8E))
  | .promote f => some (.w64 (f.word 0x8F))
  | .fence f => some (.w64 (f.word 0xA0))
  | .acq f => some (.w64 (f.word 0xA1))
  | .rel f => some (.w64 (f.word 0xA2))
  | .waitc f => some (.w64 (f.word 0xA3))
  | .cntrd f => some (.w64 (f.word 0xA4))
  | .seqwaitChain f => some (.w64 (f.word 0xA5))
  | .seqwaitThaw f => some (.w64 (f.word 0xA5))
  | .seqwaitMem f => some (.w64 (f.word 0xA5))
  | .yieldpt f => some (.w64 (f.word 0xA6))
  | .txfer f => some (.w64 (f.word 0xB0))
  | .chpush f => some (.w64 (f.word 0xB1))
  | .chtail f => some (.w64 (f.word 0xB2))
  | .qfence f => some (.w64 (f.word 0xB3))
  | .bbinit f => some (.w64 (f.word 0xB4))
  | .bbarr f => some (.w64 (f.word 0xB5))
  | .bbwait f => some (.w64 (f.word 0xB6))
  | .grpdef f => some (.w64 (f.word 0xB7))
  | .grpdefDel f => some (.w64 (f.word 0xB7))
  | .clstat f => some (.w64 (f.word 0xB8))
  | .mma f => some (.w64 (f.word 0xC0))
  | .mmas f => some (.w64 (f.word 0xC1))
  | .mmag f => some (.w64 (f.word 0xC2))
  | .mmax f => some (.w64 (f.word 0xC3))
  | .accz f => some (.w64 (f.word 0xC4))
  | .task f => some (.w64 (f.word 0xC5))
  | .tdoneRun f => some (.w64 (f.word 0xC6))
  | .tdone f => some (.w64 (f.word 0xC6))
  | .ttok f => some (.w64 (f.word 0xC7))
  | .accrd f => some (.w64 (f.word 0xC8))
  | .accfree f => some (.w64 (f.word 0xC9))
  | .mstat f => some (.w64 (f.word 0xCA))
  | .mstatClr f => some (.w64 (f.word 0xCA))
  | .mstatCtl f => some (.w64 (f.word 0xCA))
  | .bra f => some (.w64 (f.word 0xD0))
  | .brx f => some (.w64 (f.word 0xD1))
  | .call f => some (.w64 (f.word 0xD2))
  | .callx f => some (.w64 (f.word 0xD3))
  | .ret f => some (.w64 (f.word 0xD4))
  | .land f => some (.w64 (f.word 0xD5))
  | .rcv f => some (.w64 (f.word 0xD6))
  | .exit f => some (.w64 (f.word 0xD7))
  | .loop f => some (.w64 (f.word 0xD8))
  | .loopSet f => some (.w64 (f.word 0xD8))
  | .loopSeti f => some (.w64 (f.word 0xD8))
  | .loopGet f => some (.w64 (f.word 0xD8))
  | .brk f => some (.w64 (f.word 0xD9))
  | .bar f => some (.w64 (f.word 0xE0))
  | .bara f => some (.w64 (f.word 0xE1))
  | .barw f => some (.w64 (f.word 0xE2))
  | .spawn f => some (.w64 (f.word 0xE3))
  | .syncw f => some (.w64 (f.word 0xE4))
  | .recruit f => some (.w64 (f.word 0xE5))
  | .hjoin f => some (.w64 (f.word 0xE6))
  | .hjoinHelper f => some (.w64 (f.word 0xE6))
  | .hrel f => some (.w64 (f.word 0xE7))
  | .nqpush f => some (.w64 (f.word 0xE8))
  | .nqtake f => some (.w64 (f.word 0xE9))
  | .nqtakeTry f => some (.w64 (f.word 0xE9))
  | .nqtakeRet f => some (.w64 (f.word 0xE9))
  | .hpush f => some (.w64 (f.word 0xEA))
  | .hdrain f => some (.w64 (f.word 0xEB))
  | .hclr f => some (.w64 (f.word 0xEC))
  | .trap f => some (.w64 (f.word 0xED))
  | .tret f => some (.w64 (f.word 0xEE))
  | .tretSkip f => some (.w64 (f.word 0xEE))
  | .tretGet f => some (.w64 (f.word 0xEE))
  | .tretSet f => some (.w64 (f.word 0xEE))
  | .snap f => some (.w64 (f.word 0xEF))
  | .nop => some (.w64 (hintWord 0xF0 0))
  | .prioh n => some (.w64 (hintWord 0xF1 n))
  | .loch f => some (.w64 (f.word 0xF2))
  | .hint n => some (.w64 (hintWord (0xF0 + n.toNat) 0))
  | .c3IaddI32 f => some (.w32 (f.word 0))
  | .c3IsubI32 f => some (.w32 (f.word 1))
  | .c3ImulI32 f => some (.w32 (f.word 2))
  | .c3ImulhI32 f => some (.w32 (f.word 3))
  | .c3ImulhN32 f => some (.w32 (f.word 4))
  | .c3IdivI32 f => some (.w32 (f.word 5))
  | .c3IdivN32 f => some (.w32 (f.word 6))
  | .c3IremI32 f => some (.w32 (f.word 7))
  | .c3IremN32 f => some (.w32 (f.word 8))
  | .c3IminI32 f => some (.w32 (f.word 9))
  | .c3IminN32 f => some (.w32 (f.word 10))
  | .c3ImaxI32 f => some (.w32 (f.word 11))
  | .c3ImaxN32 f => some (.w32 (f.word 12))
  | .c3AndB32 f => some (.w32 (f.word 13))
  | .c3OrB32 f => some (.w32 (f.word 14))
  | .c3XorB32 f => some (.w32 (f.word 15))
  | .c3AndnB32 f => some (.w32 (f.word 16))
  | .c3ShlB32 f => some (.w32 (f.word 17))
  | .c3ShrB32 f => some (.w32 (f.word 18))
  | .c3SarB32 f => some (.w32 (f.word 19))
  | .c3RolB32 f => some (.w32 (f.word 20))
  | .c3PrmbB32 f => some (.w32 (f.word 21))
  | .c3InegI32 f => some (.w32 (f.word 22))
  | .c3IabsI32 f => some (.w32 (f.word 23))
  | .c3NotB32 f => some (.w32 (f.word 24))
  | .c3PopcB32 f => some (.w32 (f.word 25))
  | .c3ClzB32 f => some (.w32 (f.word 26))
  | .c3CtzB32 f => some (.w32 (f.word 27))
  | .c3BrevB32 f => some (.w32 (f.word 28))
  | .c3IaddSatI32 f => some (.w32 (f.word 29))
  | .c3IsubSatI32 f => some (.w32 (f.word 30))
  | .c3MovB32 f => some (.w32 (f.word 31))
  | .c3FaddF32 f => some (.w32 (f.word 32))
  | .c3FsubF32 f => some (.w32 (f.word 33))
  | .c3FmulF32 f => some (.w32 (f.word 34))
  | .c3FminF32 f => some (.w32 (f.word 35))
  | .c3FmaxF32 f => some (.w32 (f.word 36))
  | .c3FminmF32 f => some (.w32 (f.word 37))
  | .c3FmaxmF32 f => some (.w32 (f.word 38))
  | .c3FcopysF32 f => some (.w32 (f.word 39))
  | .c3FabsF32 f => some (.w32 (f.word 40))
  | .c3FnegF32 f => some (.w32 (f.word 41))
  | .c3FscaleF32 f => some (.w32 (f.word 42))
  | .c3FgeteF32 f => some (.w32 (f.word 43))
  | .c3FrndRneF32 f => some (.w32 (f.word 44))
  | .c3FrndRtzF32 f => some (.w32 (f.word 45))
  | .c3FrndRupF32 f => some (.w32 (f.word 46))
  | .c3FrndRdnF32 f => some (.w32 (f.word 47))
  | .c3F2iRtzI32F32 f => some (.w32 (f.word 48))
  | .c3F2iRtzN32F32 f => some (.w32 (f.word 49))
  | .c3F2iRneI32F32 f => some (.w32 (f.word 50))
  | .c3F2iRneN32F32 f => some (.w32 (f.word 51))
  | .c3I2fRneF32I32 f => some (.w32 (f.word 52))
  | .c3I2fRneF32N32 f => some (.w32 (f.word 53))
  | .c3FcvtRneBf16F32 f => some (.w32 (f.word 54))
  | .c3FcvtRneF16F32 f => some (.w32 (f.word 55))
  | .c3FcvtF32Bf16 f => some (.w32 (f.word 56))
  | .c3FcvtF32F16 f => some (.w32 (f.word 57))
  | .c3FclassF32 f => some (.w32 (f.word 58))
  | .c3RcpF32 f => some (.w32 (f.word 59))
  | .c3SqrtF32 f => some (.w32 (f.word 60))
  | .c3RsqF32 f => some (.w32 (f.word 61))
  | .c3Exp2F32 f => some (.w32 (f.word 62))
  | .c3Log2F32 f => some (.w32 (f.word 63))
  | .c3FaddF16x2 f => some (.w32 (f.word 64))
  | .c3FsubF16x2 f => some (.w32 (f.word 65))
  | .c3FmulF16x2 f => some (.w32 (f.word 66))
  | .c3FminF16x2 f => some (.w32 (f.word 67))
  | .c3FmaxF16x2 f => some (.w32 (f.word 68))
  | .c3FabsF16x2 f => some (.w32 (f.word 69))
  | .c3FnegF16x2 f => some (.w32 (f.word 70))
  | .c3FcvtRneF16x2F32 f => some (.w32 (f.word 71))
  | .c3FaddBf16x2 f => some (.w32 (f.word 72))
  | .c3FsubBf16x2 f => some (.w32 (f.word 73))
  | .c3FmulBf16x2 f => some (.w32 (f.word 74))
  | .c3FminBf16x2 f => some (.w32 (f.word 75))
  | .c3FmaxBf16x2 f => some (.w32 (f.word 76))
  | .c3FabsBf16x2 f => some (.w32 (f.word 77))
  | .c3FnegBf16x2 f => some (.w32 (f.word 78))
  | .c3FcvtRneBf16x2F32 f => some (.w32 (f.word 79))
  | .c3BfeN32 f => some (.w32 (f.word 80))
  | .c3BfeI32 f => some (.w32 (f.word 81))
  | .c3LeaS1 f => some (.w32 (f.word 82))
  | .c3LeaS2 f => some (.w32 (f.word 83))
  | .c3LeaS3 f => some (.w32 (f.word 84))
  | .c3LeaS4 f => some (.w32 (f.word 85))
  | .c3ShflAtB32 f => some (.w32 (f.word 86))
  | .c3ShflXorB32 f => some (.w32 (f.word 87))
  | .c3RedcAddI32 f => some (.w32 (f.word 88))
  | .c3RedcMaxI32 f => some (.w32 (f.word 89))
  | .c3RedcAddF32 f => some (.w32 (f.word 90))
  | .c3RedcMaxF32 f => some (.w32 (f.word 91))
  | .c3ScanAddI32 f => some (.w32 (f.word 92))
  | .c3ScanAddF32 f => some (.w32 (f.word 93))
  | .ciIaddI32 f => some (.w32 (f.word 96))
  | .ciImulI32 f => some (.w32 (f.word 97))
  | .ciAndB32 f => some (.w32 (f.word 98))
  | .ciOrB32 f => some (.w32 (f.word 99))
  | .ciXorB32 f => some (.w32 (f.word 100))
  | .ciShlB32 f => some (.w32 (f.word 101))
  | .ciShrB32 f => some (.w32 (f.word 102))
  | .ciSarB32 f => some (.w32 (f.word 103))
  | .ciIminI32 f => some (.w32 (f.word 104))
  | .ciImaxI32 f => some (.w32 (f.word 105))
  | .ciMoviB32 f => some (.w32 (f.word 106))
  | .ciFscaleF32 f => some (.w32 (f.word 107))
  | .ciMoviHi f => some (.w32 (f.word 108))
  | .cbBra f => some (.w32 (f.word 112))
  | .cbLoopLc0 f => some (.w32 (f.word 113))
  | .cbLoopLc1 f => some (.w32 (f.word 114))
  | .cbLoopLc2 f => some (.w32 (f.word 115))
  | .s16Mov f => some (.w16 (f.word 0))
  | .nop16 d => some (.w16 (({ d := d.setWidth 6, a := d } : S16).word 0))
  | .s16Iadd f => some (.w16 (f.word 1))
  | .s16Isub f => some (.w16 (f.word 2))
  | .s16Imin f => some (.w16 (f.word 3))
  | .s16Imax f => some (.w16 (f.word 4))
  | .s16And f => some (.w16 (f.word 5))
  | .s16Or f => some (.w16 (f.word 6))
  | .s16Xor f => some (.w16 (f.word 7))
  | .s16Shl f => some (.w16 (f.word 8))
  | .s16Shr f => some (.w16 (f.word 9))
  | .s16Sar f => some (.w16 (f.word 10))
  | .s16Fadd f => some (.w16 (f.word 11))
  | .s16Fsub f => some (.w16 (f.word 12))
  | .s16Fmul f => some (.w16 (f.word 13))
  | .s16Fmin f => some (.w16 (f.word 14))
  | .s16Fmax f => some (.w16 (f.word 15))
  | .waitWake _ => none
  | .loadLimitWindow _ => none
  | .loadSetEntry _ => none
  | .pageWalk _ _ _ _ => none
  | .stopRecordsWrite _ => none
  | .loadReturn _ _ _ => none
  | .storeRetire _ => none
  | .holdMessage _ => none
  | .l1Evict _ _ => none
  | .writeBack _ => none
  | .storeAtHome _ => none
  | .atomicAtHome _ => none
  | .storeAck _ => none
  | .rangeRecall _ => none
  | .remoteRequest _ => none
  | .remoteReply _ => none
  | .hostWindowReply _ => none
  | .freezeMessage _ _ _ => none
  | .freezeAck _ _ => none
  | .collectionRequest _ _ => none
  | .collectionAck _ _ => none
  | .collectionStuck _ _ => none
  | .promoteRequest _ => none
  | .fenceConflict _ _ => none
  | .fenceComplete _ => none
  | .seqwaitPoll _ => none
  | .nopEntry _ => none
  | .copyEntry _ => none
  | .fillEntry _ => none
  | .qfenceEntry _ => none
  | .mqfillEntry _ => none
  | .bbarrEntry _ => none
  | .txeBeat _ => none
  | .entryComplete _ => none
  | .bbArrival _ => none
  | .plotterFetch _ _ _ _ => none
  | .quadrantBlockAdd _ _ => none
  | .acczZero _ _ => none
  | .accrdReturn _ _ => none
  | .accfreeEffect _ _ => none
  | .taskDispatch _ => none
  | .deferredCompletion _ _ => none
  | .flitCrcResend _ => none
  | .linkDown => none
  | .portDown _ => none
  | .scaleOutAbandon _ => none
  | .peerSilenceTimeout _ => none
  | .contributionBeat _ => none
  | .partialBeat _ => none
  | .buddyCopy _ => none
  | .groupTimeout _ _ _ _ => none
  | .destAckTimeout _ _ _ => none
  | .completionNotice _ => none
  | .launchDatagram _ => none
  | .placeTeam _ => none
  | .nodeDrainMessage _ => none
  | .privilegedDistribute _ => none
  | .distributorSteal _ _ => none
  | .taskTake _ _ => none
  | .crewComplete _ => none
  | .launchComplete _ => none
  | .nodePush _ => none
  | .nodeTimerExpiry _ => none
  | .nodePressureExpiry _ => none
  | .heapPushAtHome _ => none
  | .timeSliceExpiry _ => none
  | .tsliceEscalation _ => none
  | .watchdogExpiry _ => none
  | .crewEvict _ => none
  | .crewRestore _ => none
  | .rowRetire _ => none
  | .powerLimitThrottle _ => none
  | .snapinPin => none
  | .snapshotLatch => none
  | .powerOnReset => none
  | .failover => none
  | .ctxcreate _ _ => none
  | .ctxdestroy _ _ => none
  | .bindq _ _ _ _ _ => none
  | .unbindq _ _ => none
  | .halt _ _ => none
  | .release _ _ => none
  | .faultclr _ _ => none
  | .resume _ _ => none
  | .tlbinv _ _ _ _ => none
  | .ownkey _ _ => none
  | .thawforce _ _ _ => none
  | .snaptrig _ => none
  | .powerlim _ _ => none
  | .memrd _ _ _ _ => none
  | .memwr _ _ _ _ => none
  | .ctlrd _ _ _ _ => none
  | .ctlwr _ _ _ _ => none
  | .hostwin _ _ _ _ => none
  | .podjoin _ _ _ => none
  | .linkkey _ _ _ => none
  | .epset _ _ _ => none
  | .report _ _ => none
  | .dbgunlock _ _ => none
  | .lcadvance _ _ => none
  | .unassignedCommand _ _ => none
  | .getVersion _ => none
  | .getCapabilities _ => none
  | .negotiateAlgorithms _ => none
  | .getDigests _ => none
  | .getCertificate _ _ => none
  | .challenge _ _ => none
  | .getMeasurements _ _ => none
  | .keyExchange _ => none
  | .finish _ _ => none
  | .endSession _ => none
  | .heartbeat _ => none
  | .keyUpdate _ => none
  | .unsupportedRequest _ => none
  | .hctl _ => none
  | .hashComplete => none
  | .ectl _ => none
  | .verifyComplete => none
  | .mext _ => none
  | .hbeat _ => none
  | .unlock _ => none
  | .kctl _ => none
  | .wipeComplete => none
  | .dbgctl _ => none
  | .rxlen _ => none
  | .txlen _ => none
  | .rng => none
  | .registerWrite _ _ => none
  | .securedMessage _ => none
  | .portTraining _ _ => none

noncomputable section

/-- The instruction of a word numbered as the opcode table numbers it: bit 0 the least significant of the first halfword; the
bits that the table does not give are 0. -/
def decodeTableWord (nbits w : Nat) : Option Instr :=
  match decode false (leBytes 8 (w % 2 ^ nbits)) with
  | .ok (i, _) => some i
  | .error _ => none

end

end Sys2Proof
end

