-- ==== Sys2Proof/Machine/Legal.lean ====
section
/-!
DEFINITION. Which modifier fields are legal for which opcode: everything else of them takes the illegal-instruction trap
(R38, R45, R46, R245 and the rule of each instruction).
-/

namespace Sys2Proof

/-- MOD6 of the integer instructions 0x00 to 0x23 (R244, R245, R250, R251, R254 to R257, R260, R265). -/
def intLegal (opc : Nat) (m6 : BitVec 6) : Bool :=
  let m := m6.toNat
  match opc with
  | 0x00 | 0x01 => decide (m < 8)
  | 0x02 | 0x03 => decide (m % 16 < 12 ∧ m / 16 ≠ 3)
  | 0x06 | 0x16 => true
  | 0x09 | 0x0A => decide (m < 8 ∧ m % 2 = 0)
  | 0x1B => decide (m < 2)
  | 0x1C => decide (m % 4 = 0)
  | 0x1D => decide (m = 0 ∨ m = 8 ∨ m = 16)
  | 0x1E => decide (m % 8 < 2)
  | 0x1F => decide (m % 16 < 12)
  | 0x20 => decide (m / 4 % 2 = 0 ∧ m / 8 ≠ 7)
  | 0x21 => decide (m < 16)
  | 0x22 => decide (m < 4)
  | 0x23 => decide (m % 4 ≠ 3)
  | _ => decide (m < 4)

/-- MOD6, and for FCVT the FMT field, of the floating-point instructions (R268, R269, R278 to R284, R289 to R291). -/
def floatLegal (opc : Nat) (m6 : BitVec 6) (sb : BitVec 9) : Bool :=
  let m := m6.toNat
  let ft := m % 8
  let rm := m / 8
  match opc with
  | 0x30 | 0x31 | 0x32 => decide (ft < 6 ∧ rm < 6)
  | 0x33 => true
  | 0x34 | 0x35 | 0x36 | 0x37 | 0x38 | 0x39 | 0x3A | 0x3C => decide (ft < 6 ∧ rm = 0)
  | 0x3B => decide (ft < 4)
  | 0x3D | 0x41 | 0x50 | 0x51 | 0x52 => decide (ft < 4 ∧ rm < 6)
  | 0x3E =>
    let sf := sb.toNat % 8
    let df := sb.toNat / 8 % 8
    decide (rm < 6) &&
      (match ft with
       | 0 => decide (sf < 7 ∧ df < 7)
       | 1 => decide (sf < 7 ∧ (df = 4 ∨ df = 5))
       | 2 | 3 => true
       | _ => false)
  | 0x3F | 0x40 => true
  | 0x42 => decide (ft < 4 ∧ rm = 0)
  | 0x43 => decide (m % 4 < 2)
  | 0x53 | 0x54 => decide (m = 0)
  | 0x55 => decide (m < 3)
  | 0x56 => decide (m < 4)
  | _ => decide (m % 4 ≠ 3 ∧ m < 32 ∧ (m / 4 < 4 ∨ m % 4 = 2))

/-- MOD6 of the cross-lane instructions 0x60 to 0x6A (R296 to R306), whatever the width of the crew. -/
def crossLegal (opc : Nat) (m6 : BitVec 6) : Bool :=
  let m := m6.toNat
  match opc with
  | 0x60 => decide (m / 4 % 8 < 6)
  | 0x61 => decide (m < 5)
  | 0x62 => decide (m < 4)
  | 0x63 => decide (m < 8)
  | 0x64 | 0x65 => decide (m % 8 < 5 ∧ m / 8 < 6 ∧ (m % 8 = 2 → m / 8 < 3))
  | 0x66 => decide (m = 0)
  | 0x67 => decide (m % 8 < 6 ∧ m / 16 = 0)
  | 0x68 => decide (m % 8 < 6 ∧ m < 32)
  | 0x69 => decide (m % 4 ≠ 3 ∧ m < 8)
  | _ => decide (m < 16)

/-- The widths an atomic operation accepts (R146). -/
def atomWidths (opc : BitVec 4) (wt : BitVec 3) : Bool :=
  let w := wt.toNat
  match opc.toNat with
  | 10 => decide (2 ≤ w ∧ w ≤ 5)
  | 11 => decide (w = 4)
  | 14 | 15 => false
  | _ => decide (w = 4 ∨ w = 5)

/-- WT, SCP, MOD and POL of an LM instruction (R46, R146, R239). -/
def memLegal (opc : Nat) (f : LM) : Bool :=
  f.wt != 7 && f.scp != 7 &&
  (match opc with
   | 0x84 => atomWidths f.md f.wt
   | 0x85 => atomWidths f.md f.wt && f.md != 8 && f.md != 9 && !f.pol.getLsbD 0
   | 0x7B | 0x7C => f.wt == 4
   | _ => true)

end Sys2Proof
end

