-- ==== Sys2Proof/Config.lean ====
section
/-!
DEFINITION. What one part fixes and the spec leaves open: free values. Each is an opaque constant, so that no proof can
see a value of it; the assumption log names each one. The constants of every DVX-Z3A stand beside them.
-/

namespace Sys2Proof.Config

/-- Byte i, 0 to 63, of the AES-256-XTS key of an owner number and how often it has been replaced: the root-of-trust block draws
it from its entropy source, and no path reads it out (R87). Log entry 3. -/
opaque ownerKeyByte : (owner gen i : Nat) → Byte

/-- Clock cycles that pass in a step beyond the first (R234 CYCLE). Log entry 5. -/
opaque extraClk : Nat → Nat

/-- The fused 128-bit identifier (R503). Log entry 8. -/
opaque uid0 : Dword
opaque uid1 : Dword

/-- The lifecycle code the fuses of the modelled part hold: 2, PRODUCTION (R482, R488). DESIGN CHOICE, log entry 8. -/
def lcf : BitVec 8 := 2

/-- The digest of the ROM (R482). Log entry 8. -/
opaque romDigest : BitVec 512

/-- SHA-512 of a byte string (R482). Log entry 17. -/
opaque sha512 : List Byte → BitVec 512

/-- Ed25519 verification of a message (R482): key, signature, message. Log entry 17. -/
opaque ed25519 : (key sig msg : List Byte) → Bool

/-- The n-th 8 bytes of the entropy source (R482). Log entry 17. -/
opaque entropy : Nat → Dword

/-- A byte of the management core's ROM (R481). Log entry 17. -/
opaque romByte : Nat → Byte

/-- The 64 KiB pages that a unit shows in the readback window of a die (R464), 0 for an index that no unit has: the layout is the
part's. Log entry 24. -/
opaque unitPages : (die kind index : Nat) → Nat

/-- VERSION, ENTRY and PLEN, dwords 2 to 7 and SIG of the header of the firmware image in boot flash (R484). Log entry 121. -/
opaque imageVersion : Word
opaque imageEntry : Word
opaque imagePlen : Word
opaque imageRest : Nat → Dword
opaque imageSig : BitVec 512

/-- A byte of the payload of that image. Log entry 121. -/
opaque imageByte : Nat → Byte

/-- Whether the verify of boot step 4 of a die passes (R483): 2 the configuration block, 3 the engine firmware. Log entry 20. -/
opaque bootVerified : (die n : Nat) → Bool

/-- A byte of the fused 64-byte unique device secret (R486). Log entry 124. -/
opaque deviceSecret : Nat → Byte

/-- The Dvoryx root certificate and the certificate of the DeviceID key, as boot flash holds them (R486). Log entry 124. -/
opaque rootCert : List Byte
opaque deviceIdCert : List Byte

/-- The n-th certificate of an alias key, by its seed and the seed of the DeviceID key that signs it (R486). Log entry 124. -/
opaque aliasCert : (deviceSeed aliasSeed : List Byte) → (n : Nat) → List Byte

/-- What the SPDM responder can negotiate (R487). -/
inductive SpdmAlg where
  | ed25519
  | sha512Base
  | sha512Measurement
  | ecdheP384
  | aes256Gcm
deriving DecidableEq, Repr

/-- All that it supports (R487). -/
def algorithms : List SpdmAlg := [.ed25519, .sha512Base, .sha512Measurement, .ecdheP384, .aes256Gcm]

/-- The bytes of the n-th SPDM response whose layout R487 leaves to the DMTF specification: its request and connection, the
algorithms, the certificate chain of slot 0 and the seed of the alias key that signs (R486). Log entry 18. -/
opaque spdmBytes : (request conn : Nat) → List SpdmAlg → (chain : List (List Byte)) → (aliasSeed : List Byte) → (n : Nat) → List Byte

/-- The bytes of the n-th SPDM request of a kind that no rule lays out. Log entry 18. -/
opaque spdmRequest : (request conn n : Nat) → List Byte

/-- The measurement n, 2 or 3, that a die's boot extends (R483): digests of what the boot flash holds. Log entry 20. -/
opaque bootMeas : (die n : Nat) → BitVec 512

/-- A byte of the management core's SRAM that no register write has written. Log entry 25. -/
opaque sramByte : Nat → Byte

/-- The bytes, from its start, that the part writes into sector i of the n-th device-state area it saves (R460), whose layout is
private to it. Log entry 76. -/
opaque stateBytes : (n i : Nat) → List Byte

/-- Where in SRAM the management core puts a token (R491). Log entry 20. -/
opaque tokenAddr : Dword

/-- The free value of the n-th open result of a run: a value the spec says is open and after which the machine goes on.
Log entry 5. -/
opaque freeValue : Nat → Dword

/-- GZID of stepping A0 (R503). -/
def gzid : Dword := 0x0D5A3A0300010000

/-- GZISA (R503). -/
def gzisa : Dword := 0x0000000000014003

/-- FEAT0 and FEAT1 of this part (R18). -/
def feat0 : Word := 0x3F
def feat1 : Word := 0x1FF

/-- The bytes of HBM of one device (R79). -/
def hbmBytes : Nat := 0x8000000000

/-- Device silence timeout in clk (R348). -/
def silenceClk : Nat := 2500000

/-- The failover timer of R480, 100 ms in clk (R13). -/
def hbeatClk : Nat := 125000000

end Sys2Proof.Config
end

