-- ==== Sys2Proof/Machine/Cipher.lean ====
section
/-!
DEFINITION. AES-256-XTS (R87): the cipher of FIPS 197 and the mode of IEEE 1619, both by the names R87 gives (log entry 3). A
line of 128 bytes is one data unit of eight blocks, and its tweak is its local physical address.
-/

namespace Sys2Proof.Machine

/-- Multiplication in the cipher's field of 256 elements, fuel the bits of the second factor. -/
def gfMul (fuel a b : Nat) : Nat :=
  match fuel with
  | 0 => 0
  | n + 1 =>
    (if b % 2 = 1 then a else 0) ^^^ gfMul n (if a < 128 then 2 * a else (2 * a) ^^^ 0x11B) (b / 2)

/-- The inverse in the field, 0 for 0: the 254th power. -/
def gfInv (a : Nat) : Nat :=
  let sq := fun x => gfMul 8 x x
  let a2 := sq a
  let a3 := gfMul 8 a2 a
  let a12 := sq (sq a3)
  let a15 := gfMul 8 a12 a3
  let a240 := sq (sq (sq (sq a15)))
  gfMul 8 a240 (gfMul 8 a12 a2)

/-- Rotation of a byte to the left. -/
def rotByte (a n : Nat) : Nat := (a * 2 ^ n) % 256 + a / 2 ^ (8 - n)

/-- The substitution of a byte, and its inverse. -/
def subByte (a : Nat) : Nat :=
  let b := gfInv a
  b ^^^ rotByte b 1 ^^^ rotByte b 2 ^^^ rotByte b 3 ^^^ rotByte b 4 ^^^ 0x63
def unsubByte (a : Nat) : Nat := gfInv (rotByte a 1 ^^^ rotByte a 3 ^^^ rotByte a 6 ^^^ 0x05)

/-- The bytewise exclusive OR of two blocks. -/
def xorBytes (a b : List Nat) : List Nat := List.zipWith (fun x y => x ^^^ y) a b

/-- The key schedule of a 32-byte key (FIPS 197): 60 words of four bytes. -/
def keyWords (key : List Nat) : List (List Nat) :=
  (List.range 52).foldl (fun (ws : List (List Nat)) j =>
    let i := j + 8
    let t := ws.getD (i - 1) []
    let u := if i % 8 = 0 then
        xorBytes ((t.drop 1 ++ t.take 1).map subByte) [(List.range (i / 8 - 1)).foldl (fun r _ => gfMul 8 r 2) 1, 0, 0, 0]
      else if i % 8 = 4 then t.map subByte else t
    ws ++ [xorBytes (ws.getD (i - 8) []) u])
    ((List.range 8).map (fun i => (key.drop (4 * i)).take 4))

/-- The i-th round key of a schedule. -/
def roundKey (ws : List (List Nat)) (i : Nat) : List Nat := ((ws.drop (4 * i)).take 4).flatten

/-- The rows of a state, its bytes by columns, shifted by their number: n is 1 to encrypt and 3 to decrypt. -/
def shiftRows (n : Nat) (s : List Nat) : List Nat := (List.range 16).map (fun i => s.getD ((i + 4 * n * (i % 4)) % 16) 0)

/-- The columns of a state multiplied by the polynomial whose coefficients are given. -/
def mixCols (m : List Nat) (s : List Nat) : List Nat :=
  (List.range 16).map (fun i => (List.range 4).foldl (fun a j =>
    a ^^^ gfMul 8 (s.getD (i / 4 * 4 + (i + j) % 4) 0) (m.getD j 0)) 0)

/-- AES-256 on one block of 16 bytes (FIPS 197). -/
def aesEnc (key blk : List Nat) : List Nat :=
  let ws := keyWords key
  let s := (List.range 13).foldl (fun s r =>
    xorBytes (mixCols [2, 3, 1, 1] (shiftRows 1 (s.map subByte))) (roundKey ws (r + 1))) (xorBytes blk (roundKey ws 0))
  xorBytes (shiftRows 1 (s.map subByte)) (roundKey ws 14)

/-- The inverse cipher. -/
def aesDec (key blk : List Nat) : List Nat :=
  let ws := keyWords key
  let s := (List.range 13).foldl (fun s r =>
    mixCols [14, 11, 13, 9] (xorBytes ((shiftRows 3 s).map unsubByte) (roundKey ws (13 - r)))) (xorBytes blk (roundKey ws 14))
  xorBytes ((shiftRows 3 s).map unsubByte) (roundKey ws 0)

/-- The mask of a block of a line (IEEE 1619): the tweak encrypted under the second key, doubled once for each block before it. -/
def xtsMask (key : List Nat) (blk : Nat) : List Nat :=
  let line := blk / 8 * 128
  let t := aesEnc (key.drop 32) ((leBytes 16 (line % 2 ^ 44)).map (·.toNat))
  let v := (List.range (blk % 8)).foldl (fun v _ =>
    if v < 2 ^ 127 then 2 * v else (2 * v) % 2 ^ 128 ^^^ 0x87) (t.foldr (fun b a => b + 256 * a) 0)
  (leBytes 16 v).map (·.toNat)

/-- The keys of an owner number in a generation (R87), as two 32-byte keys, one after the other. -/
def ownerKey (k : Nat × Nat) : List Nat := (List.range 64).map (fun i => (Config.ownerKeyByte k.1 k.2 i).toNat)

/-- The ciphertext that a key gives a block's plaintext, and the plaintext it gives a ciphertext (R87): blk counts blocks of 16
bytes from local physical address 0. -/
def xtsEnc (k : Nat × Nat) (blk : Nat) (p : List Byte) : List Byte :=
  let m := xtsMask (ownerKey k) blk
  (xorBytes (aesEnc ((ownerKey k).take 32) (xorBytes (p.map (·.toNat)) m)) m).map (BitVec.ofNat 8)
def xtsDec (k : Nat × Nat) (blk : Nat) (c : List Byte) : List Byte :=
  let m := xtsMask (ownerKey k) blk
  (xorBytes (aesDec ((ownerKey k).take 32) (xorBytes (c.map (·.toNat)) m)) m).map (BitVec.ofNat 8)

end Sys2Proof.Machine
end

