-- ==== Sys2Proof/Machine/State.lean ====
section
/-!
DEFINITION. The state of one DVX-Z3A as plain data: the device and its Gazetteer, main memory, translation, caches,
crews, teams, launches, engines, clusters, contexts, collectives and the root of trust; State.reset; Fault and Refusal.
INVENTORY.md lists every field with its rule and its reset value.
-/

namespace Sys2Proof.Machine

/-- What a register stores by its shape tag (R212): uniform, affine or general. Empty is the absence of an entry. -/
inductive Shape where
  | u (w : Word)
  | a (base stride : Word)
  | g (ws : List Word)
deriving DecidableEq, Repr

/-- A register, operand-cache entry or latch that is not empty: its words and the lanes marked poisoned (R462). -/
structure Reg where
  shape  : Shape
  poison : Lanes
deriving DecidableEq, Repr

/-- One of the places an instruction's result goes: a register, a predicate, an operand-cache entry or a latch. -/
inductive Dst where
  | reg (n : Nat)
  | pred (n : Nat)
  | oc (n : Nat)
  | latch (n : Nat)
deriving DecidableEq, Repr

/-- One destination of a result: the lanes it writes, its words with their natural shape (for a predicate bit 0 of
each) and their poison marks (R26, R214). -/
structure PDest where
  dst    : Dst
  lanes  : Lanes
  sh     : Shape
  poison : Lanes
deriving DecidableEq, Repr

/-- A pending result (R26): the instruction that owes it, the instructions left in its window, whether it has come. -/
structure Pend where
  op    : Nat
  win   : Nat
  ready : Bool
  dests : List PDest
deriving DecidableEq, Repr

/-- One entry of an in-flight counter (R152, R153): the instruction and whether it has completed. -/
structure Cnt where
  op   : Nat
  done : Bool
deriving DecidableEq, Repr

/-- Where a translated access goes (R80): local HBM, a peer's HBM, the host window or the Gazetteer. -/
inductive Target where
  | hbm (pa : Nat)
  | peer (dev pa : Nat)
  | host (off : Nat)
  | gaz (off : Nat)
deriving DecidableEq, Repr

/-- One lane's access (R130): its address as translated, the leaf and its level (R93), its length, the bytes a store carries (none where a mask
disables one), the poison marks of those bytes, and the operands of an atomic. -/
structure LaneAcc where
  lane   : Nat
  va     : Dword
  tgt    : Target
  owner  : Nat
  leaf   : Dword
  level  : Nat
  n      : Nat
  bytes  : List (Option Byte)
  poison : Bool
  x      : Dword
  y      : Dword
deriving DecidableEq, Repr

/-- A load in flight (R134 to R136): its accesses, the lanes whose data has been taken with the bytes and their poison
mark; passed says that a younger load of its crew has taken its data first (R143); vrest names the register a VREST restores
and its operand lane (R241). -/
structure LoadOp where
  op   : Nat
  pc   : Dword
  pol  : Nat
  uni  : Bool
  sign : Bool
  accs : List LaneAcc
  got  : List (Nat × List Byte × Bool)
  passed : Bool
  vrest : Option (Nat × Nat)
deriving DecidableEq, Repr

/-- What a store-queue entry does when it reaches the head (R141 and the instruction's own rule). -/
inductive SqKind where
  | store (pol : Nat)
  | atom (wt : BitVec 3) (opc : BitVec 4) (ret : Bool)
  | rel (expl : Bool)
  | fence
  | spawn (recs : List (Dword × Dword))
  | chtail (handle : Nat)
  | txfer (handle seq : Nat) (bytes : List Byte)
  | qfence (handle seq : Nat) (mask : BitVec 16)
  | bbinit (expect : Word)
  | bbarr (n : Nat)
  | ttok (token : Word)
  | nqpush (k : Nat)
  | nqret
  | hpush
  | hclr (cap : Nat) (dir : Bool)
  | recruit
deriving DecidableEq, Repr

/-- A store-queue entry (R141): the instruction, its queue tag, what it does, its accesses, its order and scope, the
messages it has sent and not had acknowledged, how far a release in it has come, and the old values its atomic has
been given. -/
structure SqEntry where
  op     : Nat
  pc     : Dword
  kind   : SqKind
  accs   : List LaneAcc
  rel    : Bool
  scope  : Nat
  stage  : Nat
  msgs   : List Nat
  got    : List (Nat × Nat)
  order  : BitVec 2 := 0
deriving DecidableEq, Repr

/-- A path (R400): spilled says that it stands in the path-spill region (R401). -/
structure Path where
  pc    : Dword
  mask  : Lanes
  age   : Nat
  tok   : Nat
  wait  : Bool
  frame : Nat
  run   : Bool
  spilled : Bool
deriving DecidableEq, Repr

/-- A trap frame (R440), and the length in bytes of the instruction that trapped. -/
structure Frame where
  pc    : Dword
  rpc   : Dword
  cause : Word
  tm    : Lanes
  lmask : Dword
  aux0  : Dword
  aux1  : Dword
  len   : Nat
deriving DecidableEq, Repr

/-- A party's cause word (R450): bits 6:0, the code, and the numbers of the first two causes, 15 for none. -/
structure Cause where
  bits   : BitVec 8
  xlc    : BitVec 8
  first  : BitVec 4
  second : BitVec 4
deriving DecidableEq, Repr

/-- No cause (R450). -/
def Cause.none : Cause := { bits := 0, xlc := 0, first := 15, second := 15 }

/-- What the stop record holds of a fault (R93, R451). -/
structure FaultRec where
  xlc    : Nat
  pc     : Dword
  va     : Dword
  fent   : Dword
  aclass : Nat
  level  : Nat
  flane  : Nat
deriving DecidableEq, Repr

/-- What a release before an act of its own is for (R375, R388): an arrival on a barrier with its count, or a helper's
contributions. -/
inductive RelAct where
  | bar (n count : Nat) (don : Bool)
  | bara (n count : Nat)
  | join (vals : List (Nat × Word))
deriving DecidableEq, Repr

/-- What a crew at a wait point does when its condition holds, beside the acquire of R456; finish is the release that a
complete crew makes (R382). -/
inductive WaitOp where
  | waitc (sel : Nat)
  | seqChain (handle : Nat)
  | seqThaw
  | seqMem (acc : LaneAcc)
  | bbwait (acc : LaneAcc)
  | release (act : RelAct) (sent : Bool) (msgs : List Nat)
  | bar (n : Nat) (don : Bool)
  | barw (n : Nat)
  | syncw
  | hjoin
  | nqtake (acc : LaneAcc)
  | hdrain (heap : LaneAcc) (out : Dword) (keep : Bool) (stage count : Nat) (msgs : List Nat)
  | sqEntry (op : Nat)
  | freeze (stage entry base len : Nat) (pod : Bool) (msgs : List Nat)
  | promote (victim : Nat) (parts : List (Target × Nat)) (all : Bool) (stage : Nat) (msgs : List Nat)
  | grpdef (g : Nat) (del : Bool) (rec : Dword) (buf : List (Nat × List Byte × Bool))
  | crrel (pa : Nat) (del : Bool)
  | accz (tile : Nat) (f : LE)
  | dispatch
  | spawn
  | chain (handle : Nat)
  | yielded
  | finish (msgs : List Nat)
deriving DecidableEq, Repr

/-- A wait point in progress (R155, R456): the wake fields of the stop record, the scope of the acquire (8 for none),
the lanes and the designator it writes on wake, its instruction's PC and number; owed is what it writes
when its crew is restored, where its operation ended while the crew was evicted; leaf and level are those of the page its address
lies in (R93), and undo the registers that its instruction emptied at issue, which it holds again where it faults or traps. -/
structure Wait where
  kind  : Nat
  det   : Nat
  val   : Word
  addr  : Dword
  dst   : BitVec 9
  scope : Nat
  lanes : Lanes
  pc    : Dword
  num   : Nat
  op    : WaitOp
  owed  : Option (Option Word)
  leaf  : Dword := 0
  level : Nat := 0
  undo  : List (Nat × Reg) := []
deriving DecidableEq, Repr

/-- A speculative fence in progress (R201 to R203): lines are the lines, with their device, that loads past it touch, and read
those of them that one of these loads has read. -/
structure FenceRun where
  op        : Nat
  ns        : Bool
  scope     : Nat
  pc        : Dword
  issued    : Nat
  lines     : List (Nat × Nat)
  read      : List (Nat × Nat) := []
  conflict  : Bool
  rollbacks : Nat
deriving DecidableEq, Repr

/-- An acquire in progress (R148, R198): the loads and atomics it waits for, whether it holds only loads and atomics, and
whether it then invalidates the clean bytes of the L1 (R98). -/
structure Hold where
  ops    : List Nat
  narrow : Bool
  inval  : Bool
deriving DecidableEq, Repr

/-- A helper error waiting for the recruiter's HJOIN (R390). -/
structure HelpErr where
  iter  : Nat
  cls   : Nat
  sub   : Nat
  slot  : Nat
  lane  : Nat
deriving DecidableEq, Repr

/-- An open recruitment (R385 to R388): op numbers its RECRUIT; waiting holds the lanes granted that have not begun, with
their crews, in helper order. -/
structure Recruit where
  op      : Nat
  waiting : List (Nat × Nat)
  lane    : Nat
  oper    : Nat
  n       : Nat
  next    : Nat
  closed  : Bool
  body    : Dword
  groups  : List Nat
  contrib : NatMap Word
  errs    : List HelpErr
  flags   : BitVec 5
  fpctl   : Word
deriving DecidableEq, Repr

/-- A helper lane (R386): its helper number, its iteration, and whether it has begun one before. -/
structure HLane where
  lane  : Nat
  num   : Nat
  iter  : Option Nat
deriving DecidableEq, Repr

/-- What makes a crew record a helper group (R386): whose lanes it borrows and who recruited them. -/
structure HGroup where
  donor     : Nat
  recruiter : Nat
  lanes     : List HLane
  release   : Bool
deriving DecidableEq, Repr

/-- An ACCRD in flight (R336): its number, tile, start position, registers and acting lanes. -/
structure AccRead where
  op    : Nat
  pc    : Dword
  tile  : Nat
  pos   : Nat
  n     : Nat
  lanes : Lanes
deriving DecidableEq, Repr

/-- A vector crew, a helper group or a surveyor, with all the state R368, R386 and R317 give it. -/
structure Crew where
  core     : Nat
  crewid   : Nat
  ctx      : Nat
  w        : Nat
  nregs    : Nat
  surv     : Bool
  entry    : Dword
  launched : Lanes
  exited   : Lanes
  regs     : NatMap Reg
  preds    : NatMap Lanes
  ix       : NatMap (List Word)
  latches  : NatMap Reg
  oc       : NatMap Reg
  xdist    : Word
  xsel     : Word
  fpctl    : Word
  fpflags  : Word
  hcount   : Word
  origin   : Nat
  teamid   : Word
  teampos  : Nat
  grid     : Word × Word × Word
  team     : Nat
  dre      : Bool
  yreq     : Bool
  frames   : List Frame
  paths    : List Path
  lc       : Word × Word × Word
  cnts     : NatMap (List Cnt)
  cnts2    : NatMap (List Cnt)
  sq       : List SqEntry
  loads    : List LoadOp
  pends    : List Pend
  unacked  : List (Nat × List Nat)
  rwOps    : List (Nat × List Nat)
  hold     : Option Hold
  fence    : Option FenceRun
  wait     : Option Wait
  out      : Nat
  parent   : Option Nat
  recruit  : Option Recruit
  hgroup   : Option HGroup
  active   : Bool
  slotNo   : Nat
  issuedAt : Nat
  readyAt  : Nat
  loadSet  : Bool
  loadSlots : Nat
  loadHeld : Option Nat
  evicted  : Bool
  kept     : Bool
  done     : Bool
  cause    : Cause
  frec     : Option FaultRec
  helperFault : Option (Nat × Nat)
  accReads : List AccRead
  fbuf     : List (Nat × List Byte × Bool)
  /-- The instruction word that the crew's last turn has fetched, with its reserved bits (R46, R339). -/
  iword    : Dword := 0
deriving DecidableEq, Repr

/-- An L1 line's kind (R94): a replica names its freeze entry (R118); a partial names its die's range operator. -/
inductive LineKind where
  | ordinary
  | part (oper : Nat)
  | replica (entry : Nat)
deriving DecidableEq, Repr

/-- A store-queue tag (R141): the crew, its context and launch entry, the PC of the instruction, the address, and the leaf that
mapped it with its level (R93). -/
structure QTag where
  crew  : Nat
  ctx   : Nat
  entry : Dword
  pc    : Dword
  va    : Dword
  leaf  : Dword := 0
  level : Nat := 0
deriving DecidableEq, Repr

/-- An L1 line (R94): its physical line (a peer's carries the device above bit 37), owner, byte masks, kind, queue tag,
poisoned sectors (marks: those a store of this core marked; whole: those that one store has covered, R91), the crew that filled it (R433) and data; for a partial the valid mask marks the elements that are not empty. -/
structure Line where
  dev    : Nat
  ln     : Nat
  owner  : Nat
  valid  : BitVec 128
  dirty  : BitVec 128
  kind   : LineKind
  tag    : Option QTag
  poison : BitVec 4
  marks  : BitVec 4
  filler : Nat
  data   : List Byte
  whole  : BitVec 4 := 0
deriving DecidableEq, Repr

/-- A commutative range (R106, R107). -/
structure CRange where
  oper   : Nat
  base   : Nat
  len    : Nat
  owner  : Nat
  hbase  : Nat
  howner : Nat
  forced : Bool
deriving DecidableEq, Repr

/-- A spilled partial line (R109), oldest first in its die's pool. -/
structure Spill where
  core  : Nat
  line  : Line
deriving DecidableEq, Repr

/-- The states of a freeze entry that is not FREE (R114). -/
inductive FrzState where
  | freezing
  | frozen
  | thawing
deriving DecidableEq, Repr

/-- A freeze-table entry that is not FREE (R114, R124): acks are the devices yet to acknowledge the freeze (R116), asked
those yet to acknowledge collection (R121); retry says that its FREEZE faulted while it waited for acknowledgements and asks for
them again when it issues again (R349). -/
structure Freeze where
  base     : Nat
  len      : Nat
  pod      : Bool
  count    : Nat
  state    : FrzState
  acks     : List Nat
  presence : List Nat
  tseq     : Word
  stuck    : Bool
  asked    : List Nat
  retry    : Bool := false
deriving DecidableEq, Repr

/-- What a message to a home slice asks (R100, R108, R181, R311, R395). -/
inductive MsgKind where
  | writeBack (mask : BitVec 128) (data : List Byte) (poison whole : BitVec 4)
  | store (accs : List LaneAcc)
  | atom (wt : BitVec 3) (opc : BitVec 4) (ret : Bool) (accs : List LaneAcc)
  | hold
  | arrive (n : Nat) (acc : LaneAcc)
  | bbinit (expect : Word) (acc : LaneAcc)
  | nodePush (acc : LaneAcc) (k : Nat)
  | heapPush (acc : LaneAcc) (key : BitVec 16) (token : Word)
deriving DecidableEq, Repr

/-- A message on its way to a home: its number, its queue tag and instruction, the core it left, its line and owner, and whether the home has refused it and holds it (R144). -/
structure Msg where
  id    : Nat
  tag   : QTag
  op    : Nat
  core  : Nat
  ln    : Nat
  owner : Nat
  kind  : MsgKind
  held  : Option FaultRec
deriving DecidableEq, Repr

/-- A TLB entry (R84, R85): address-space number, virtual page, log2 of its size, and the leaf that mapped it. -/
structure TlbEntry where
  asn  : Nat
  page : Nat
  bits : Nat
  leaf : Dword
deriving DecidableEq, Repr

/-- A walk-cache entry (R78): address-space number, level, virtual index path, and the non-leaf entry. -/
structure WalkEntry where
  asn   : Nat
  level : Nat
  path  : Nat
  ent   : Dword
deriving DecidableEq, Repr

/-- A sealed tile of launch mode and its consumer (R397): its node and pool by their homes' addresses, the page, its records,
the node's NSEAL, and its number in the order of sealing. -/
structure Tile where
  node  : Nat
  pool  : Nat
  ctx   : Nat
  page  : Dword
  count : Nat
  nseal : Nat
  seq   : Nat
deriving DecidableEq, Repr

/-- A team (R368, R373): its context, launch, crews by TEAMPOS, their exits, and the barrier record. -/
structure Team where
  ctx    : Nat
  launch : Option Nat
  tile   : Option Tile
  pair   : Bool
  crews  : List Nat
  exited : List Nat
  done   : List Nat
  bars   : NatMap Dword
deriving DecidableEq, Repr

/-- A task record (R379), newest first in its core's deque. -/
structure Task where
  ctx    : Nat
  entry  : Dword
  arg    : Dword
  origin : Nat
  parent : Nat
deriving DecidableEq, Repr

/-- A launch message (R422) as its eight dwords; survs are its surveyors that run, started the clusters whose surveyor it has
started (R429). -/
structure Launch where
  queue    : Nat
  dws      : List Dword
  checked  : Bool
  next     : Nat
  ranges   : List (Nat × Nat × Nat)
  teams    : List Nat
  survs    : List Nat
  started  : List Nat
  drain    : Option (Nat × Nat)
  placed   : Bool
  status   : Nat
deriving DecidableEq, Repr

/-- A bound work queue (R420). -/
structure Queue where
  ctx    : Nat
  ident  : Nat
  caddr  : Dword
  priv   : Bool
  expseq : Word
  cseq   : Word
  msgs   : List Nat
  finished : List Word
deriving DecidableEq, Repr

/-- A page pool as its home keeps it (R505): the owner of its descriptor, the free pages (those listed and all from low
on), its flush count, and the nodes whose pushes wait for a page, in arrival order. -/
structure Pool where
  owner  : Nat
  base   : Dword
  npages : Nat
  low    : Nat
  free   : List Nat
  pflush : Word
  wait   : List Nat
deriving DecidableEq, Repr

/-- An operation that has reached a node's home and waits for its turn (R395): a push, by its message, or an expiry. -/
inductive NodeOp where
  | push (msg : Nat)
  | expiry (launch : Option Nat)
deriving DecidableEq, Repr

/-- A node as its home keeps it (R393 to R398): its context, address and owner, its pool, whether the timer runs, the
operations that have arrived, pressure expiries on their way, sealed tiles of take mode, pages taken, each with the pool that owns it. -/
structure Node where
  ctx    : Nat
  va     : Dword
  owner  : Nat
  pool   : Nat
  timer  : Bool
  ops    : List NodeOp
  press  : Nat
  sealed : List (Dword × Nat)
  taken  : List (Dword × Nat)
deriving DecidableEq, Repr

/-- A destination or source tile of an entry as its shape record gives it (R164). -/
structure ShapeRec where
  base    : Dword
  repmask : Nat
  group   : Nat
  rop     : Nat
  gdim    : Nat
  ndim    : Nat
  etype   : Nat
  dims    : List (Nat × Int)
  scale   : Dword
  coord   : Dword
deriving DecidableEq, Repr

/-- The chain entry being performed (R161 to R167): its header, its records, the destination ranks, the next element of
each rank, whether every beat has been performed, and how far its completion has come (R163). -/
structure Entry where
  kind   : Nat
  token  : Nat
  tclu   : Nat
  bbsig  : Bool
  bbaddr : Dword
  coll   : Bool
  dws    : List Dword
  src    : Option ShapeRec
  dst    : Option ShapeRec
  ranks  : List Nat
  prog   : List Nat
  done   : Bool
  count  : Nat
  phase  : Nat
deriving DecidableEq, Repr

/-- A bound chain slot (R158, R188): ready names the published sequence numbers, owners the crews of reserved ones, nops
those that R160 made NOP; buf is what the engine has read for the current entry, by virtual address; ids are its requests
that have not been answered, each with the unit of the current beat it carries; acked the units that their homes have
acknowledged, and units the destination addresses of that beat's units; back, backPhase and backCount are the progress by rank, the
completion step and the byte count that an entry goes on from after a resume (R188). -/
structure Chain where
  ctx     : Nat
  rbase   : Dword
  rsize   : Nat
  seqaddr : Dword
  wptr    : Word
  compseq : Word
  ready   : List Nat
  owners  : NatMap Nat
  nops    : List Nat
  cur     : Option Entry
  buf     : List (Nat × List Byte × Bool)
  ids     : List (Nat × Nat)
  acked   : List Nat
  units   : List Dword
  beats   : Nat
  mqGot   : Nat
  back    : List Nat
  backPhase : Nat
  backCount : Nat := 0
  step    : Option Word
  stopped : Option FaultRec
  xops    : List (Nat × Nat × Word)
deriving DecidableEq, Repr

/-- A tile descriptor (R320). -/
structure TileDesc where
  base   : Dword
  stride : Word
  rows   : Nat
  klen   : Nat
deriving DecidableEq, Repr

/-- A queued matrix instruction of a quadrant (R316, R339): its number, PC, instruction and word, the tile, the descriptors and the
SC registers as issued, its task, the first metadata entry reserved for it (R326), the next group and block, and the
elements that were NaN before it (R325). -/
structure QOp where
  id    : Nat
  pc    : Dword
  ins   : Instr
  raw   : Dword
  tile  : Nat
  da    : TileDesc
  db    : TileDesc
  sc    : List Word
  task  : Nat
  resv  : Nat
  block : Nat
  group : Nat
  nans  : List Nat
deriving DecidableEq, Repr

/-- A dependency-table entry (R331, R333): state 0 declared, 1 running, 2 awaiting completion. -/
structure Dep where
  entry  : Dword
  toks   : List Nat
  decl   : Nat
  state  : Nat
deriving DecidableEq, Repr

/-- A deferred completion (R332, R334): the table entry, its token word, its barrier, the PC of its TDONE, its task, the
store-queue entries it waits for, whether its arrival has been asked for and performed. -/
structure Deferred where
  dep    : Nat
  token  : Word
  bar    : Option Dword
  pc     : Dword
  task   : Nat
  sqOps  : List Nat
  stage  : Nat
  ids    : List Nat
deriving DecidableEq, Repr

/-- An accumulator tile that is ACTIVE: the words that are not zero, by position, and the poisoned positions. -/
structure AccTile where
  words  : NatMap Word
  poison : List Nat
deriving DecidableEq, Repr

/-- A line held in the operand buffer for a task (R322, R323), by virtual line; its place for the pins of a slice. -/
structure OLine where
  task : Nat
  vln  : Nat
  tgt  : Target
  owner : Nat
  data : List Byte
  poison : BitVec 4
deriving DecidableEq, Repr

/-- An ACCFREE that has not taken effect (R337): the crew and the ACCRDs it waits for, the tile and the queued
instructions it waits for. -/
structure AccFree where
  crew : Nat
  ops  : List Nat
  tile : Nat
  qids : List Nat
deriving DecidableEq, Repr

/-- A cluster's matrix engine as a context has it (R314 to R338): metadata entries by their number in the queue's stream,
with the numbers of the next to arrive and the next to reserve; the running task's table entry, number and first
operation; root is where TDONE.run continues while tasks run; fquad is the quadrant whose instruction met the last fault (R339). -/
structure Cluster where
  tiles   : NatMap AccTile
  tokens  : NatMap Nat
  dep     : NatMap Dep
  decl    : Nat
  mq      : NatMap (NatMap (List Byte))
  mqIn    : NatMap Nat
  mqResv  : NatMap Nat
  mstat   : Word
  quads   : NatMap (List QOp)
  obuf    : List OLine
  task    : Nat
  taskOp  : Nat
  running : Option Nat
  root    : Option Dword
  defer   : List Deferred
  accfree : List AccFree
  fquad   : Option Nat := none
deriving DecidableEq, Repr

/-- A defined group (R353 to R355). -/
structure Group where
  rstride : Dword
  exts    : List Nat
  timeout : Nat
  chain   : Nat
  ngd     : Nat
  map     : List Nat
  crbase  : Dword
  carea   : Dword
  casize  : Dword
  rank    : Option Nat
  gsig    : Word
  cstep   : Word
  steps   : Word
deriving DecidableEq, Repr

/-- One member's share of a collective step (R357 to R365): its header and destination record once its own entry is
performed; its own beats on the way to its reduction point and held there; the copies it keeps as a buddy; the partial
beats that wait here and those it has passed on; the beat from which it is silent and whether its beats came later; the
ranks and beats whose timeout has passed; the finished beats; for each destination rank the writes not acknowledged; and
the record, once the step has ended. -/
structure Coll where
  ctx    : Nat
  group  : Nat
  step   : Word
  hdr    : Option CollHdr
  shape  : Option ShapeRec
  fly    : List CollBeat
  own    : List CollBeat
  copies : List CollBeat
  parts  : List CollBeat
  passed : List CollBeat
  mute   : Option Nat
  late   : List Nat
  lapsed : List (Nat × Nat)
  result : List CollBeat
  waits  : List (Nat × Nat)
  dmiss  : List Nat
  record : Option (List Dword)
deriving DecidableEq, Repr

/-- A context (R460): its descriptor's sixteen dwords, its identity, and its halt line (R447 to R457);
own holds the causes that no crew's record carries: the debugger's, an engine's, and those of accesses of crews that are gone;
raiser is the crew that raised the line, where one did. -/
structure Ctx where
  ident    : Nat
  desc     : List Dword
  halted   : Bool
  cause    : Cause
  haltseq  : Word
  recorded : Bool
  own      : Cause
  raiser   : Option Nat := none
  yieldReq : Bool
  evicted  : Bool
  groups   : NatMap Group
  window   : Option (Dword × Nat)
  collClus : List Nat
  stopImage : List Byte
deriving DecidableEq, Repr

/-- A host-window request that waits for its reply (R473, R474), or, not sent yet, for a session to open; tag is its queue
tag, core and crewid name its crew, sess is the session that carried it, and held the fault with which it is held for a resume
(R144, R348). -/
structure HostReq where
  id    : Nat
  tag   : QTag
  reqid : Word
  ident : Nat
  ctx   : Nat
  crew  : Nat
  op    : Nat
  lane  : Nat
  write : Bool
  len   : Nat
  off   : Nat
  data  : List Byte
  sent  : Bool
  held  : Option FaultRec
  core   : Nat := 0
  crewid : Nat := 0
  sess   : Nat := 0
deriving DecidableEq, Repr

/-- A request to a peer that waits for its reply (R149, R345, R348): its queue tag, the fault with which it is held for
a resume (R144), and for an atomic the lanes whose old values the reply brings, in its order. -/
structure PeerReq where
  id    : Nat
  tag    : QTag
  dev   : Nat
  crew  : Nat
  op    : Nat
  lane  : Nat
  pa    : Nat
  owner : Nat
  what  : PeerOp
  held   : Option FaultRec
  lanes : List Nat := []
  /-- Whether the reply fills a line of the requester's L1. -/
  fill  : Bool := false
deriving DecidableEq, Repr

/-- What has left the device: the model's record of it. -/
inductive OutMsg where
  | peer (r : PeerReq)
  | reply (dev tag : Nat) (status : Nat) (data : List Byte) (entry : Option Nat)
  | freezeMsg (dev base len : Nat)
  | freezeAck (dev base len : Nat)
  | collect (dev entry : Nat)
  | collectAck (dev entry : Nat)
  | hostReq (ident : Nat) (bytes : List Byte)
  | completion (ident : Nat) (bytes : List Byte)
  | response (ident : Nat) (bytes : List Byte)
  | spdm (conn : Nat) (bytes : List Byte)
  | partialBeat (dev : Nat) (b : CollBeat)
  | copyBeat (dev : Nat) (b : CollBeat)
  | notice (dev : Nat) (n : CollNotice)
  | resultWrite (dev va : Nat) (bytes : List Byte)
deriving DecidableEq, Repr

/-- A session (R466), under its identity's number (the digest of its key): its slot, 0 to 7, the host root key its chain
ends in, the number of its next host-window request, the lowest sequence number that its port still accepts (R466), and the model's
number of it. -/
structure Session where
  slot   : Nat
  root   : Nat
  reqid  : Word
  rxseq  : Nat := 0
  num    : Nat := 0
deriving DecidableEq, Repr

/-- The header of a boot image (R484); rest are its dwords 2 to 7, which are ignored. -/
structure BootHdr where
  magic   : Word
  version : Word
  entry   : Word
  plen    : Word
  rest    : List Dword
  sig     : BitVec 512
deriving DecidableEq, Repr

/-- The root-of-trust block and the management core's boot state (R480 to R492); conns holds the SPDM connections with
how far each has come (1 negotiated, 2 keys exchanged, 3 session open) and its session's identity; hbeat is the time of the
last HBEAT; image is the header of the firmware image in boot flash (R484); rng is what the last read of RNG returned (R482), and
entered the address where the first-stage boot has entered the firmware (R484). -/
structure Rot where
  hsrc   : Dword
  hlen   : Dword
  hbusy  : Bool
  herr   : Bool
  hdig   : BitVec 512
  ekey   : Dword
  esig   : Dword
  emsg   : Dword
  emlen  : Dword
  ebusy  : Bool
  evalid : Bool
  ekeymode : Bool
  etarget : Option Nat
  meas   : NatMap (BitVec 512)
  lcf    : BitVec 8
  lcfNext : BitVec 8
  lcs    : BitVec 8
  kbusy  : Bool
  wiped  : Bool
  kerr   : Bool
  dbg    : Bool
  dbgLock : Bool
  rxlen  : Dword
  txlen  : Dword
  rxbuf  : List (Nat × Byte)
  txbuf  : List (Nat × Byte)
  sram   : List (Nat × Byte)
  rngs   : Nat
  aliasGen : Nat
  boot   : Nat
  warm   : Bool
  die    : Nat
  conns  : NatMap (Nat × Option Nat)
  hbeat  : Nat
  image  : BootHdr
  rng    : Dword
  entered : Option Dword
deriving DecidableEq, Repr

/-- The error counters and logs of control blocks 1 and 4 (R478, R479). -/
structure Logs where
  cmddone  : Nat
  porterr0 : Dword
  porterr1 : Dword
  qerr     : NatMap Dword
  cmdlog   : NatMap (List Dword)
  counts   : NatMap Dword
  evcount  : Nat
  events   : NatMap (List Dword)
deriving DecidableEq, Repr

/-- Main memory at the homes (R79, R87, R88, R91): the bytes written, as address and plaintext under the key of their 16-byte
block's last writer, strictly rising; that owner and key generation for each block written; the poisoned 32-byte sectors. An
address that is not listed has no byte of its own: it reads as the key's decryption of all-zero ciphertext. -/
structure Memory where
  cells  : List Host.Cell
  keys   : NatMap (Nat × Nat)
  poison : NatMap Unit
deriving DecidableEq, Repr

/-- The state of the units that a snapshot copies and the readback window shows (R463, R464). -/
structure Units where
  crews    : NatMap Crew
  l1s      : NatMap (List Line)
  mem      : Memory
  spills   : NatMap (List Spill)
  clusters : NatMap Cluster
  chains   : NatMap Chain
  freezes  : NatMap Freeze
  ranges   : NatMap (NatMap CRange)
  ctxs     : NatMap Ctx
  queues   : NatMap Queue
  launches : NatMap Launch
  tlbs     : NatMap (List TlbEntry)
  walks    : NatMap (List WalkEntry)
deriving DecidableEq, Repr

/-- Snapshot control, the readback selectors of both dies, and the snapshot registers that the last latch has filled (R463, R464). -/
structure Snap where
  gen     : Word
  halten  : Bool
  pinen   : Bool
  progen  : Bool
  arm     : Bool
  pending : Bool
  rbsel0  : Dword
  rbsel1  : Dword
  copy    : Units
deriving DecidableEq, Repr

/-- A management command's datagram without its header (R469, R471): the code, its 8-byte operands and its byte string. -/
structure CmdOp where
  code : Nat
  ops  : List Nat
  str  : List Byte
deriving DecidableEq, Repr

/-- A TLBINV that the management core has begun (R86, R470): its header, its session's slot and its operands. -/
structure TlbCmd where
  hdr  : CmdHdr
  slot : Nat
  asn  : Nat
  va   : Dword
  len  : Dword
deriving DecidableEq, Repr

/-- A CTXCREATE whose chain list is still being read (R461, R504): its header, its session's slot, the descriptor, what has been read by
address, and whether a read has failed. -/
structure CreateCmd where
  hdr  : CmdHdr
  slot : Nat
  desc : List Dword
  buf  : List (Nat × List Byte × Bool)
  bad  : Bool
deriving DecidableEq, Repr

/-- An error in a protected store, with what it has made wrong: 16-bit symbols of an HBM sector (R90), or bits of one code word
(R462): an element of a register, an operand-cache entry or a latch, an accumulator word, or 8 bytes in a sector of an L1 line, of
an L2 slice or of an operand buffer. -/
inductive EccErr where
  | hbm (pa : Nat) (wrong : List Nat)
  | elem (crew : Nat) (d : Dst) (lane : Nat) (wrong : List Nat)
  | acc (key tile pos : Nat) (wrong : List Nat)
  | l1 (core i sector : Nat) (wrong : List Nat)
  | l2 (pa : Nat) (wrong : List Nat)
  | obuf (key i sector : Nat) (wrong : List Nat)
deriving DecidableEq, Repr

/-- Whose turn it is: a crew's partition, which issues; an indivisible step of another agent; a command whose datagram its port
has accepted; a bit error, which comes from outside the machine (R90, R462); or that a THAWFORCE elsewhere in the pod has named this
device (R477). -/
inductive Turn where
  | crew (id : Nat)
  | act (i : Instr)
  | queued (hdr : CmdHdr) (op : CmdOp)
  | ecc (e : EccErr)
  | forced
deriving DecidableEq, Repr

/-- The whole device. -/
structure State where
  agenda   : List Turn
  focus    : Nat
  free     : Nat
  opSeq    : Nat
  outbox   : List OutMsg
  clk      : Nat
  devnum   : Nat
  podsize  : Nat
  gzgen    : Word
  gzcla    : Dword
  gzcore   : NatMap Dword
  gzslice  : NatMap Nat
  powerLimit : Nat
  power    : Nat
  ualLanes : NatMap Nat
  ualPeers : NatMap (List Nat)
  ueLanes  : NatMap Nat
  hostUp   : Nat
  d2dUp    : Bool
  crcFails : Nat
  mem      : Memory
  keyGen   : NatMap Nat
  tlbs     : NatMap (List TlbEntry)
  walks    : NatMap (List WalkEntry)
  l1s      : NatMap (List Line)
  victims  : NatMap (List (Nat × Nat × Nat))
  lastIssue : NatMap Nat
  lost     : NatMap Nat
  loadLim  : NatMap Nat
  ranges   : NatMap (NatMap CRange)
  spills   : NatMap (List Spill)
  freezes  : NatMap Freeze
  heaps    : NatMap Nat
  thawNext : Word
  thawOpen : List (Word × Bool)
  thawDone : Word
  net      : List Msg
  acks     : List (Nat × Nat × Nat)
  peerReqs : List PeerReq
  hostReqs : List HostReq
  atomHist : NatMap (List (Nat × List Dword))
  crews    : NatMap Crew
  fenceShots : NatMap Crew
  teams    : NatMap Team
  deques   : NatMap (List Task)
  queues   : NatMap Queue
  launches : NatMap Launch
  rr       : NatMap Nat
  pools    : NatMap Pool
  nodes    : NatMap Node
  sealedQ  : List Tile
  chains   : NatMap Chain
  clusters : NatMap Cluster
  ctxs     : NatMap Ctx
  colls    : List Coll
  endpoints : NatMap (List Byte)
  linkKeys : NatMap (List Byte)
  sessions : NatMap Session
  admitted : Bool
  tlbWait  : Option TlbCmd
  ctxWait  : Option CreateCmd
  cmds     : List (CmdHdr × CmdOp)
  logs     : Logs
  snap     : Snap
  rot      : Rot
deriving DecidableEq, Repr

/-- Why a step stops with a fault. A fault of the device raises a halt line and is a next state (R447). -/
inductive Fault where
  /-- Raised by nothing: the spec describes what every fault of the device leaves, so each is a next state. Safe. -/
  | unused
deriving DecidableEq, Repr

/-- Why the model refuses a step. -/
inductive Refusal where
  /-- Raised by an arm of exec whose instruction has no meaning yet. Safe. -/
  | notModelled (mnemonic : String)
  /-- Raised by an instruction's meaning when the focus of State names no crew: no party of the machine executes it
  (the model's own case, log entry 1). Safe. -/
  | noCrew
deriving DecidableEq, Repr

/-- The outcome of a step of the model. -/
abbrev Out := Host.Outcome State Fault Refusal

/-- Memory right after boot (R90): no line written since. -/
def Memory.reset : Memory := { cells := [], keys := [], poison := [] }

/-- No unit's state. -/
def Units.empty : Units :=
  { crews := [], l1s := [], mem := Memory.reset, spills := [], clusters := [], chains := [], freezes := [], ranges := [], ctxs := [],
    queues := [], launches := [], tlbs := [], walks := [] }

/-- The header of the firmware image that the part's boot flash holds (R484). Log entry 121. -/
def BootHdr.shipped : BootHdr :=
  { magic := 0x335A5844, version := Config.imageVersion, entry := Config.imageEntry, plen := Config.imagePlen,
    rest := (List.range 6).map Config.imageRest, sig := Config.imageSig }

/-- The digest of the payload, PLEN bytes, of the image that boot flash holds (R484). -/
def BootHdr.digest (h : BootHdr) : BitVec 512 := Config.sha512 ((List.range h.plen.toNat).map Config.imageByte)

/-- Where the payload's ENTRY lies once the image is in SRAM, its payload after the 128 bytes of its header (R484). -/
def BootHdr.entryAt (h : BootHdr) : Dword := 0x1000080 + h.entry.setWidth 64

/-- The root-of-trust block of a die at power-on (R482): its registers at the values of its map, no boot step done. -/
def Rot.powered (die : Nat) (lcf : BitVec 8) (image : BootHdr) : Rot :=
  { hsrc := 0, hlen := 0, hbusy := false, herr := false, hdig := 0, ekey := 0, esig := 0, emsg := 0, emlen := 0,
    ebusy := false, evalid := false, ekeymode := false, etarget := none, meas := [], lcf := lcf, lcfNext := lcf, lcs := lcf,
    kbusy := false, wiped := false, kerr := false, dbg := false, dbgLock := false, rxlen := 0, txlen := 0, rxbuf := [], txbuf := [],
    sram := [], rngs := 0, aliasGen := 0, boot := 0, warm := false, die := die, conns := [], hbeat := 0, image := image, rng := 0,
    entered := none }

/-- The same when the dies are released (R482, R483): boot step 7 done, WARM set; the firmware's three measurements are extended, the
last hash is the engine firmware's and the last verify was valid. The registers that the boot program leaves with values the spec
does not give hold their power-on values here (log entry 20). -/
def Rot.booted (die : Nat) (lcf : BitVec 8) : Rot :=
  { Rot.powered die lcf BootHdr.shipped with
    hdig := Config.bootMeas die 3, evalid := true,
    meas := [(1, BootHdr.shipped.digest), (2, Config.bootMeas die 2), (3, Config.bootMeas die 3)], aliasGen := 2, boot := 7, warm := true,
    entered := some BootHdr.shipped.entryAt }

/-- The device right after reset: power-on, boot repair and release of the dies done, no context, no crew. -/
def State.reset : State :=
  { agenda := [], focus := 0, free := 0, opSeq := 0, outbox := [], clk := 0, devnum := 0, podsize := 1, gzgen := 0,
    gzcla := 0xFFFFFFFFFFFFFFFF, gzcore := [], gzslice := [], powerLimit := 2100, power := 0,
    ualLanes := [], ualPeers := [], ueLanes := [], hostUp := 3, d2dUp := true, crcFails := 0, mem := Memory.reset, keyGen := [],
    tlbs := [], walks := [], l1s := [], victims := [], lastIssue := [], lost := [], loadLim := [], ranges := [], spills := [],
    freezes := [], heaps := [], thawNext := 1, thawOpen := [], thawDone := 0, net := [], acks := [], peerReqs := [], hostReqs := [],
    atomHist := [], crews := [], fenceShots := [], teams := [], deques := [], queues := [], launches := [], rr := [],
    pools := [], nodes := [], sealedQ := [], chains := [], clusters := [], ctxs := [], colls := [], endpoints := [],
    linkKeys := [], sessions := [], admitted := false, tlbWait := none, ctxWait := none, cmds := [],
    logs := { cmddone := 0, porterr0 := 0, porterr1 := 0, qerr := [], cmdlog := [], counts := [], evcount := 0,
              events := [] },
    snap := { gen := 0, halten := false, pinen := false, progen := false, arm := false, pending := false, rbsel0 := 0,
              rbsel1 := 0, copy := Units.empty },
    rot := Rot.booted 0 Config.lcf }

end Sys2Proof.Machine

namespace Sys2Proof.Config

/-- A word of a readback page (R464): a function of the selector, the offset and the unit's state, whose layout the spec leaves to
the part. Log entry 24. -/
opaque readback : (sel : Dword) → (off : Nat) → Machine.Units → Dword

end Sys2Proof.Config
end

