-- ==== Sys2Proof/Machine/Memory.lean ====
section
/-!
DEFINITION. Main memory at the homes: owners and keys (R87, R88), poison (R91), homes (R82), page walks and TLBs (R75 to
R86), permission and kind checks (R80, R83, R92).
-/

namespace Sys2Proof.Machine

/-- The entries of memory are strictly rising in address and every written cell's block has a recorded key. -/
def Memory.wf (m : Memory) : Bool :=
  msorted m.cells && msorted m.keys && msorted m.poison && m.cells.all (fun c => (mget m.keys (c.1 / 16)).isSome)

/-- The key an owner number names now: its number and how often it has been replaced (R87). -/
def State.keyOf (s : State) (owner : Nat) : Nat × Nat := (owner, mgetD s.keyGen owner 0)

/-- A block's plaintext under a key where its ciphertext is all zero (R88, R90). -/
def blankBlock (k : Nat × Nat) (blk : Nat) : List Byte := xtsDec k blk (leBytes 16 0)

/-- A byte under the key its block was last written under: the byte written, or the decryption of zero ciphertext. -/
def Memory.plain (m : Memory) (k : Nat × Nat) (pa : Nat) : Byte :=
  match mget m.cells pa with
  | some b => b
  | none => (blankBlock k (pa / 16)).getD (pa % 16) 0

/-- The byte of HBM that a read under a key gives (R88): where the block was last written under another key, the decryption of
that key's ciphertext. -/
def Memory.byte (m : Memory) (k : Nat × Nat) (pa : Nat) : Byte :=
  match mget m.keys (pa / 16) with
  | none => (blankBlock k (pa / 16)).getD (pa % 16) 0
  | some t =>
    if t = k then m.plain k pa
    else
      (xtsDec k (pa / 16) (xtsEnc t (pa / 16) ((List.range 16).map (fun i => m.plain t (pa / 16 * 16 + i))))).getD (pa % 16) 0

/-- The byte of HBM at a local physical address as an owner reads it. -/
def State.homeByte (s : State) (owner pa : Nat) : Byte := s.mem.byte (s.keyOf owner) pa

/-- n bytes of HBM as an owner reads them. -/
def State.homeRead (s : State) (owner pa n : Nat) : List Byte :=
  (List.range n).map (fun i => s.homeByte owner (pa + i))

/-- Makes a block a key's (R88): one last written under another key keeps the bytes this key reads from it. The controller
re-encrypts the whole line under the writer's key, which gives the ciphertext back that stood in each block the write does not
touch: such a block stays as it is. -/
def Memory.claim (m : Memory) (k : Nat × Nat) (blk : Nat) : Memory :=
  match mget m.keys blk with
  | none => { m with keys := mput m.keys blk k }
  | some t =>
    if t = k then m
    else
      { m with
        keys := mput m.keys blk k
        cells := (List.range 16).foldl (fun c i => mput c (16 * blk + i) (m.byte k (16 * blk + i))) m.cells }

/-- Writes one byte under a key. -/
def Memory.put (m : Memory) (k : Nat × Nat) (pa : Nat) (b : Byte) : Memory :=
  let m1 := m.claim k (pa / 16)
  { m1 with cells := mput m1.cells pa b }

/-- The bytes of one write as address and value pairs, from the bytes a mask lets through. -/
def maskedCells (pa : Nat) (bs : List (Option Byte)) : List Host.Cell :=
  bs.zipIdx.filterMap (fun e => e.1.map (fun b => (pa + e.2, b)))

/-- Whether every byte of a 32-byte sector is among the cells. -/
def coversSector (cs : List Host.Cell) (sec : Nat) : Bool :=
  (List.range 32).all (fun i => cs.any (fun c => c.1 == 32 * sec + i))

/-- A store that writes a byte of PBASE or NPAGES resets its pool (R505): every page is free, FREE is NPAGES, PFLUSH stays. -/
def State.poolStores (s : State) (owner : Nat) (cs : List Host.Cell) : State :=
  s.pools.foldl (fun (s : State) e =>
    if cs.any (fun c => (decide (e.1 ≤ c.1 ∧ c.1 < e.1 + 8)) || decide (e.1 + 12 ≤ c.1 ∧ c.1 < e.1 + 16)) then
      let n := leNat (s.homeRead e.2.owner (e.1 + 12) 4)
      let p : Pool := { e.2 with base := BitVec.ofNat 64 (leNat (s.homeRead e.2.owner e.1 8)), npages := n, low := 0, free := [] }
      let cells := maskedCells (e.1 + 8) ((leBytes 4 n).map some)
      { s with pools := mput s.pools e.1 p
               mem := cells.foldl (fun m c => m.put (s.keyOf owner) c.1 c.2) s.mem }
    else s) s

/-- Performs one write at the homes: the bytes under the owner's key (R88); a sector wholly covered loses its poison
(R91); a poisoned write marks the sectors it touches (R240, R462). -/
def State.homeWrite (s : State) (owner : Nat) (cs : List Host.Cell) (poisoned : Bool) : State :=
  let k := s.keyOf owner
  let m := cs.foldl (fun m c => m.put k c.1 c.2) s.mem
  let secs := (cs.map (fun c => c.1 / 32)).eraseDups
  let p := secs.foldl (fun p sec => if poisoned then mput p sec () else if coversSector cs sec then mdel p sec else p)
             m.poison
  ({ s with mem := { m with poison := p } } : State).poolStores owner cs

/-- Whether any of n bytes from pa lies in a poisoned sector (R91). -/
def State.poisoned (s : State) (pa n : Nat) : Bool :=
  (List.range n).any (fun i => (mget s.mem.poison ((pa + i) / 32)).isSome)

/-- Whether n bytes from pa lie in local HBM (R79). -/
def inHbm (pa n : Nat) : Bool := decide (pa + n ≤ Config.hbmBytes)

/-- The die that homes an HBM address (R82). -/
def homeDie (pa : Nat) : Nat := if pa < 0x4000000000 then 0 else 1

/-- Whether a die reaches an HBM address (R343). -/
def State.reach (s : State) (die pa : Nat) : Bool := s.d2dUp || die == homeDie pa

/-- The home slice of an HBM address, 0 to 127 over both dies (R82). -/
def homeSlice (pa : Nat) : Nat :=
  let f := fun (lo : Nat) => pa >>> lo % 64
  (if pa < 0x4000000000 then 0 else 64) + (f 7 ^^^ f 13 ^^^ f 19)

/-- A dword of a context's descriptor (R460). -/
def Ctx.dw (c : Ctx) (i : Nat) : Dword := c.desc.getD i 0
def Ctx.ptbase (c : Ctx) : Nat := bits (c.dw 0) 16 28 <<< 16
def Ctx.ptown (c : Ctx) : Nat := bits (c.dw 0) 48 8
def Ctx.wdog (c : Ctx) : Nat := bits (c.dw 1) 32 16
def Ctx.tslice (c : Ctx) : Nat := bits (c.dw 1) 16 16
def Ctx.cpart (c : Ctx) : Nat := bits (c.dw 1) 12 4
def Ctx.asn (c : Ctx) : Nat := bits (c.dw 1) 0 10
def Ctx.stopsize (c : Ctx) : Nat := bits (c.dw 2) 48 16
def Ctx.stoppa (c : Ctx) : Nat := bits (c.dw 2) 0 44
def Ctx.saveva (c : Ctx) : Dword := c.dw 3
def Ctx.csaveva (c : Ctx) : Dword := c.dw 9
def Ctx.savestride (c : Ctx) : Nat := bits (c.dw 4) 0 16
def Ctx.tentry (c : Ctx) : Dword := c.dw 5
def Ctx.tsentry (c : Ctx) : Dword := c.dw 6

/-- What a failed translation reports (R93): the XLC, the table level, the last entry read. -/
structure XFail where
  xlc   : Nat
  level : Nat
  ent   : Dword
  /-- Whether the read of a page-table entry failed. -/
  walk  : Bool := false
deriving DecidableEq, Repr

/-- The class of what failed (R83, R452): an access of a class, or the read of a table entry. -/
def XFail.cls (x : XFail) (n : Nat) : Nat := if x.walk then 5 else n

/-- Fields of a page-table entry (R76). -/
def pteV (e : Dword) : Bool := e.getLsbD 0
def pteLeaf (e : Dword) : Bool := e.getLsbD 1
def pteR (e : Dword) : Bool := e.getLsbD 2
def pteW (e : Dword) : Bool := e.getLsbD 3
def pteX (e : Dword) : Bool := e.getLsbD 4
def pteKind (e : Dword) : Nat := bits e 5 2
def pteOwner (e : Dword) : Nat := bits e 8 8

/-- The index into the table of a level (R75, R77). -/
def walkIdx (va : Dword) (lvl : Nat) : Nat :=
  if lvl = 0 then bits va 55 2 else bits va (42 - 13 * (lvl - 1)) 13

/-- log2 of the size of a page whose leaf stands at a level (R77). -/
def pageBits (lvl : Nat) : Nat := 16 + 13 * (3 - lvl)

/-- One access class' permission check on a leaf (R83). -/
def permCheck (acc : Acc) (e : Dword) : Option Nat :=
  match acc with
  | .fetch => if pteX e then none else some 6
  | .load | .plotter | .txeRead | .range => if pteR e then none else some 4
  | .store | .txeWrite | .save => if pteW e then none else some 5
  | .atomic | .txeReduce | .holder => if !pteR e then some 4 else if pteW e then none else some 5

/-- Whether an access is one that KIND 10 and 11 pages refuse, and with which XLC (R150, R322). -/
def kindRefused (acc : Acc) : Option Nat :=
  match acc with
  | .atomic | .txeReduce => some 13
  | .plotter => some 16
  | _ => none

/-- The kind check (R80, R81, R150, R322): where the access goes, or the XLC of its fault. A KIND 11 page that lies partly in control
block 0 is judged by the address accessed (log entry 110). -/
def State.kindCheck (s : State) (ctx : Nat) (acc : Acc) (e : Dword) (pa : Nat) : Except Nat Target :=
  let loc := pa % 2 ^ 44
  match pteKind e with
  | 0 => if inHbm loc 1 then .ok (.hbm loc) else .error 7
  | 1 =>
    let dev := pa / 2 ^ 44
    if s.podsize ≤ dev then .error 8
    else if dev = s.devnum then (if inHbm loc 1 then .ok (.hbm loc) else .error 7)
    else .ok (.peer dev loc)
  | 2 =>
    match kindRefused acc with
    | some x => .error x
    | none =>
      match (mget s.ctxs ctx).bind (·.window) with
      | some (_, size) => if pa < size then .ok (.host pa) else .error 7
      | none => .error 7
  | _ =>
    match kindRefused acc with
    | some x => .error x
    | none => if loc / 2 ^ 28 = 0xF000 then .ok (.gaz (loc % 2 ^ 28)) else .error 9

/-- The walk from a level on (R77), fuel the levels left. It reads each entry at its home under the owner of the table,
or takes a non-leaf entry from the die's walk cache (R78); an entry on the other die is read over the link (R343, R350). It answers
the leaf, its level and the non-leaf entries. -/
def State.walkFrom (s : State) (die asn : Nat) (va : Dword) (fuel lvl tbl own : Nat) (seen : List WalkEntry) :
    Except XFail (Dword × Nat × List WalkEntry) :=
  match fuel with
  | 0 => .error { xlc := 3, level := lvl, ent := 0 }
  | f + 1 =>
    let pa := tbl + 8 * walkIdx va lvl
    let path := (va.toNat % 2 ^ 57) >>> pageBits lvl
    let cached := (mgetD s.walks die []).find? (fun w => w.asn == asn && w.level == lvl && w.path == path)
    let e := match cached with
      | some w => w.ent
      | none => BitVec.ofNat 64 (leNat (s.homeRead own pa 8))
    if cached.isNone && !s.reach die pa then .error { xlc := 17, level := lvl, ent := (seen.head?.map (·.ent)).getD 0, walk := true }
    else if cached.isNone && s.poisoned pa 8 then .error { xlc := 10, level := lvl, ent := e, walk := true }
    else if !pteV e then .error { xlc := 2, level := lvl, ent := e }
    else if lvl == 3 || pteLeaf e then
      if lvl = 0 then .error { xlc := 3, level := 0, ent := e } else .ok (e, lvl, seen)
    else
      let nxt := bits e 16 28 <<< 16
      if pteKind e ≠ 0 ∨ !inHbm nxt 1 then .error { xlc := 3, level := lvl, ent := e }
      else s.walkFrom die asn va f (lvl + 1) nxt (pteOwner e) ({ asn := asn, level := lvl, path := path, ent := e } :: seen)

/-- A whole walk for a context (R77). -/
def State.walk (s : State) (die ctx : Nat) (va : Dword) : Except XFail (Dword × Nat × List WalkEntry) :=
  match mget s.ctxs ctx with
  | none => .error { xlc := 2, level := 0, ent := 0 }
  | some c => s.walkFrom die c.asn va 4 0 c.ptbase c.ptown []

/-- The TLBs that serve a requester, nearest first (R84): cores are 0 to 255, cluster L2 TLBs 256 to 319, engines 320 to
351; each with its capacity. -/
def tlbChain (unit : Nat) : List (Nat × Nat) :=
  if unit < 256 then [(unit, 64), (256 + unit / 4, 2048)]
  else if unit < 320 then [(unit, 2048)]
  else [(unit, 32)]

/-- The die a translation unit stands on. -/
def unitDie (unit : Nat) : Nat :=
  if unit < 256 then unit / 128 else if unit < 320 then (unit - 256) / 32 else (unit - 320) / 16

/-- Whether a TLB entry translates an address of an address space. -/
def TlbEntry.hits (t : TlbEntry) (asn : Nat) (va : Dword) : Bool := t.asn == asn && va.toNat >>> t.bits == t.page

/-- The first hit among a requester's TLBs. -/
def State.tlbFind (s : State) (unit asn : Nat) (va : Dword) : Option TlbEntry :=
  (tlbChain unit).findSome? (fun u => (mgetD s.tlbs u.1 []).find? (·.hits asn va))

/-- Puts an entry into a requester's TLBs, the oldest leaving a full one (log entry 10). -/
def State.tlbFill (s : State) (unit : Nat) (t : TlbEntry) : State :=
  (tlbChain unit).foldl (fun s u =>
    let old := (mgetD s.tlbs u.1 []).filter (fun x => !(x.asn == t.asn && x.page == t.page && x.bits == t.bits))
    let old := if old.length < u.2 then old else old.drop 1
    { s with tlbs := mput s.tlbs u.1 (old ++ [t]) }) s

/-- Takes an address' entries out of a requester's TLBs (R85). -/
def State.tlbDrop (s : State) (unit asn : Nat) (va : Dword) : State :=
  (tlbChain unit).foldl (fun s u => { s with tlbs := mmod s.tlbs u.1 (fun l => l.filter (fun x => !x.hits asn va)) }) s

/-- The physical address a leaf gives (R77). -/
def leafPa (e : Dword) (bs : Nat) (va : Dword) : Nat :=
  ((bits e 16 38 <<< 16) >>> bs) <<< bs + va.toNat % 2 ^ bs

/-- What a completed translation answers: where the access goes, under which owner, and the leaf. -/
structure Xlate where
  tgt   : Target
  owner : Nat
  leaf  : Dword
  level : Nat
deriving DecidableEq, Repr

/-- Permission, then kind, on a leaf (R77, R92). -/
def State.leafCheck (s : State) (ctx : Nat) (acc : Acc) (e : Dword) (lvl : Nat) (va : Dword) : Except XFail Xlate :=
  match permCheck acc e with
  | some x => .error { xlc := x, level := lvl, ent := e }
  | none =>
    match s.kindCheck ctx acc e (leafPa e (pageBits lvl) va) with
    | .error x => .error { xlc := x, level := lvl, ent := e }
    | .ok t => .ok { tgt := t, owner := pteOwner e, leaf := e, level := lvl }

/-- Walks for an address and fills the requester's TLBs and the walk cache with what was found valid (R78, R85). -/
def State.walkFill (s : State) (unit ctx : Nat) (va : Dword) (acc : Acc) : State × Except XFail Xlate :=
  match s.walk (unitDie unit) ctx va with
  | .error x => (s, .error x)
  | .ok (e, lvl, seen) =>
    let asn := ((mget s.ctxs ctx).map (·.asn)).getD 0
    let die := unitDie unit
    let s1 := { s with walks := mput s.walks die (seen.filter (fun w => !(mgetD s.walks die []).contains w) ++
                mgetD s.walks die []) }
    match s.leafCheck ctx acc e lvl va with
    | .error x => (s1, .error x)
    | .ok x => (s1.tlbFill unit { asn := asn, page := va.toNat >>> pageBits lvl, bits := pageBits lvl, leaf := e }, .ok x)

/-- Translates one address for an access (R75 to R85, R92). A hit in the cluster's L2 TLB does not refill the core's L1 TLB (log
entry 110). -/
def State.translate (s : State) (unit ctx : Nat) (va : Dword) (acc : Acc) : State × Except XFail Xlate :=
  if va.toNat / 2 ^ 57 ≠ 0 then (s, .error { xlc := 1, level := 0, ent := 0 })
  else
    let asn := ((mget s.ctxs ctx).map (·.asn)).getD 0
    match s.tlbFind unit asn va with
    | none => s.walkFill unit ctx va acc
    | some t =>
      match s.leafCheck ctx acc t.leaf (3 - (t.bits - 16) / 13) va with
      | .ok x => (s, .ok x)
      | .error _ => (s.tlbDrop unit asn va).walkFill unit ctx va acc

/-- Whether an access is translated without a walk: a TLB holds its page and lets it through, or its address names none (R75,
R84). -/
def State.noWalk (s : State) (unit ctx : Nat) (va : Dword) (acc : Acc) : Bool :=
  decide (va.toNat / 2 ^ 57 ≠ 0) ||
  match s.tlbFind unit (((mget s.ctxs ctx).map (·.asn)).getD 0) va with
  | none => false
  | some t => match s.leafCheck ctx acc t.leaf (3 - (t.bits - 16) / 13) va with | .ok _ => true | .error _ => false

end Sys2Proof.Machine
end

