-- ==== Sys2Proof/Machine/Ops.lean ====
section
/-!
DEFINITION. The operations on a crew that every meaning shares: registers and shape tags (R212 to R217), the upper depths
and lookahead windows (R26, R219 to R222), in-flight counters (R153), paths (R400 to R409), taking a trap and returning
from one (R439, R444), and raising a fault (R436, R447).
-/

namespace Sys2Proof.Machine

/-- Lanes launched and not exited: the set C of R215. -/
def Crew.live (c : Crew) : Lanes := c.launched &&& ~~~c.exited

/-- The word of a register in a lane (R212); an empty register reads 0. -/
def Shape.at (sh : Shape) (l : Nat) : Word :=
  match sh with
  | .u w => w
  | .a b st => b + BitVec.ofNat 32 l * st
  | .g ws => ws.getD l 0

def regAt (r : Option Reg) (l : Nat) : Word :=
  match r with
  | none => 0
  | some r => r.shape.at l

/-- The poison marks of a register; an empty one has none. -/
def regPoison (r : Option Reg) : Lanes :=
  match r with
  | none => 0
  | some r => r.poison

/-- The shape tag code of a register (R212). -/
def shapeCode (r : Option Reg) : Nat :=
  match r with
  | none => 3
  | some r => match r.shape with | .u _ => 0 | .a _ _ => 1 | .g _ => 2

/-- In a crew of width 1 a value that would be G is stored as U (R212). -/
def normShape (w : Nat) (sh : Shape) : Shape :=
  if w = 1 then .u (sh.at 0) else sh

/-- R215: what a destination holds after an instruction acts in some lanes. sh is the result with its natural shape. -/
def writeShape (w : Nat) (old : Option Reg) (live act : Lanes) (sh : Shape) (poison : Lanes) : Option Reg :=
  if act = 0 then old
  else if live &&& ~~~act = 0 then some { shape := normShape w sh, poison := poison &&& act }
  else
    let oldR : Reg := old.getD { shape := .u 0, poison := 0 }
    let mix : Lanes := (oldR.poison &&& ~~~act) ||| (poison &&& act)
    if oldR.shape = normShape w sh then some { oldR with poison := mix }
    else
      some { shape := normShape w (.g ((List.range w).map (fun l => if act.getLsbD l then sh.at l else oldR.shape.at l))),
             poison := mix }

/-- Puts a register, an empty one leaving the map. -/
def putReg (m : NatMap Reg) (n : Nat) (r : Option Reg) : NatMap Reg :=
  match r with
  | none => mdel m n
  | some r => mput m n r

/-- Writes a register under R215. -/
def Crew.writeReg (c : Crew) (n : Nat) (act : Lanes) (sh : Shape) (poison : Lanes) : Crew :=
  { c with regs := putReg c.regs n (writeShape c.w (mget c.regs n) c.live act sh poison) }

/-- Writes an operand-cache entry (R221): an invalid entry counts as U zero. -/
def Crew.writeOc (c : Crew) (n : Nat) (act : Lanes) (sh : Shape) (poison : Lanes) : Crew :=
  { c with oc := putReg c.oc n (writeShape c.w (mget c.oc n) c.live act sh poison) }

/-- Writes a latch (R219): the result in the lanes where the instruction acts, 0 in the others. -/
def Crew.writeLatch (c : Crew) (n : Nat) (act : Lanes) (sh : Shape) (poison : Lanes) : Crew :=
  if act = 0 then c
  else if c.live &&& ~~~act = 0 then
    { c with latches := mput c.latches n { shape := normShape c.w sh, poison := poison &&& act } }
  else
    let r : Reg :=
      { shape := normShape c.w (.g ((List.range c.w).map (fun l => if act.getLsbD l then sh.at l else 0))),
        poison := poison &&& act }
    { c with latches := mput c.latches n r }

/-- A predicate's lanes. -/
def Crew.pred (c : Crew) (n : Nat) : Lanes := mgetD c.preds n 0

/-- Writes a predicate in the lanes of act. -/
def Crew.writePred (c : Crew) (n : Nat) (act v : Lanes) : Crew :=
  { c with preds := mput c.preds n ((c.pred n &&& ~~~act) ||| (v &&& act)) }

/-- The value of an index register in a lane (R224). -/
def Crew.ixAt (c : Crew) (n l : Nat) : Word := (mgetD c.ix n []).getD l 0

/-- The lanes that a pending write of a place keeps when a later instruction writes it in some lanes: a write of a latch
writes every lane of it (R219). -/
def Dst.keeps (d : Dst) (pending later : Lanes) : Lanes :=
  match d with
  | .latch _ => if later = 0 then pending else 0
  | _ => pending &&& ~~~later

/-- Takes the lanes a later instruction writes out of the pending results of a place (R26, Writes). -/
def Crew.supersede (c : Crew) (d : Dst) (lanes : Lanes) : Crew :=
  { c with pends := c.pends.map (fun p => { p with dests := p.dests.map (fun x =>
      if x.dst = d then { x with lanes := d.keeps x.lanes lanes } else x) }) }

/-- Writes one destination of a result in the lanes given. -/
def Crew.writeDest (c : Crew) (d : PDest) (lanes : Lanes) : Crew :=
  match d.dst with
  | .reg n => c.writeReg n lanes d.sh d.poison
  | .oc n => c.writeOc n lanes d.sh d.poison
  | .latch n => c.writeLatch n lanes d.sh d.poison
  | .pred n => c.writePred n lanes (lanesWhere c.w (fun l => (d.sh.at l).getLsbD 0))

/-- Writes a result at once: it supersedes what is pending for its places (R26, Writes). -/
def Crew.putDests (c : Crew) (ds : List PDest) : Crew :=
  ds.foldl (fun c d => (c.supersede d.dst d.lanes).writeDest d d.lanes) c

/-- Makes a result pending under a window of win instructions (R26). -/
def Crew.pendDests (c : Crew) (op win : Nat) (ready : Bool) (ds : List PDest) : Crew :=
  let c1 := ds.foldl (fun c d => c.supersede d.dst d.lanes) c
  { c1 with pends := c1.pends ++ [{ op := op, win := win, ready := ready, dests := ds }] }

/-- Writes the results that have come and whose windows have closed, oldest first (R26). -/
def Crew.commit (c : Crew) : Crew :=
  let go := c.pends.filter (fun p => p.ready && p.win == 0)
  let c1 := { c with pends := c.pends.filter (fun p => !(p.ready && p.win == 0)) }
  go.foldl (fun c p => p.dests.foldl (fun c d => c.writeDest d d.lanes) c) c1

/-- Closes every open window (R26, Early close). -/
def Crew.closeWindows (c : Crew) : Crew :=
  let d : Crew := { c with pends := c.pends.map (fun p => { p with win := 0 }) }
  d.commit

/-- One issued instruction counts toward every open window but its own (R26, Counting). -/
def Crew.countWindow (c : Crew) (own : Nat) : Crew :=
  let d : Crew := { c with pends := c.pends.map (fun p => if p.op = own then p else { p with win := p.win - 1 }) }
  d.commit

/-- Whether a place's pending result must be waited for: its window has closed and it has not come (R26). -/
def Crew.owed (c : Crew) (d : Dst) : Bool :=
  c.pends.any (fun p => p.win == 0 && !p.ready && p.dests.any (fun x => x.dst == d && x.lanes != 0))

/-- Invalidates the latches (R222). -/
def Crew.dropLatches (c : Crew) : Crew := { c with latches := [] }

/-- Invalidates the latches and the operand cache (R222). -/
def Crew.dropUpper (c : Crew) : Crew := { c with latches := [], oc := [] }

/-- A crew leaves its partition's load set (R433). -/
def Crew.leaveLoadSet (c : Crew) : Crew := { c with loadSet := false, loadSlots := 0 }

/-- What every wait point does when it issues (R155, R433): the upper depths go, the windows close, the crew leaves the
load set. -/
def Crew.waitPoint (c : Crew) : Crew := c.closeWindows.dropUpper.leaveLoadSet

/-- The numbers of the in-flight counters (R152). -/
def cG : Nat := 0
def cS : Nat := 1
def cA : Nat := 2
def cX : Nat := 3
def cM : Nat := 4

/-- The value of an in-flight counter (R153). -/
def Crew.cnt (c : Crew) (k : Nat) : Nat := (mgetD c.cnts k []).length

/-- Raises an in-flight counter at issue (R152). -/
def Crew.raise (c : Crew) (k op : Nat) : Crew :=
  { c with cnts := mput c.cnts k (mgetD c.cnts k [] ++ [{ op := op, done := false }]) }

/-- An instruction completes: its counter falls past it and every completed one behind it, in issue order (R153). -/
def Crew.lower (c : Crew) (k op : Nat) : Crew :=
  let l := (mgetD c.cnts k []).map (fun e => if e.op = op then { e with done := true } else e)
  { c with cnts := mput c.cnts k (l.dropWhile (·.done)) }

/-- The same in the second set of counters, which a crew keeps for the group taken from its own lanes (R386). -/
def Crew.lower2 (c : Crew) (k op : Nat) : Crew := { c with cnts2 := ({ c with cnts := c.cnts2 } : Crew).lower k op |>.cnts }

/-- The current frame: the highest FRAME any path holds (R400). -/
def Crew.curFrame (c : Crew) : Nat := c.paths.foldl (fun m p => max m p.frame) 0

/-- The running path. -/
def Crew.running (c : Crew) : Option Path := c.paths.find? (·.run)

/-- EXMASK: the union of the masks of the current frame's paths (R400). -/
def Crew.exmask (c : Crew) : Lanes :=
  c.paths.foldl (fun m p => if p.frame = c.curFrame then m ||| p.mask else m) 0

/-- A path's first lane. -/
def Path.first (p : Path) : Nat := (lowest p.mask).getD 64

/-- A new path (R403: AGE 0). -/
def newPath (pc : Dword) (mask : Lanes) (frame : Nat) (run : Bool) : Path :=
  { pc := pc, mask := mask, age := 0, tok := 0, wait := false, frame := frame, run := run, spilled := false }

/-- Candidates (R404). -/
def Crew.candidates (c : Crew) : List Path :=
  c.paths.filter (fun p => p.frame == c.curFrame && !p.run && !p.wait)

/-- The path that runs when the crew chooses (R404): the oldest of age 64 or more, else the lowest first lane. -/
def choosePath (cs : List Path) : Option Path :=
  let old := cs.filter (fun p => decide (64 ≤ p.age))
  let better := fun (a b : Path) =>
    if old.isEmpty then decide (b.first < a.first) else decide (a.age < b.age ∨ (a.age = b.age ∧ b.first < a.first))
  (if old.isEmpty then cs else old).foldl (fun best p =>
    match best with
    | none => some p
    | some b => if better b p then some p else some b) none

/-- Makes a candidate run. -/
def Crew.choose (c : Crew) : Crew :=
  match choosePath c.candidates with
  | none => c
  | some q => { c with paths := c.paths.map (fun p => if p = q then { p with run := true } else p) }

/-- The merge of R407: the waiting paths of the greatest token, one new path for each PC. -/
def Crew.merge (c : Crew) : Crew :=
  let k := c.curFrame
  let ws := c.paths.filter (fun p => p.frame == k && p.wait)
  let t := ws.foldl (fun m p => max m p.tok) 0
  let grp := ws.filter (fun p => p.tok == t)
  let pcs := (grp.map (·.pc)).eraseDups
  let merged := pcs.map (fun pc =>
    newPath (pc + 8) (grp.foldl (fun m p => if p.pc = pc then m ||| p.mask else m) 0) k false)
  { c with paths := c.paths.filter (fun p => !(p.frame == k && p.wait && p.tok == t)) ++ merged }

/-- After the running path ended, parked or was displaced: merge where no candidate is left, and choose (R404, R407). -/
def Crew.settle (c : Crew) : Crew :=
  if (c.running).isSome then c
  else if c.candidates.isEmpty then (if c.paths.any (fun p => p.frame == c.curFrame && p.wait) then c.merge.choose else c)
  else c.choose

/-- Ages the paths that stand by at an issue slot (R403). -/
def Crew.agePaths (c : Crew) : Crew :=
  { c with paths := c.paths.map (fun p =>
      if p.frame == c.curFrame && !p.run && !p.wait then { p with age := min 255 (p.age + 1) } else p) }

/-- Puts the running path at an address. -/
def Crew.setPc (c : Crew) (pc : Dword) : Crew :=
  { c with paths := c.paths.map (fun p => if p.run then { p with pc := pc } else p) }

/-- The running path's PC. -/
def Crew.pc (c : Crew) : Dword := (c.running.map (·.pc)).getD 0

/-- The running path is displaced where a candidate has age 64 or more (R404), else keeps running. -/
def Crew.displace (c : Crew) : Crew :=
  if c.candidates.any (fun p => decide (64 ≤ p.age)) then
    let d : Crew := { c with paths := c.paths.map (fun p => if p.run then { p with run := false, age := 0 } else p) }
    d.choose
  else c

/-- A path switch against the path that ran before (R222): the latches go and the windows close. -/
def Crew.switchFrom (c : Crew) (old : Option Path) : Crew :=
  if (c.running.map (·.mask)) = (old.map (·.mask)) then c else c.closeWindows.dropLatches

/-- A trap as an instruction raises it (R435): class, sub-cause, ARG, LMASK, AUX0, and the trapping lanes where they are
not every lane of the running path. -/
structure Trap where
  cls   : Nat
  sub   : Nat
  arg   : Nat
  lmask : Dword
  aux0  : Dword
  aux1  : Dword
  tm    : Option Lanes
deriving DecidableEq, Repr

/-- What can keep an instruction from its effect: a trap, a fault of its own, a wait at issue, or a device that goes on first
(a request sent, a wait before the instruction issues again). -/
inductive Ev where
  | trap (t : Trap)
  | fault (f : FaultRec)
  | stall
  | again (s : State)
deriving DecidableEq, Repr

/-- A meaning's inner steps: a value, or the event that ends the instruction. -/
abbrev Iss (α : Type) := Except Ev α

/-- The illegal-instruction trap. -/
def Trap.illInsn : Trap := { cls := 5, sub := 0, arg := 0, lmask := 0, aux0 := 0, aux1 := 0, tm := none }

/-- The illegal-operand trap with a sub-cause and an operand field: 0 DST, 1 SA, 2 SB, 3 SC (R435). -/
def Trap.illOpnd (sub field : Nat) : Trap :=
  { cls := 6, sub := sub, arg := 0, lmask := 0, aux0 := BitVec.ofNat 64 field, aux1 := 0, tm := none }

/-- MISALIGN with its lanes (R131). -/
def Trap.misalign (lanes : Lanes) : Trap :=
  { cls := 6, sub := 2, arg := 0, lmask := lanes, aux0 := 0, aux1 := 0, tm := none }

/-- The TCAUSE word of a trap (R438). -/
def Trap.cause (t : Trap) : Word :=
  BitVec.ofNat 32 (t.cls % 256 + t.sub % 256 * 2 ^ 16 + t.arg % 256 * 2 ^ 24)

def illInsn {α : Type} : Iss α := .error (.trap Trap.illInsn)
def illOpnd {α : Type} (sub field : Nat) : Iss α := .error (.trap (Trap.illOpnd sub field))

/-- Stops with an illegal-instruction trap unless a condition holds. -/
def needInsn (b : Bool) : Iss Unit := if b then .ok () else illInsn

/-- Stops with an illegal-operand trap unless a condition holds. -/
def needOpnd (b : Bool) (sub field : Nat) : Iss Unit := if b then .ok () else illOpnd sub field

/-- Waits at issue unless a condition holds. -/
def needIssue (b : Bool) : Iss Unit := if b then .ok () else .error .stall

/-- Trap entry (R439) of an instruction of len bytes at the running path, for a depth below 4: the frame is pushed, every
path of the lower frames is frozen, the handler's path is made, the upper depths go and the windows close. -/
def Crew.enterTrap (c : Crew) (tentry : Dword) (len : Nat) (t : Trap) : Crew :=
  match c.running with
  | none => c
  | some p =>
    let tm := t.tm.getD p.mask
    let next := p.pc + BitVec.ofNat 64 len
    let rest := p.mask &&& ~~~tm
    let f : Frame :=
      { pc := p.pc, rpc := if t.cls = 1 ∨ t.cls = 2 then next else p.pc, cause := t.cause, tm := tm, lmask := t.lmask,
        aux0 := t.aux0, aux1 := t.aux1, len := len }
    let frozen := c.paths.map (fun q => if q.run then { q with run := false, age := 0, mask := tm } else q)
    let others := if rest = 0 then [] else [newPath next rest p.frame false]
    let d : Crew := { c with
      fbuf := []
      frames := c.frames ++ [f]
      paths := frozen ++ others ++ [newPath tentry tm (c.frames.length + 1) true] }
    d.closeWindows.dropUpper

/-- Pops the highest frame (R444, R417). -/
def Crew.popFrame (c : Crew) : Crew := { c with frames := c.frames.dropLast }

/-- Return from a trap (R444): the handler's paths go, the frozen path that held TM resumes at RPC, or for .skip after
the trapping instruction of skipLen bytes; the crew chooses and the upper depths go. -/
def Crew.leaveTrap (c : Crew) (skip : Option Nat) : Crew :=
  match c.frames.getLast? with
  | none => c
  | some f =>
    let k := c.frames.length
    let pc := match skip with
      | some n => f.pc + BitVec.ofNat 64 n
      | none => f.rpc
    let back := f.tm &&& ~~~c.exited
    let kept := c.paths.filter (fun p => p.frame != k)
    let isHome := fun (p : Path) => p.frame + 1 == k && p.mask != 0 && (p.mask &&& f.tm) == p.mask
    let home := kept.find? isHome
    let kept := kept.filter (fun p => !(isHome p))
    let p : Path := (home.getD (newPath pc back (k - 1) false))
    let restored := if back = 0 then [] else [{ p with pc := pc, mask := back, run := false }]
    let d : Crew := { c with paths := kept ++ restored }
    d.popFrame.settle.closeWindows.dropUpper

/-- Adds a cause to a party's word (R450). -/
def Cause.add (c : Cause) (bit xlc : Nat) : Cause :=
  if c.bits.getLsbD bit then c
  else
    let b4 := BitVec.ofNat 4 bit
    { bits := c.bits ||| (1#8 <<< bit), xlc := if bit = 0 then BitVec.ofNat 8 xlc else c.xlc
      first := if c.first = 15 then b4 else c.first
      second := if c.first ≠ 15 ∧ c.second = 15 then b4 else c.second }

/-- The cause bits of R450. -/
def causeFault : Nat := 0
def causeDebug : Nat := 1
def causeTslice : Nat := 2
def causePeer : Nat := 3
def causeTrapovf : Nat := 4
def causeYield : Nat := 5
def causeWdog : Nat := 6

/-- The cause word (R450). -/
def Cause.word (c : Cause) : Word :=
  BitVec.ofNat 32 ((c.bits &&& 0x7F#8).toNat + c.xlc.toNat * 2 ^ 8 + c.first.toNat * 2 ^ 24 + c.second.toNat * 2 ^ 28)

/-- A snapshot trigger (R463). -/
def State.trigger (s : State) : State :=
  if s.snap.arm then { s with snap := { s.snap with pending := true } } else s

/-- A crew as it was at its fence (R203): its registers, empty marks, tags, latches, operand cache, paths, frames, predicates, loop
counters and counter entries; what is pending from past the fence goes. -/
def Crew.atShot (c shot : Crew) : Crew :=
  { c with
    regs := shot.regs, latches := shot.latches, oc := shot.oc, paths := shot.paths, frames := shot.frames, preds := shot.preds,
    lc := shot.lc, ix := shot.ix, xdist := shot.xdist, xsel := shot.xsel, fpctl := shot.fpctl, fpflags := shot.fpflags,
    dre := shot.dre, pends := shot.pends,
    loads := c.loads.filter (fun l => shot.loads.any (fun q => q.op == l.op)),
    accReads := c.accReads.filter (fun r => shot.accReads.any (fun q => q.op == r.op)),
    cnts := c.cnts.map (fun e => (e.1, e.2.filter (fun x => (mgetD shot.cnts e.1 []).any (fun y => y.op == x.op)))) }

/-- Discards the speculative work of a crew past a fence before it stops (R204): while the fence's release is not complete
the crew stands at the FENCE again, and its queue entry and counter entry are gone, since re-executing it repeats the
release; else it stands after the FENCE. -/
def unspeculate (shots : NatMap Crew) (id : Nat) (c : Crew) : Crew :=
  match c.fence, mget shots id with
  | some f, some shot =>
    let d := c.atShot shot
    let back : Crew := { d with
      cnts := d.cnts.map (fun e => (e.1, e.2.filter (fun x => x.op != f.op)))
      sq := c.sq.filter (fun e => e.op != f.op), fence := none }
    if c.sq.any (fun e => e.op == f.op) then back.setPc f.pc else back
  | _, _ => c

/-- The clean bytes of one core's ordinary copies of some lines go. -/
def State.dropLines (s : State) (core : Nat) (lines : List (Nat × Nat)) : State :=
  { s with l1s := mmod s.l1s core (fun ls => (ls.map (fun l =>
      if l.kind == .ordinary && lines.contains (l.dev, l.ln) then { l with valid := l.dirty, poison := l.marks } else l)).filter
        (fun l => !(l.kind == .ordinary && l.valid == 0))) }

/-- The copies that loads past a fence have read go with what these loads gave (R201, R203). -/
def State.dropSpec (s : State) (ctx : Nat) : State :=
  s.crews.foldl (fun s e =>
    match e.2.fence with
    | some f => if e.2.ctx = ctx ∧ !f.read.isEmpty then s.dropLines e.2.core f.read else s
    | none => s) s

/-- Adds a cause that is a single bit to another word (R450). -/
def Cause.join (a b : Cause) : Cause := if b.bits = 0 then a else a.add b.first.toNat b.xlc.toNat

/-- The general registers, index registers and lane sets of a helper group are its donor's, and so are the in-flight counters of a
group taken from another crew; one taken from the recruiter's own lanes has that crew's second set (R386). This is the group's
record with them filled in. -/
def State.viewCrew (s : State) (id : Nat) : Option Crew :=
  match mget s.crews id with
  | none => none
  | some c =>
    match c.hgroup with
    | none => some c
    | some h =>
      match mget s.crews h.donor with
      | none => some c
      | some d => some { c with regs := d.regs, ix := d.ix, launched := d.launched, exited := d.exited,
                                cnts := if h.donor = h.recruiter then d.cnts2 else d.cnts }

/-- Changes a crew. -/
def State.setCrew (s : State) (id : Nat) (c : Crew) : State := { s with crews := mput s.crews id c }
def State.modCrew (s : State) (id : Nat) (f : Crew → Crew) : State := { s with crews := mmod s.crews id f }

/-- Puts a crew back; what a helper group shares goes back to its donor. -/
def State.storeCrew (s : State) (id : Nat) (c : Crew) : State :=
  match c.hgroup with
  | none => s.setCrew id c
  | some h =>
    (s.modCrew h.donor (fun d =>
      if h.donor = h.recruiter then { d with regs := c.regs, ix := c.ix, cnts2 := c.cnts }
      else { d with regs := c.regs, ix := c.ix, cnts := c.cnts })).setCrew id { c with regs := [], ix := [], cnts := [] }

/-- A counter of a crew falls past an instruction that has completed (R153): of a helper group where its donor keeps it. -/
def State.lowerOp (s : State) (id k op : Nat) : State :=
  match (mget s.crews id).bind (·.hgroup) with
  | none => s.modCrew id (fun c => c.lower k op)
  | some h => s.modCrew h.donor (fun d => if h.donor = h.recruiter then d.lower2 k op else d.lower k op)

/-- The speculative work of a helper group past a fence goes with its donor's part of it. -/
def State.unspecGroups (s : State) (ctx : Nat) : State :=
  s.crews.foldl (fun (t : State) e =>
    if e.2.ctx = ctx ∧ e.2.hgroup.isSome ∧ e.2.fence.isSome then
      match t.viewCrew e.1 with
      | some c => t.storeCrew e.1 (unspeculate t.fenceShots e.1 c)
      | none => t
    else t) s

/-- Raises a context's halt line for a cause (R447): its parties get PEER, but for the one that raised it. A cause of no
crew is held by the context itself. A further cause of the party that raised the line joins the context's word (R449). -/
def State.raiseLine (s : State) (ctx : Nat) (c : Cause) (skip : Option Nat) : State :=
  match mget s.ctxs ctx with
  | none => s
  | some y =>
    let x : Ctx := if skip.isNone then { y with own := y.own.join c } else y
    if x.halted then
      { s with ctxs := mput s.ctxs ctx (if skip.isSome ∧ x.raiser = skip then { x with cause := c } else x) }
    else
      let s0 := (s.dropSpec ctx).unspecGroups ctx
      let s1 : State := { s0 with
        ctxs := mput s.ctxs ctx { x with halted := true, cause := c, haltseq := x.haltseq + 1, recorded := false, raiser := skip }
        crews := s0.crews.map (fun e =>
          if e.2.ctx = ctx ∧ !e.2.evicted then
            (e.1, { (if e.2.hgroup.isSome then e.2 else unspeculate s.fenceShots e.1 e.2) with
                    cause := if some e.1 = skip then e.2.cause else e.2.cause.add causePeer 0 })
          else e) }
      if s1.snap.halten then s1.trigger else s1

/-- The key of a vector crew's record (R460): its slot. -/
def crewSlot (core crewid : Nat) : Nat := core * 256 + crewid

/-- The key of the surveyor of cluster 32d + c (R460). -/
def survSlot (cluster : Nat) : Nat := 65536 + cluster

/-- The key of the helper group taken from a crew. -/
def groupSlot (donor : Nat) : Nat := 131072 + donor

/-- The translation unit of a crew (R84): its core's L1 TLB, or for a surveyor its cluster's L2 TLB. -/
def Crew.unit (c : Crew) : Nat := if c.surv then 256 + c.core / 4 else c.core

/-- A fault of translation leaves none of its page's entries in the requester's TLBs: one that was hit has been discarded before
the walk that failed (R85). -/
def State.forgetPage (s : State) (c : Crew) (f : FaultRec) : State :=
  if f.xlc ≤ 9 ∨ f.xlc = 13 ∨ f.xlc = 16 ∨ f.aclass = 5 ∨ f.aclass = 10 then s.tlbDrop c.unit (((mget s.ctxs c.ctx).map (·.asn)).getD 0) f.va else s

/-- A fault of a crew (R93, R436): recorded, and the halt line rises. A helper's is named in its recruiter's record. -/
def State.crewFault (s0 : State) (id : Nat) (f : FaultRec) : State :=
  match mget s0.crews id with
  | none => s0
  | some c =>
    let s := s0.forgetPage c f
    let cause := c.cause.add causeFault f.xlc
    let s1 := s.setCrew id { c with cause := cause, frec := c.frec.or (some f) }
    let s2 := match c.hgroup with
      | none => s1
      | some h =>
        let it := (h.lanes.find? (fun (l : HLane) => l.lane == f.flane)).bind (·.iter)
        s1.modCrew h.recruiter (fun r => { r with helperFault := r.helperFault.or (some (f.flane, it.getD 0)) })
    s2.raiseLine c.ctx cause (some id)

/-- The fifth nested trap (R439): TRAPOVF. -/
def State.crewTrapovf (s : State) (id : Nat) : State :=
  match mget s.crews id with
  | none => s
  | some c =>
    let cause := c.cause.add causeTrapovf 0
    (s.setCrew id { c with cause := cause }).raiseLine c.ctx cause (some id)

/-- The trap handler's entry of a crew (R439, R460). -/
def State.tentryOf (s : State) (c : Crew) : Dword :=
  match mget s.ctxs c.ctx with
  | none => 0
  | some x => if c.surv then x.tsentry else x.tentry

/-- A crew takes a trap of an instruction of len bytes (R439). Speculative work past a fence is discarded first (R204),
and the crew stands at its FENCE: the instruction traps again when the crew comes to it. -/
def State.takeTrap (s : State) (id len : Nat) (t : Trap) : State :=
  match mget s.crews id with
  | none => s
  | some c =>
    if c.frames.length < 4 then s.setCrew id (c.enterTrap (s.tentryOf c) len t) else s.crewTrapovf id

/-- A record of the device event log (R479). -/
def State.logEvent (s : State) (die kind : Nat) (place detail : Dword) : State :=
  let n := s.logs.evcount + 1
  let e := [BitVec.ofNat 64 (n % 2 ^ 32 * 2 ^ 32 + die * 2 ^ 16 + kind), place, detail, BitVec.ofNat 64 s.clk]
  { s with logs := { s.logs with evcount := n, events := mput s.logs.events ((n - 1) % 1024) e } }

/-- A fresh name for an operation. -/
def State.fresh (s : State) : State × Nat := ({ s with opSeq := s.opSeq + 1 }, s.opSeq)

/-- A fresh free value (log entry 5). -/
def State.freshFree (s : State) : State × Dword := ({ s with free := s.free + 1 }, Config.freeValue s.free)

/-- Sends something out of the device. -/
def State.send (s : State) (m : OutMsg) : State := { s with outbox := s.outbox ++ [m] }

end Sys2Proof.Machine
end

