-- ==== Sys2Proof/Machine/Operands.lean ====
section
/-!
DEFINITION. Operands: designators (R27), the crossbar (R28, R226, R227), delivered shapes (R213), empty registers and dead
bits (R216 to R218), STALE entries (R220, R221), waits for pending results (R26), poison (R227), and destinations.
-/

namespace Sys2Proof.Machine

/-- An instruction at issue: the device, the crew (its paths already aged by this slot), the running path, the length in
bytes, the lanes where the instruction acts (R25), and a fresh name for it. -/
structure Cx where
  s   : State
  id  : Nat
  c   : Crew
  p   : Path
  len : Nat
  act : Lanes
  op  : Nat
deriving DecidableEq, Repr

/-- Whether a helper group executes. -/
def Crew.isHelper (c : Crew) : Bool := c.hgroup.isSome

/-- The operand lane (R101): the lowest lane in which the instruction acts. -/
def Cx.lane (x : Cx) : Nat := (lowest x.act).getD 0

/-- The lanes in which the instruction acts, ascending. -/
def Cx.lanes (x : Cx) : List Nat := laneList x.act

/-- What a designator names (R27). -/
inductive Place where
  | reg (n : Nat)
  | oc (n : Nat)
  | latch (n : Nat)
  | ix (n : Nat)
  | zero
  | pred (n : Nat)
  | rv (n : Nat)
deriving DecidableEq, Repr

/-- R27's table. -/
def place (d : Desig) : Option Place :=
  let n := d.toNat
  if n < 0x100 then some (.reg n)
  else if n < 0x108 then some (.oc (n - 0x100))
  else if n < 0x10C then some (.latch (n - 0x108))
  else if n < 0x110 then some (.ix (n - 0x10C))
  else if n = 0x110 then some .zero
  else if 0x120 ≤ n ∧ n < 0x12C then some (.pred (n - 0x120))
  else if 0x140 ≤ n ∧ n < 0x180 then some (.rv (n - 0x140))
  else none

/-- A source of an instruction: designator, crossbar code, dead bit, how many consecutive registers it names, the operand
field it stands in (R435), and which places it may name beside registers and v[ixN]. -/
structure Src where
  d     : Desig
  xc    : Nat
  dead  : Bool
  k     : Nat
  fld   : Nat
  upper : Bool
  zero  : Bool
deriving DecidableEq, Repr

/-- A run of n direct registers lies below 256 and REGS (R210), and in a helper within v240 to v255 (R387). -/
def regRunOk (c : Crew) (n k : Nat) : Bool :=
  decide (n + k ≤ 256 ∧ n + k ≤ c.nregs) && (!c.isHelper || decide (240 ≤ n))

/-- The operand checks of a source (R27, R210, R220, R221, R387): illegal-operand trap, STALE for an invalid entry. -/
def srcCheck (c : Crew) (s : Src) : Iss Unit :=
  match place s.d with
  | some (.reg n) => needOpnd (regRunOk c n s.k) 0 s.fld
  | some (.ix _) => needOpnd (!c.isHelper) 0 s.fld
  | some .zero => needOpnd s.zero 0 s.fld
  | some (.oc n) => do needOpnd (s.upper && s.k == 1) 0 s.fld; needOpnd ((mget c.oc n).isSome || c.owed (.oc n)) 1 s.fld
  | some (.latch n) => do needOpnd (s.upper && s.k == 1) 0 s.fld; needOpnd ((mget c.latches n).isSome || c.owed (.latch n)) 1 s.fld
  | some (.rv _) => needOpnd (s.upper && s.k == 1 && c.isHelper) 0 s.fld
  | some (.pred _) => illOpnd 0 s.fld
  | none => illOpnd 0 s.fld

/-- The operand check of a destination of k registers (R27, R210, R387). -/
def dstCheck (c : Crew) (d : Desig) (k : Nat) (zero : Bool) : Iss Unit :=
  match place d with
  | some (.reg n) => needOpnd (regRunOk c n k) 0 0
  | some (.ix _) => needOpnd (!c.isHelper) 0 0
  | some .zero => needOpnd zero 0 0
  | _ => illOpnd 0 0

/-- The source lane of a crossbar pattern (R226). -/
def xmap (c : Crew) (xc l : Nat) : Nat :=
  let d := c.xdist.toNat % c.w
  match xc with
  | 0 => l
  | 1 => c.xsel.toNat % c.w
  | 2 => (l + c.w - d) % c.w
  | 3 => (l + d) % c.w
  | 4 => (l ^^^ d) % c.w
  | 5 => c.w - 1 - l
  | 6 => (l ^^^ 1) % c.w
  | _ => (l + c.w - 1) % c.w

/-- The recruiter of a helper group, and the recruiting lane (R386). -/
def Cx.recruiter (x : Cx) : Option (Crew × Nat) :=
  match x.c.hgroup with
  | none => none
  | some h =>
    match mget x.s.crews h.recruiter with
    | none => none
    | some r => some (r, (r.recruit.map (·.lane)).getD 0)

/-- The register that a place names in a lane (the i-th of a run): none where it names no register. -/
def placeReg (c : Crew) (pl : Place) (i l : Nat) : Option Nat :=
  match pl with
  | .reg n => some (n + i)
  | .ix k => some (((c.ixAt k l).toNat + i) % c.nregs)
  | _ => none

/-- What a place holds for a lane: the register, entry or latch whose element in that lane is read. -/
def Cx.cell (x : Cx) (pl : Place) (i l : Nat) : Option Reg :=
  match pl with
  | .oc n => mget x.c.oc n
  | .latch n => mget x.c.latches n
  | .zero => none
  | .pred _ => none
  | .rv n => x.recruiter.bind (fun (r : Crew × Nat) =>
      (mget r.1.regs (n + i)).map (fun g =>
        { shape := .u (g.shape.at r.2), poison := if g.poison.getLsbD r.2 then BitVec.allOnes 64 else 0 }))
  | pl => (placeReg x.c pl i l).bind (fun n => mget x.c.regs n)

/-- A source as the instruction receives it (R213, R227): its shape and words, and the lanes that receive a poisoned
element. -/
structure Opd where
  sh     : Shape
  poison : Lanes
deriving DecidableEq, Repr

/-- The word a lane receives. -/
def Opd.at (o : Opd) (l : Nat) : Word := o.sh.at l

/-- Whether an operand is delivered U. -/
def Opd.isU (o : Opd) : Bool := match o.sh with | .u _ => true | _ => false

/-- The i-th word of a source through its pattern (R213, R226, R227). DESIGN CHOICE: R213 keys its table on one source tag, which
the lanes of a v[ixN] need not share; a v[ixN] is delivered G, whatever its registers' tags. Log entry 129. -/
def Cx.readSrc (x : Cx) (s : Src) (i : Nat) : Opd :=
  match place s.d with
  | none => { sh := .u 0, poison := 0 }
  | some pl =>
    let live := x.c.live
    let srcL := fun l => xmap x.c s.xc l
    let poison := lanesWhere x.c.w (fun l =>
      live.getLsbD (srcL l) && (regPoison (x.cell pl i (srcL l))).getLsbD (srcL l))
    let vals := (List.range x.c.w).map (fun l =>
      if live.getLsbD (srcL l) then regAt (x.cell pl i (srcL l)) (srcL l) else 0)
    let full := live == allLanes x.c.w
    match pl with
    | .zero => { sh := .u 0, poison := 0 }
    | .ix _ => { sh := normShape x.c.w (.g vals), poison := poison }
    | pl =>
      let tag : Option Shape := (x.cell pl i 0).map (fun (r : Reg) => r.shape)
      match tag with
      | none => { sh := if s.xc = 0 ∨ full then .u 0 else .g vals, poison := poison }
      | some (.u w) => { sh := if s.xc = 0 ∨ full then .u w else normShape x.c.w (.g vals), poison := poison }
      | some (.a b st) =>
        { sh := if s.xc = 0 then .a b st else if s.xc = 1 then .u (vals.getD 0 0) else .g vals, poison := poison }
      | some (.g ws) => { sh := if s.xc = 0 then .g ws else .g vals, poison := poison }

/-- The register number of an empty register that a source names in some of the lanes given, through its pattern (R218): a lane whose
pattern leads to one that has exited or was never launched reads no register (R227). -/
def Cx.emptyAt (x : Cx) (s : Src) (lanes : List Nat) : Option Nat :=
  (place s.d).bind (fun pl => (lanes.filter (fun l => x.c.live.getLsbD (xmap x.c s.xc l))).findSome? (fun l => (List.range s.k).findSome? (fun i =>
    (placeReg x.c pl i (xmap x.c s.xc l)).bind (fun n => if (mget x.c.regs n).isNone then some n else none))))

/-- The register number of an empty register that an acting lane reads through a source (R218). -/
def Cx.emptyRead (x : Cx) (s : Src) : Option Nat := x.emptyAt s x.lanes

/-- R218: the dead-read trap. -/
def Cx.deadCheck (x : Cx) (n : Option Nat) : Iss Unit :=
  match n with
  | some r =>
    if x.c.dre then
      .error (.trap { cls := 4, sub := 0, arg := 0, lmask := 0, aux0 := BitVec.ofNat 64 r, aux1 := 0, tm := none })
    else .ok ()
  | none => .ok ()

/-- A source waits for what it reads (R26, After the window). -/
def Cx.owedSrc (x : Cx) (s : Src) : Bool :=
  match place s.d with
  | some (.oc n) => x.c.owed (.oc n)
  | some (.latch n) => x.c.owed (.latch n)
  | some (.pred n) => x.c.owed (.pred n)
  | some pl => (List.range x.c.w).any (fun l => (List.range s.k).any (fun i =>
      match placeReg x.c pl i l with
      | some n => x.c.owed (.reg n)
      | none => false))
  | none => false

/-- The fault of consuming a poisoned word (R436, R452 class 9). -/
def Cx.poisonRec (x : Cx) (l : Nat) : FaultRec :=
  { xlc := 10, pc := x.p.pc, va := 0, fent := 0, aclass := 9, level := 0, flane := l }

/-- Consumption of poisoned elements by acting lanes is a fault (R227, R436). -/
def Cx.poisonCheck (x : Cx) (os : List Opd) : Iss Unit :=
  match lowest (os.foldl (fun m o => m ||| o.poison) 0 &&& x.act) with
  | some l => .error (.fault (x.poisonRec l))
  | none => .ok ()

/-- Operand checks, waits and dead reads of the sources of an instruction, in the order of R437, then the words: for each
source the list of its run. A register that is owed its result is waited for and not read (R26), so the wait comes before
the dead read. Poison is left to the caller. -/
def Cx.fetchRaw (x : Cx) (ss : List Src) : Iss (List (List Opd)) := do
  for s in ss do srcCheck x.c s
  needIssue (ss.all (fun s => !x.owedSrc s))
  for s in ss do x.deadCheck (x.emptyRead s)
  return ss.map (fun s => (List.range s.k).map (fun i => x.readSrc s i))

/-- The operand checks and waits of sources and their words, before dead reads and poison are judged (R437). -/
def Cx.peek (x : Cx) (ss : List Src) : Iss (List (List Opd)) := do
  for s in ss do srcCheck x.c s
  needIssue (ss.all (fun s => !x.owedSrc s))
  return ss.map (fun s => (List.range s.k).map (fun i => x.readSrc s i))

/-- The dead-read traps of sources. -/
def Cx.deadReads (x : Cx) (ss : List Src) : Iss Unit := do
  for s in ss do x.deadCheck (x.emptyRead s)

/-- The same as fetchRaw with the poison check. -/
def Cx.fetch (x : Cx) (ss : List Src) : Iss (List (List Opd)) := do
  let r ← x.fetchRaw ss
  x.poisonCheck r.flatten
  return r

/-- R217: the dead-marked direct sources empty their registers. -/
def Crew.emptySrcs (c : Crew) (ss : List Src) : Crew :=
  ss.foldl (fun c s =>
    match s.dead, place s.d with
    | true, some (.reg n) => { c with regs := (List.range s.k).foldl (fun m i => mdel m (n + i)) c.regs }
    | _, _ => c) c

/-- The places that the i-th word of a destination goes to in the acting lanes: for v[ixN] each register that some lane
names, over the lanes that name it (R224); nothing for zero (R27). -/
def dstPlaces (c : Crew) (d : Desig) (i : Nat) (act : Lanes) : List (Nat × Lanes) :=
  match place d with
  | some (.reg n) => [(n + i, act)]
  | some (.ix k) =>
    let at_ := fun l => ((c.ixAt k l).toNat + i) % c.nregs
    (((laneList act).map at_).eraseDups).map (fun n => (n, lanesWhere c.w (fun l => act.getLsbD l && at_ l == n)))
  | _ => []

/-- The destinations of the i-th word of a result. -/
def regDests (c : Crew) (d : Desig) (i : Nat) (act : Lanes) (sh : Shape) (poison : Lanes) : List PDest :=
  (dstPlaces c d i act).map (fun e => { dst := .reg e.1, lanes := e.2, sh := sh, poison := poison })

/-- The operand-cache destination of an OCW field (R30). -/
def ocDests (ocw : BitVec 4) (act : Lanes) (sh : Shape) (poison : Lanes) : List PDest :=
  if ocw.getLsbD 3 then [{ dst := .oc (ocw.toNat - 8), lanes := act, sh := sh, poison := poison }] else []

/-- The latch destination of a pipe (R219). -/
def latchDests (n : Nat) (act : Lanes) (sh : Shape) : List PDest :=
  if act = 0 then [] else [{ dst := .latch n, lanes := act, sh := sh, poison := 0 }]

/-- A predicate destination (0x120 to 0x12B) where an instruction admits one. -/
def predOf (d : Desig) : Option Nat :=
  match place d with
  | some (.pred n) => some n
  | _ => none

/-- Builds a general result from a word for each lane. -/
def gen (w : Nat) (f : Nat → Word) : Shape := .g ((List.range w).map f)

/-- The natural shape of R214 for a lane-wise result: U when every source is delivered U, else G. -/
def natShape (x : Cx) (os : List Opd) (f : Nat → Word) : Shape :=
  if os.all (·.isU) then .u (f x.lane) else normShape x.c.w (gen x.c.w f)

/-- The pair of words of a fetched run in a lane (R52). -/
def pairAt (os : List Opd) (l : Nat) : Dword := pairWord ((os.getD 0 ⟨.u 0, 0⟩).at l) ((os.getD 1 ⟨.u 0, 0⟩).at l)

/-- The i-th operand list of a fetch, and the first word of it. -/
def nthRun (r : List (List Opd)) (i : Nat) : List Opd := r.getD i []
def nthOpd (r : List (List Opd)) (i : Nat) : Opd := (nthRun r i).getD 0 ⟨.u 0, 0⟩

end Sys2Proof.Machine

namespace Sys2Proof

/-- Sources A and B of an L3 instruction that names one register each. -/
def L3.srcA (f : L3) : Machine.Src :=
  { d := f.sa, xc := f.xa.toNat, dead := f.ka, k := 1, fld := 1, upper := true, zero := true }
def L3.srcB (f : L3) : Machine.Src :=
  { d := f.sb, xc := f.xb.toNat, dead := f.kb, k := 1, fld := 2, upper := true, zero := true }

/-- Source C of R32: SC of MOD6 names the destination register, a latch or an operand-cache entry; none where illegal. -/
def L3.srcC (f : L3) : Option Machine.Src :=
  let sc := f.mod6.toNat / 4
  let mk := fun (d : Desig) => ({ d := d, xc := 0, dead := false, k := 1, fld := 3, upper := true, zero := true } : Machine.Src)
  if sc = 0 then some (mk f.dst)
  else if sc < 4 then none
  else if sc < 8 then some (mk (BitVec.ofNat 9 (0x108 + sc - 4)))
  else some (mk (BitVec.ofNat 9 (0x100 + sc - 8)))

/-- An LE operand of k registers at a source field: any source of R27. -/
def LE.srcA (f : LE) (k : Nat) : Machine.Src :=
  { d := f.sa, xc := 0, dead := f.ka, k := k, fld := 1, upper := true, zero := true }
def LE.srcB (f : LE) (k : Nat) : Machine.Src :=
  { d := f.sb, xc := 0, dead := f.kb, k := k, fld := 2, upper := true, zero := true }
/-- An address, length or core operand: registers, v[ixN] or zero (R101). -/
def Machine.Src.plain (s : Machine.Src) : Machine.Src := { s with upper := false }
/-- The DST field read as a source, as a destination's designators go (R101). -/
def LE.srcD (f : LE) (k : Nat) : Machine.Src :=
  { d := f.dst, xc := 0, dead := false, k := k, fld := 0, upper := false, zero := true }

end Sys2Proof
end

