-- ==== Sys2Proof/Machine/Flags.lean ====
section
/-!
DEFINITION. Floating-point formats (R53, R54), exact values, rounding and its flags (R57 to R60), NaNs (R61, R62), and the
arithmetic trap (R273, R274).
-/

namespace Sys2Proof.Machine

/-- A floating-point format (R53): exponent and mantissa bits, bias, whether it has infinities and NaNs coded as IEEE
754 has them; E4M3 and E2M1 have none. -/
structure Fmt where
  e    : Nat
  m    : Nat
  bias : Nat
  ieee : Bool
  nan  : Nat
  big  : Nat
deriving DecidableEq, Repr

def f64 : Fmt := { e := 11, m := 52, bias := 1023, ieee := true, nan := 0x7FF8000000000000, big := 0x7FEFFFFFFFFFFFFF }
def f32 : Fmt := { e := 8, m := 23, bias := 127, ieee := true, nan := 0x7FC00000, big := 0x7F7FFFFF }
def f16 : Fmt := { e := 5, m := 10, bias := 15, ieee := true, nan := 0x7E00, big := 0x7BFF }
def bf16 : Fmt := { e := 8, m := 7, bias := 127, ieee := true, nan := 0x7FC0, big := 0x7F7F }
def e5m2 : Fmt := { e := 5, m := 2, bias := 15, ieee := true, nan := 0x7E, big := 0x7B }
def e4m3 : Fmt := { e := 4, m := 3, bias := 7, ieee := false, nan := 0x7F, big := 0x7E }
def e2m1 : Fmt := { e := 2, m := 1, bias := 1, ieee := false, nan := 0, big := 0x7 }

/-- The width of a format. -/
def Fmt.w (f : Fmt) : Nat := 1 + f.e + f.m

/-- The sign bit's weight. -/
def Fmt.top (f : Fmt) : Nat := 2 ^ (f.e + f.m)

/-- An exact value: a NaN (signalling or not), an infinity, or (−1)^neg × mant × 2^exp. -/
inductive Fv where
  | nan (sig : Bool)
  | inf (neg : Bool)
  | fin (neg : Bool) (mant : Nat) (exp : Int)
deriving DecidableEq, Repr

/-- The value of a code (R53). -/
def Fmt.value (f : Fmt) (v : Nat) : Fv :=
  let neg := v.testBit (f.e + f.m)
  let ef := v >>> f.m % 2 ^ f.e
  let mf := v % 2 ^ f.m
  let fin := if ef = 0 then Fv.fin neg mf (1 - (f.bias : Int) - f.m)
    else Fv.fin neg (2 ^ f.m + mf) ((ef : Int) - f.bias - f.m)
  if f.ieee then
    (if ef = 2 ^ f.e - 1 then (if mf = 0 then .inf neg else .nan (!mf.testBit (f.m - 1))) else fin)
  else if f.nan ≠ 0 ∧ v % f.top = f.nan then .nan false
  else fin

/-- The flags of R60, as bits 4:0 of FPFLAGS. -/
abbrev Fl := BitVec 5
def flNV : Fl := 16
def flDZ : Fl := 8
def flOF : Fl := 4
def flUF : Fl := 2
def flNX : Fl := 1

/-- The code of a sign and a magnitude. -/
def Fmt.code (f : Fmt) (neg : Bool) (mag : Nat) : Nat := if neg then f.top + mag else mag

/-- The code of an infinity of an IEEE format. -/
def Fmt.infMag (f : Fmt) : Nat := (2 ^ f.e - 1) * 2 ^ f.m

/-- Rounding modes (R57): 0 rne, 1 rtz, 2 rup, 3 rdn, 4 rna. -/
def roundUp (mode : Nat) (neg odd : Bool) (cmpHalf : Ordering) (inexact : Bool) : Bool :=
  match mode with
  | 0 => cmpHalf == .gt || (cmpHalf == .eq && odd)
  | 1 => false
  | 2 => !neg && inexact
  | 3 => neg && inexact
  | _ => cmpHalf != .lt

/-- A magnitude mant × 2^exp (with something more below when sticky) at a quantum 2^q: the whole part after rounding and
whether it was inexact. -/
def roundAt (mode : Nat) (neg : Bool) (mant : Nat) (exp q : Int) (sticky : Bool) : Nat × Bool :=
  if q ≤ exp then
    let k := mant <<< (exp - q).toNat
    (if sticky && roundUp mode neg (k % 2 == 1) .lt true then k + 1 else k, sticky)
  else
    let d := (q - exp).toNat
    if mant.log2 + 1 < d then
      let inexact := mant ≠ 0 || sticky
      (if inexact && roundUp mode neg false .lt true then 1 else 0, inexact)
    else
      let k := mant >>> d
      let r := mant % 2 ^ d
      let half := 2 ^ (d - 1)
      let inexact := r ≠ 0 || sticky
      let c : Ordering := if r < half then .lt else if r = half then (if sticky then .gt else .eq) else .gt
      (if inexact && roundUp mode neg (k % 2 == 1) c inexact then k + 1 else k, inexact)

/-- The result of an overflow (R58). -/
def Fmt.overflow (f : Fmt) (mode : Nat) (sat neg : Bool) : Nat :=
  if f = e2m1 then f.code neg f.big
  else if f = e4m3 then (if sat then f.code neg f.big else f.nan)
  else if sat then f.code neg f.big
  else
    match mode with
    | 0 | 4 => f.code neg f.infMag
    | 1 => f.code neg f.big
    | 2 => if neg then f.code neg f.big else f.code neg f.infMag
    | _ => if neg then f.code neg f.infMag else f.code neg f.big

/-- Rounds a nonzero exact value once to a format, with the flags of R60. -/
def Fmt.round (f : Fmt) (mode : Nat) (sat neg : Bool) (mant : Nat) (exp : Int) (sticky : Bool) : Nat × Fl :=
  let ev := (mant.log2 : Int) + exp
  let emin : Int := 1 - f.bias
  let q := max ev emin - f.m
  let r := roundAt mode neg mant exp q sticky
  let mag := (q + f.m + f.bias).toNat * 2 ^ f.m + r.1 - 2 ^ f.m
  if f.big < mag then (f.overflow mode sat neg, flOF ||| flNX)
  else
    let tiny := decide (ev < emin) &&
      !(decide (ev = emin - 1) && (roundAt mode neg mant exp (ev - f.m) sticky).1 == 2 ^ (f.m + 1))
    (f.code neg mag, (if r.2 then flNX else 0) ||| (if r.2 && tiny then flUF else 0))

/-- The code of a zero. -/
def Fmt.zero (f : Fmt) (neg : Bool) : Nat := f.code neg 0

/-- Rounds an exact value to a format: NaNs canonical (R61), infinities as R58 and R63 have them. -/
def Fmt.ofFv (f : Fmt) (mode : Nat) (sat : Bool) (v : Fv) : Nat × Fl :=
  match v with
  | .nan s => (f.nan, if s then flNV else 0)
  | .inf n => if f.ieee then (f.code n f.infMag, 0) else (f.overflow mode sat n, 0)
  | .fin n m e => if m = 0 then (f.zero n, 0) else f.round mode sat n m e false

/-- The sign of an exact zero sum (R59). -/
def zeroSign (mode : Nat) (a b : Bool) : Bool := if a = b then a else mode == 3

/-- An integer mantissa and its sign as a value; a zero takes the sign given. -/
def ofInt (x : Int) (e : Int) (zs : Bool) : Fv := .fin (if x = 0 then zs else decide (x < 0)) x.natAbs e

/-- A finite value's signed mantissa at an exponent not above its own. -/
def atExp (neg : Bool) (m : Nat) (e t : Int) : Int :=
  let v : Int := (m <<< (e - t).toNat : Nat)
  if neg then -v else v

/-- Exact a + b with the flag of ∞ − ∞ (R59, R62). -/
def Fv.add (mode : Nat) (a b : Fv) : Fv × Fl :=
  match a, b with
  | .nan s, .nan t => (.nan false, if s || t then flNV else 0)
  | .nan s, _ | _, .nan s => (.nan false, if s then flNV else 0)
  | .inf m, .inf n => if m = n then (.inf m, 0) else (.nan false, flNV)
  | .inf m, _ | _, .inf m => (.inf m, 0)
  | .fin n m e, .fin n2 m2 e2 =>
    if m = 0 ∧ m2 = 0 then (.fin (zeroSign mode n n2) 0 0, 0)
    else if m = 0 then (.fin n2 m2 e2, 0)
    else if m2 = 0 then (.fin n m e, 0)
    else
      let t := min e e2
      (ofInt (atExp n m e t + atExp n2 m2 e2 t) t (mode == 3), 0)

/-- The value with its sign turned. -/
def Fv.neg (a : Fv) : Fv :=
  match a with
  | .nan s => .nan s
  | .inf n => .inf !n
  | .fin n m e => .fin (!n) m e

/-- Exact a × b with the flag of 0 × ∞ (R59, R62). -/
def Fv.mul (a b : Fv) : Fv × Fl :=
  match a, b with
  | .nan s, .nan t => (.nan false, if s || t then flNV else 0)
  | .nan s, _ | _, .nan s => (.nan false, if s then flNV else 0)
  | .inf m, .inf n => (.inf (m != n), 0)
  | .inf m, .fin n k _ | .fin n k _, .inf m => if k = 0 then (.nan false, flNV) else (.inf (m != n), 0)
  | .fin n m e, .fin n2 m2 e2 => (.fin (n != n2) (m * m2) (e + e2), 0)

def Fv.isNan (a : Fv) : Bool := match a with | .nan _ => true | _ => false
def Fv.isSig (a : Fv) : Bool := match a with | .nan s => s | _ => false

/-- a < b for values that are not NaN; below orders −0 before +0 where asked (R62). -/
def Fv.lt (signedZero : Bool) (a b : Fv) : Bool :=
  match a, b with
  | .nan _, _ | _, .nan _ => false
  | .inf m, .inf n => m && !n
  | .inf m, _ => m
  | _, .inf n => !n
  | .fin n m e, .fin n2 m2 e2 =>
    let t := min e e2
    if m = 0 ∧ m2 = 0 then signedZero && n && !n2
    else if m = 0 then !n2
    else if m2 = 0 then n
    else decide (atExp n m e t < atExp n2 m2 e2 t)

/-- a = b with +0 = −0 (R280). -/
def Fv.eq (a b : Fv) : Bool := !a.isNan && !b.isNan && !a.lt false b && !b.lt false a

/-- FADD, FSUB: sum of two codes rounded once, with flags (R276). -/
def Fmt.addC (f : Fmt) (mode a b : Nat) : Nat × Fl :=
  let r := (f.value a).add mode (f.value b)
  let o := f.ofFv mode false r.1
  (o.1, o.2 ||| r.2)

def Fmt.subC (f : Fmt) (mode a b : Nat) : Nat × Fl :=
  let r := (f.value a).add mode (f.value b).neg
  let o := f.ofFv mode false r.1
  (o.1, o.2 ||| r.2)

def Fmt.mulC (f : Fmt) (mode a b : Nat) : Nat × Fl :=
  let r := (f.value a).mul (f.value b)
  let o := f.ofFv mode false r.1
  (o.1, o.2 ||| r.2)

/-- FFMA: one rounding of the exact a × b + c (R278). -/
def Fmt.fmaC (f : Fmt) (mode a b c : Nat) : Nat × Fl :=
  let p := (f.value a).mul (f.value b)
  let r := p.1.add mode (f.value c)
  let o := f.ofFv mode false r.1
  (o.1, o.2 ||| r.2 ||| p.2)

/-- FMIN and FMAX (R62, R276): a NaN operand yields the other operand's bits. -/
def Fmt.minC (f : Fmt) (mx : Bool) (a b : Nat) : Nat × Fl :=
  let x := f.value a
  let y := f.value b
  let nv : Fl := if x.isSig || y.isSig then flNV else 0
  if x.isNan && y.isNan then (f.nan, nv)
  else if x.isNan then (b, nv)
  else if y.isNan then (a, nv)
  else if mx then (if x.lt true y then b else a, nv) else (if y.lt true x then b else a, nv)

/-- FMINM and FMAXM: any NaN gives the canonical NaN. -/
def Fmt.minmC (f : Fmt) (mx : Bool) (a b : Nat) : Nat × Fl :=
  let x := f.value a
  let y := f.value b
  if x.isNan || y.isNan then (f.nan, if x.isSig || y.isSig then flNV else 0) else f.minC mx a b

/-- The integer square root of a number below 2^(2n). -/
def isqrt (n v : Nat) : Nat :=
  match n with
  | 0 => 0
  | k + 1 =>
    let r := isqrt k (v / 4)
    if (2 * r + 1) * (2 * r + 1) ≤ v then 2 * r + 1 else 2 * r

/-- 1/a, √a and 1/√a rounded once (R285): 0 RCP, 1 SQRT, 2 RSQ. -/
def Fmt.funC (f : Fmt) (op mode a : Nat) : Nat × Fl :=
  let p := 2 * f.m + 8
  match f.value a with
  | .nan s => (f.nan, if s then flNV else 0)
  | .inf n =>
    if op = 0 then (f.zero n, 0)
    else if n then (f.nan, flNV)
    else if op = 1 then (f.code false f.infMag, 0) else (f.zero false, 0)
  | .fin n m e =>
    if m = 0 then (if op = 1 then (f.zero n, 0) else (f.code n f.infMag, flDZ))
    else if op = 0 then
      let k := p + m.log2
      f.round mode false n (2 ^ k / m) (-(k : Int) - e) (2 ^ k % m != 0)
    else if n then (f.nan, flNV)
    else
      let odd := e % 2 != 0
      let m2 := if odd then 2 * m else m
      let e2 := if odd then e - 1 else e
      if op = 1 then
        let v := m2 <<< (2 * p)
        let r := isqrt (p + f.m + 4) v
        f.round mode false false r (e2 / 2 - p) (r * r != v)
      else
        let s := p + m2.log2
        let r := isqrt (s + 1) (2 ^ (2 * s) / m2)
        f.round mode false false r (-(s : Int) - e2 / 2) (r * r * m2 != 2 ^ (2 * s))

/-- A value rounded to an integer in a mode: the integer, and whether it changed. -/
def Fv.toInt (mode : Nat) (n : Bool) (m : Nat) (e : Int) : Int × Bool :=
  let r := roundAt mode n m e 0 false
  (if n then -(r.1 : Int) else (r.1 : Int), r.2)

/-- FRND (R276): rounded to an integral value; a zero keeps the sign of a. -/
def Fmt.rndC (f : Fmt) (mode a : Nat) : Nat × Fl :=
  match f.value a with
  | .nan s => (f.nan, if s then flNV else 0)
  | .inf n => (f.code n f.infMag, 0)
  | .fin n m e =>
    if m = 0 then (f.zero n, 0)
    else if 0 ≤ e then (a, 0)
    else
      let r := Fv.toInt mode n m e
      if r.1 = 0 then (f.zero n, flNX)
      else
        let o := f.round mode false n r.1.natAbs 0 false
        (o.1, o.2 ||| (if r.2 then flNX else 0))

/-- FSCALE (R276): a × 2^n exactly, then rounded. -/
def Fmt.scaleC (f : Fmt) (mode : Nat) (a : Nat) (n : Int) : Nat × Fl :=
  match f.value a with
  | .fin s m e => f.ofFv mode false (.fin s m (e + n))
  | v => f.ofFv mode false v

/-- FGETE (R277). -/
def Fmt.geteC (f : Fmt) (a : Nat) : Nat × Fl :=
  match f.value a with
  | .nan s => (0x80000000, if s then flNV else 0)
  | .inf _ => (0x7FFFFFFF, 0)
  | .fin _ m e => if m = 0 then (0x80000000, 0) else (wrapN 32 ((m.log2 : Int) + e), 0)

/-- FCLASS (R281). -/
def Fmt.classC (f : Fmt) (a : Nat) : Nat :=
  match f.value a with
  | .nan s => if s then 2 ^ 8 else 2 ^ 9
  | .inf n => if n then 1 else 2 ^ 7
  | .fin n m _ =>
    if m = 0 then (if n then 2 ^ 3 else 2 ^ 4)
    else if m < 2 ^ f.m then (if n then 2 ^ 2 else 2 ^ 5)
    else (if n then 2 else 2 ^ 6)

/-- FCMP (R280): the condition and its NV. -/
def Fmt.cmpC (f : Fmt) (cc a b : Nat) : Bool × Fl :=
  let x := f.value a
  let y := f.value b
  let un := x.isNan || y.isNan
  let sig : Fl := if x.isSig || y.isSig then flNV else 0
  let any : Fl := if un then flNV else 0
  match cc with
  | 0 => (x.eq y, sig)
  | 1 => (!x.eq y, sig)
  | 2 => (x.lt false y, any)
  | 3 => (!un && !y.lt false x, any)
  | 4 => (y.lt false x, any)
  | 5 => (!un && !x.lt false y, any)
  | 6 => (un, sig)
  | _ => (!un, sig)

/-- Float to integer (R64). -/
def Fmt.toIntC (f : Fmt) (mode w : Nat) (sg : Bool) (a : Nat) : Nat × Fl :=
  let lo : Int := if sg then -(2 : Int) ^ (w - 1) else 0
  let hi : Int := if sg then (2 : Int) ^ (w - 1) - 1 else (2 : Int) ^ w - 1
  match f.value a with
  | .nan _ => (0, flNV)
  | .inf n => (wrapN w (if n then lo else hi), flNV)
  | .fin n m e =>
    let big := decide (64 < (m.log2 : Int) + e) && m != 0
    if big then (wrapN w (if n then lo else hi), flNV)
    else
      let r := Fv.toInt mode n m e
      if hi < r.1 then (wrapN w hi, flNV)
      else if r.1 < lo then (wrapN w lo, flNV)
      else (wrapN w r.1, if r.2 then flNX else 0)

/-- Integer to float (R64). -/
def Fmt.ofIntC (f : Fmt) (mode : Nat) (v : Int) : Nat × Fl := f.ofFv mode false (ofInt v 0 false)

/-- Float to float (R63, R283): an infinity to E2M1, or to E4M3 under saturation, raises OF and NX; to E4M3 without it,
NV; any NaN to E2M1 is 0 with NV. -/
def Fmt.cvtC (sf df : Fmt) (mode : Nat) (sat : Bool) (a : Nat) : Nat × Fl :=
  match sf.value a with
  | .nan s => if df = e2m1 then (0, flNV) else (df.nan, if s then flNV else 0)
  | .inf n =>
    if df.ieee then (df.code n df.infMag, 0)
    else if df = e2m1 ∨ sat then (df.code n df.big, flOF ||| flNX)
    else (df.nan, flNV)
  | .fin n m e => if m = 0 then (df.zero n, 0) else df.round mode sat n m e false

/-- The lanes and elements of an instruction's flags meet FPCTL (R274): the arithmetic trap where an enabled flag of
those that can trap was raised. fl gives each lane's flags. -/
def Cx.arith (x : Cx) (fl : Nat → Fl) (can : Fl) : Iss Fl :=
  let all := (laneList x.act).foldl (fun m l => m ||| fl l) 0
  let en : Fl := (x.c.fpctl >>> 8).setWidth 5 &&& can
  if all &&& en = 0 then .ok all
  else
    .error (.trap { cls := 3, sub := 0, arg := (all &&& can).toNat,
                    lmask := lanesWhere x.c.w (fun l => x.act.getLsbD l && (fl l &&& en) != 0), aux0 := 0, aux1 := 0,
                    tm := none })

/-- ORs raised flags into FPFLAGS (R273). -/
def Crew.orFlags (c : Crew) (fl : Fl) : Crew := { c with fpflags := c.fpflags ||| fl.setWidth 32 }

end Sys2Proof.Machine
end

