-- ==== Sys2Proof/Machine/Home.lean ====
section
/-!
DEFINITION. What a home slice does (R100): the freeze check (R119, R123), open heaps (R309), commutative ranges and their
recall (R69, R106, R110), reads, writes, atomics (R146, R147), and the L1 lines of a core (R94 to R97, R109).
-/

namespace Sys2Proof.Machine

/-! Links (R343, R346). -/

/-- Whether a UALink port is up (R344, R356). -/
def State.ualUp (s : State) (p : Nat) : Bool := mgetD s.ualLanes p 4 != 0

/-- Whether a port has a path to a peer (R344, R346): one attached to a switch has a path to every device, one attached directly to
a peer's port to those that ualPeers lists for it (log entry 108). -/
def State.portPath (s : State) (p dev : Nat) : Bool :=
  match mget s.ualPeers p with
  | none => true
  | some ds => ds.contains dev

/-- Whether some port that is up reaches a peer (R346). -/
def State.peerPath (s : State) (dev : Nat) : Bool :=
  if 1024 ≤ dev then (List.range 4).any (fun p => mgetD s.ueLanes p 4 ≠ 0)
  else (List.range 16).any (fun p => s.ualUp p && s.portPath p dev)

/-! Freeze entries, open heaps, conflicts. -/

/-- Whether two byte ranges meet. -/
def rangesMeet (a n b m : Nat) : Bool := decide (a < b + m ∧ b < a + n)

/-- Whether a freeze entry covers some of n bytes (R114). -/
def Freeze.covers (f : Freeze) (pa n : Nat) : Bool := rangesMeet f.base f.len pa n

/-- Whether an entry makes its bytes frozen: FROZEN or THAWING (R123). FRZQ.addr's "active" entry is read so too, though R107 and
R120 speak of an active entry as one that is not FREE (log entry 110). -/
def Freeze.active (f : Freeze) : Bool :=
  match f.state with
  | .freezing => false
  | _ => true

/-- Whether some of n bytes are frozen (R119, R123). -/
def State.frozenAt (s : State) (pa n : Nat) : Bool := s.freezes.any (fun e => e.2.active && e.2.covers pa n)

/-- Whether any entry that is not FREE covers some of n bytes (R120). -/
def State.freezeOver (s : State) (pa n : Nat) : Bool := s.freezes.any (fun e => e.2.covers pa n)

/-- The entry a fill of a line carries for a device (R118): the lowest FROZEN one whose scope includes it. -/
def State.replicaEntry (s : State) (pa dev : Nat) : Option Nat :=
  (s.freezes.find? (fun e => e.2.state == .frozen && e.2.covers pa 1 && (e.2.pod || dev == s.devnum))).map (·.1)

/-- A dword at the home under an owner. -/
def State.homeDw (s : State) (owner pa : Nat) : Dword := BitVec.ofNat 64 (leNat (s.homeRead owner pa 8))

/-- Whether the heap with a header here is open (R308, R309). -/
def State.heapOpen (s : State) (owner base : Nat) : Bool := (s.homeDw owner base).getLsbD 31

/-- Capacity and count in a heap's header (R308). -/
def heapCap (d : Dword) : Nat := bits d 0 13
def heapCount (d : Dword) : Nat := bits d 16 13

/-- Whether an access of n bytes meets an open heap in a way that R309 refuses: a load may read the header. -/
def State.heapHit (s : State) (pa n : Nat) (load : Bool) : Bool :=
  s.heaps.any (fun e =>
    s.heapOpen e.2 e.1 && rangesMeet e.1 (64 + 8 * heapCap (s.homeDw e.2 e.1)) pa n &&
    !(load && decide (e.1 ≤ pa ∧ pa + n ≤ e.1 + 64)))

/-- Marks the conflict of a write to a line for every fence that watches it (R203). -/
def Crew.watchHit (c : Crew) (dev ln : Nat) : Crew :=
  { c with fence := c.fence.map (fun f => if f.read.contains (dev, ln) then { f with conflict := true } else f) }

def State.touch (s : State) (ln : Nat) : State :=
  { s with crews := s.crews.map (fun e => if e.2.fence.isSome then (e.1, e.2.watchHit s.devnum ln) else e) }

/-- The same for the crews of one core but one, for a line of any device. -/
def State.touchCore (s : State) (core dev ln : Nat) (but : Option Nat) : State :=
  { s with crews := s.crews.map (fun e =>
      if e.2.fence.isSome && e.2.core == core && some e.1 != but then (e.1, e.2.watchHit dev ln) else e) }

/-! Commutative ranges. -/

/-- The declared range a byte lies in, with its declaring die and its entry number (R106). -/
def State.rangeAt (s : State) (pa : Nat) : Option (Nat × Nat × CRange) :=
  s.ranges.findSome? (fun t => t.2.findSome? (fun e =>
    if e.2.base ≤ pa ∧ pa < e.2.base + e.2.len then some (t.1, e.1, e.2) else none))

/-- Bytes of an element of an operator: 0 add.f32, 1 add.bf16, 2 add.i32, 3 max.f32, 4 min.f32 (R107). -/
def operBytes (oper : Nat) : Nat := if oper = 1 then 2 else 4

/-- op(u, w) of R69. -/
def operComb (oper u w : Nat) : Nat :=
  match oper with
  | 0 => (f32.addC 0 u w).1
  | 1 => (bf16.addC 0 u w).1
  | 2 => (u + w) % 2 ^ 32
  | 3 => (f32.minmC true u w).1
  | _ => (f32.minmC false u w).1

/-- The address of a line's holder vector (R106). -/
def CRange.holderPa (r : CRange) (ln : Nat) : Nat := r.hbase + 16 * ((128 * ln - r.base) / 128)

/-- A line's holder vector. -/
def State.holders (s : State) (r : CRange) (ln : Nat) : Nat := leNat (s.homeRead r.howner (r.holderPa ln) 16)

/-- Writes a holder vector where the freeze table and the open heaps let it be written (R100, R119, R309). -/
def State.setHolders (s : State) (r : CRange) (ln v : Nat) : Except Nat State :=
  let pa := r.holderPa ln
  if s.frozenAt pa 16 then .error 11
  else if s.heapHit pa 16 false then .error 14
  else .ok ((s.homeWrite r.howner (maskedCells pa ((leBytes 16 v).map some)) false).touch (pa / 128))

/-- The lines of a core's L1. -/
def State.l1 (s : State) (core : Nat) : List Line := mgetD s.l1s core []
def State.setL1 (s : State) (core : Nat) (ls : List Line) : State := { s with l1s := mput s.l1s core ls }

/-- Whether an L1 line is a partial. -/
def Line.isPart (l : Line) : Bool := match l.kind with | .part _ => true | _ => false
def Line.isOrd (l : Line) : Bool := l.kind == .ordinary
def Line.isRep (l : Line) : Bool := match l.kind with | .replica _ => true | _ => false

/-- Whether a line is the one at a device and number. -/
def Line.at (l : Line) (dev ln : Nat) : Bool := l.dev == dev && l.ln == ln

/-- A core's partial of a line, in its L1 or in its die's pool (R109). -/
def State.partialOf (s : State) (die core ln : Nat) : Option Line :=
  match (s.l1 core).find? (fun l => l.isPart && l.at s.devnum ln) with
  | some l => some l
  | none => ((mgetD s.spills die []).find? (fun p => p.core == core && p.line.ln == ln)).map (·.line)

/-- Takes a core's partial of a line away. -/
def State.dropPartial (s : State) (die core ln : Nat) : State :=
  let s1 := s.setL1 core ((s.l1 core).filter (fun l => !(l.isPart && l.at s.devnum ln)))
  { s1 with spills := mmod s1.spills die (fun ps => ps.filter (fun p => !(p.core == core && p.line.ln == ln))) }

/-- The element at a byte of a line's data. -/
def lineElem (d : List Byte) (off n : Nat) : Nat := leNat ((d.drop off).take n)

/-- Combines the partials of a line into memory (R69, R110): the cores whose holder bit is set, ascending; POISON where a
partial's or memory's byte that takes part is marked (R112). The bits go and the partials go. A holder vector that lies in a
declared range itself is recalled first (R100), fuel bounding how deep. -/
def State.recallIn (fuel : Nat) (s0 : State) (die : Nat) (r : CRange) (ln : Nat) : Except Nat State :=
  match fuel with
  | 0 => .ok s0
  | n + 1 => do
    let s ← match s0.rangeAt (r.holderPa ln) with
      | none => (.ok s0 : Except Nat State)
      | some (d, _, q) => s0.recallIn n d q (r.holderPa ln / 128)
    let vec := s.holders r ln
    if vec = 0 then .ok s
    else
      let cores := ((List.range 128).filter (fun i => vec.testBit i)).map (fun i => 128 * die + i)
      let parts := cores.filterMap (fun c => s.partialOf die c ln)
      let k := operBytes r.oper
      let elems := (List.range (128 / k)).filter (fun i => parts.any (fun p => p.valid.getLsbD (i * k)))
      let bad := elems.any (fun i => s.poisoned (128 * ln + i * k) k ||
        parts.any (fun p => p.valid.getLsbD (i * k) && p.poison.getLsbD (i * k / 32)))
      if bad then .error 10
      else
        let cells := (elems.map (fun i =>
          let v := parts.foldl (fun v p =>
            if p.valid.getLsbD (i * k) then operComb r.oper v (lineElem p.data (i * k) k) else v)
            (leNat (s.homeRead r.owner (128 * ln + i * k) k))
          maskedCells (128 * ln + i * k) ((leBytes k v).map some))).flatten
        let s1 := (s.homeWrite r.owner cells false).touch ln
        (cores.foldl (fun s c => s.dropPartial die c ln) s1).setHolders r ln 0

/-- The recall of a line of a range: no chain of ranges is longer than the two tables. -/
def State.recall (s : State) (die : Nat) (r : CRange) (ln : Nat) : Except Nat State := s.recallIn 33 die r ln

/-- The recall that an access to a line's home makes first (R110). -/
def State.recallAt (s : State) (pa : Nat) : Except Nat State :=
  match s.rangeAt pa with
  | none => .ok s
  | some (die, _, r) => s.recall die r (pa / 128)

/-! Reads, writes and atomics at a home. -/

/-- A read of n bytes of one line at its home: HEAPOPEN or POISON of a recall, or the device, the bytes and their mark. -/
def State.homeLoad (s : State) (owner pa n : Nat) : Except Nat (State × List Byte × Bool) :=
  if s.heapHit pa n true then .error 14
  else
    match s.recallAt pa with
    | .error x => .error x
    | .ok s1 => .ok (s1, s1.homeRead owner pa n, s1.poisoned pa n)

/-- A read at its home that is no program's load: it meets HEAPOPEN in an open heap's header too (R309). -/
def State.homeEngine (s : State) (owner pa n : Nat) : Except Nat (State × List Byte × Bool) :=
  if s.heapHit pa n false then .error 14 else s.homeLoad owner pa n

/-- A write of bytes of one line at its home: FROZEN, HEAPOPEN, or the device after it. -/
def State.homeStore (s : State) (owner : Nat) (cells : List Host.Cell) (poisoned : Bool) : Except Nat State :=
  if cells.any (fun c => s.frozenAt c.1 1) then .error 11
  else if cells.any (fun c => s.heapHit c.1 1 false) then .error 14
  else
    match cells with
    | [] => .ok s
    | c :: _ =>
      match s.recallAt c.1 with
      | .error x => .error x
      | .ok s1 => .ok ((s1.homeWrite owner cells poisoned).touch (c.1 / 128))

/-- The bytes of an access width (R34); 7 is illegal. -/
def wtBytes (wt : BitVec 3) : Nat :=
  match wt.toNat with
  | 0 | 1 => 1
  | 2 | 3 => 2
  | 4 => 4
  | 5 => 8
  | _ => 16

/-- The new value of an atomic operation (R146). -/
def atomNew (opc wt old x y : Nat) : Nat :=
  let n := if wt = 5 then 64 else if wt = 4 then 32 else 16
  let f := if wt = 5 then f64 else if wt = 4 then f32 else bf16
  let sl := fun (a b : Nat) => decide (signed n a < signed n b)
  match opc with
  | 0 => (old + x) % 2 ^ n
  | 1 => if sl x old then x else old
  | 2 => if sl old x then x else old
  | 3 => min old x
  | 4 => max old x
  | 5 => old &&& x
  | 6 => old ||| x
  | 7 => old ^^^ x
  | 8 => x
  | 9 => if old = x then y else old
  | 10 => (f.addC 0 old x).1
  | 11 => (bf16.addC 0 (old % 65536) (x % 65536)).1 + (bf16.addC 0 (old / 65536) (x / 65536)).1 * 65536
  | 12 => (f.minmC false old x).1
  | _ => (f.minmC true old x).1

/-- One element of an atomic at its home (R147): the old value and the device after it. -/
def State.atomOne (s : State) (opc wt : Nat) (owner pa n : Nat) (x y : Dword) : State × Nat :=
  let old := leNat (s.homeRead owner pa n)
  let m := 2 ^ (8 * n)
  let v := atomNew opc wt old (x.toNat % m) (y.toNat % m)
  (s.homeWrite owner (maskedCells pa ((leBytes n v).map some)) false, old)

/-- One lane of an atomic as its home performs it. -/
structure AtomAcc where
  lane  : Nat
  owner : Nat
  pa    : Nat
  n     : Nat
  x     : Dword
  y     : Dword
deriving DecidableEq, Repr

/-- The lanes of one atomic at one line (R147), ascending, each under the owner of its page: the old value of each. -/
def State.homeAtom (s : State) (opc wt : Nat) (accs : List AtomAcc) : Except Nat (State × List (Nat × Nat)) :=
  if accs.any (fun a => s.frozenAt a.pa a.n) then .error 11
  else if accs.any (fun a => s.heapHit a.pa a.n false) then .error 14
  else
    match accs with
    | [] => .ok (s, [])
    | a :: _ =>
      match s.recallAt a.pa with
      | .error x => .error x
      | .ok s1 =>
        if accs.any (fun a => s1.poisoned a.pa a.n) then .error 10
        else
          let r := accs.foldl (fun (r : State × List (Nat × Nat)) a =>
            let o := r.1.atomOne opc wt a.owner a.pa a.n a.x a.y
            (o.1, r.2 ++ [(a.lane, o.2)])) (s1, [])
          .ok (r.1.touch (a.pa / 128), r.2)

/-- A Gazetteer register at an offset (R15 to R20, R503): a read of any other offset gives zero. -/
def State.gazReg (s : State) (off : Nat) : Dword :=
  match off with
  | 0x00 => Config.gzid
  | 0x08 => Config.gzisa
  | 0x10 => Config.feat0.setWidth 64
  | 0x18 => Config.feat1.setWidth 64
  | 0x30 => BitVec.ofNat 64 (s.podsize * 2 ^ 16 + s.devnum)
  | 0x38 => s.gzgen.setWidth 64
  | 0x40 => s.gzcla
  | 0x50 => Config.uid0
  | 0x58 => Config.uid1
  | off =>
    if 0x1000 ≤ off ∧ off < 0x1800 then mgetD s.gzcore ((off - 0x1000) / 8) 0x888888888
    else if 0x2000 ≤ off ∧ off < 0x2400 then BitVec.ofNat 64 (mgetD s.gzslice ((off - 0x2000) / 8) 16)
    else 0

/-- n bytes of the Gazetteer (R15). -/
def State.gazRead (s : State) (off n : Nat) : List Byte :=
  (List.range n).map (fun i => (leBytes 8 (s.gazReg ((off + i) / 8 * 8)).toNat).getD ((off + i) % 8) 0)

/-! The L1 (R94 to R97). -/

/-- The usable ways of a core's L1 (R19, R94). -/
def State.l1Ways (s : State) (core : Nat) : Nat := 2 * bits (mgetD s.gzcore core 0x888888888) 32 4

/-- The line at a device and number in a core's L1. -/
def State.l1Find (s : State) (core dev ln : Nat) : Option Line := (s.l1 core).find? (fun l => l.at dev ln)

/-- The bytes a mask of a line lets through. -/
def maskBytes (m : BitVec 128) (d : List Byte) : List (Option Byte) :=
  d.zipIdx.map (fun e => if m.getLsbD e.2 then some e.1 else none)

/-- A mask of n bytes from an offset. -/
def byteMask (off n : Nat) : BitVec 128 := BitVec.ofNat 128 ((2 ^ n - 1) * 2 ^ off)

/-- Sends an ordinary line's dirty bytes to its home in one message (R96). -/
def State.sendDirty (s : State) (core : Nat) (l : Line) : State :=
  if l.dirty = 0 then s
  else
    let tag : QTag := l.tag.getD { crew := crewSlot core 0, ctx := 0, entry := 0, pc := 0, va := 0 }
    let m : Msg := { id := s.opSeq, tag := tag, op := 0, core := core, ln := l.ln, owner := l.owner,
                     kind := .writeBack l.dirty l.data l.marks l.whole, held := none }
    { s with opSeq := s.opSeq + 1, net := s.net ++ [m] }

/-- A fault that a home finds for a queued access (R144): the crew's where it is there, else the context's. -/
def State.queueFault (s : State) (t : QTag) (f : FaultRec) : State :=
  match mget s.crews t.crew with
  | some c =>
    if c.ctx = t.ctx then s.crewFault t.crew f
    else s.raiseLine t.ctx (Cause.none.add causeFault f.xlc) none
  | none => s.raiseLine t.ctx (Cause.none.add causeFault f.xlc) none

/-- Recalls the line of a partial; a combine that meets a marked byte, or a vector that may not be written, is a fault of the crew
that stored the partial last (R91, R100, R112). -/
def State.recallLine (s : State) (l : Line) (forced : Bool) : State :=
  match s.rangeAt (128 * l.ln) with
  | none => s
  | some (d, i, r) =>
    let t : State := if forced then { s with ranges := mmod s.ranges d (fun m => mmod m i (fun r => { r with forced := true })) } else s
    match t.recall d r l.ln with
    | .ok u => u
    | .error x =>
      match l.tag with
      | some g => t.queueFault g { xlc := x, pc := g.pc, va := g.va, fent := g.leaf, aclass := 3, level := g.level, flane := 0 }
      | none => t

/-- Recalls spilled lines of a die, the oldest first, until one has gone (R109): its range's CRFORCED bit is set. One whose hold
message has not been performed stays (R108), and so does one whose combine faults. -/
def State.forceRecall (s : State) (die : Nat) (pool : List Spill) : State :=
  match pool with
  | [] => s
  | p :: rest =>
    if s.net.any (fun m => m.kind == .hold && m.core == p.core && m.ln == p.line.ln) then s.forceRecall die rest
    else
      let u := s.recallLine p.line true
      if (mgetD u.spills die []).contains p then u.forceRecall die rest else u

/-- Spills a partial to its declaring die's pool (R109); where the pool is full the oldest spilled line is recalled first. DESIGN
CHOICE: the rule does not say which slice a spilled line takes, so the pool is full when the die's 16,384 places are. Log entry
123. -/
def State.spill (s : State) (core : Nat) (l : Line) : State :=
  let die := core / 128
  let pool := mgetD s.spills die []
  let s1 := if pool.length < 16384 then s else s.forceRecall die pool
  { s1 with spills := mput s1.spills die (mgetD s1.spills die [] ++ [{ core := core, line := l }]) }

/-- Remembers that a line left an L1, for the lost-locality count (R433): 512 tags with the crew that filled each. -/
def State.remember (s : State) (core : Nat) (l : Line) : State :=
  let old := mgetD s.victims core []
  { s with victims := mput s.victims core ((if old.length < 512 then old else old.drop 1) ++ [(l.dev, l.ln, l.filler)]) }

/-- A load miss that matches another crew's victim tag is a lost-locality event (R433). -/
def State.noteMiss (s : State) (core dev ln crew : Nat) : State :=
  if (mgetD s.victims core []).any (fun v => v.1 == dev && v.2.1 == ln && v.2.2 != crew) then
    { s with lost := mput s.lost core (mgetD s.lost core 0 + 1) }
  else s

/-- A line leaves an L1 (R96, R109); a watched one is a conflict (R203). -/
def State.evict (s : State) (core : Nat) (l : Line) : State :=
  let s1 := s.setL1 core ((s.l1 core).filter (fun x => x != l))
  let s2 := (s1.touchCore core l.dev l.ln none).remember core l
  if l.isPart then s2.spill core l else s2.sendDirty core l

/-- Puts a line into a core's L1 in the place of its copy, as the newest or as the next victim, the oldest line of its set
leaving a full one (R94, R137; log entry 11). A line falls in the set of its line number modulo 128, whatever its device (log entry
110). -/
def State.l1Put (s : State) (core : Nat) (l : Line) (next : Bool) : State :=
  let rest := (s.l1 core).filter (fun x => !x.at l.dev l.ln)
  let s1 := s.setL1 core (if next then l :: rest else rest ++ [l])
  let inSet := (s1.l1 core).filter (fun x => x.ln % 128 == l.ln % 128)
  if inSet.length ≤ s1.l1Ways core then s1
  else
    match (inSet.filter (fun x => x != l)).head? with
    | some v => s1.evict core v
    | none => s1.evict core l

/-- An access of another owner misses on a copy: its dirty bytes go home under its own owner, and it goes (R89). -/
def State.ownerCheck (s : State) (core dev ln owner : Nat) : State :=
  match s.l1Find core dev ln with
  | some l => if l.owner ≠ owner ∧ !l.isPart then s.evict core l else s
  | none => s

/-- The clean copy that the reply to a request will leave in the L1. -/
def PeerReq.copy (r : PeerReq) : Line :=
  { dev := r.dev, ln := r.pa / 128, owner := r.owner, valid := BitVec.allOnes 128, dirty := 0, kind := .ordinary, tag := none,
    poison := 0, marks := 0, filler := r.crew, data := List.replicate 128 0 }

/-- Clean copies of a core that are still on their way are not kept where what makes them stale comes first: a store of the
core (R97), R99's invalidation, or an acquire's (R98); their loads still take the data they were sent. -/
def State.noFill (s : State) (core : Nat) (p : Line → Bool) : State :=
  { s with peerReqs := s.peerReqs.map (fun r =>
      if r.fill && ((mget s.crews r.crew).map (fun c => c.core == core)).getD false && p r.copy
      then { r with fill := false } else r) }

/-- The same for every core, where the device gives up what a peer's memory has given it (R116, R121, R477). -/
def State.noFills (s : State) (p : Line → Bool) : State :=
  { s with peerReqs := s.peerReqs.map (fun r => if r.fill && p r.copy then { r with fill := false } else r) }

/-- Writes back a line's dirty bytes and drops its clean ones (R99). -/
def State.l1Flush (s : State) (core dev ln : Nat) : State :=
  let s1 := s.noFill core (fun l => l.at dev ln)
  match s1.l1Find core dev ln with
  | some l => if l.isOrd then s1.evict core l else s1
  | none => s1

/-- Writes the bytes that one store leaves in a line into the L1 (R95), in the issuing crew's tag: bs are the line's bytes that it
writes, bad the sectors it marks; a sector that it covers whole loses its poison, and one that it covers in part keeps it (R91). -/
def State.l1Write (s : State) (core ln owner : Nat) (tag : QTag) (bs : List (Option Byte)) (bad : BitVec 4) (next : Bool) : State :=
  let s := s.ownerCheck core s.devnum ln owner
  let old : Line := (s.l1Find core s.devnum ln).getD
    { dev := s.devnum, ln := ln, owner := owner, valid := 0, dirty := 0, kind := .ordinary, tag := none, poison := 0, marks := 0,
      filler := tag.crew, data := List.replicate 128 0 }
  let m := bs.zipIdx.foldl (fun (m : BitVec 128) e => if e.1.isSome then m ||| byteMask e.2 1 else m) 0
  let data := old.data.zipIdx.map (fun e => (bs.getD e.2 none).getD e.1)
  let whole : BitVec 4 := (List.range 4).foldl (fun (b : BitVec 4) k =>
    if m &&& byteMask (32 * k) 32 = byteMask (32 * k) 32 then b ||| BitVec.ofNat 4 (2 ^ k) else b) 0
  s.l1Put core { old with valid := old.valid ||| m, dirty := old.dirty ||| m, tag := some tag, data := data,
                          poison := (old.poison &&& ~~~whole) ||| bad, marks := (old.marks &&& ~~~whole) ||| bad,
                          whole := old.whole ||| whole } next

/-- A line that a core's L1 takes in, or asks a peer for, while a fence of one of its crews is in progress is watched for that
fence: a later load of the crew may take the copy, and must not find it older than the fence's end (R195, R201, R203). -/
def State.watchFill (s : State) (core dev ln : Nat) : State :=
  { s with crews := s.crews.map (fun e =>
      if e.2.fence.isSome && e.2.core == core && !e.2.surv then
        (e.1, { e.2 with fence := e.2.fence.map (fun f => { f with read := (f.read ++ [(dev, ln)]).eraseDups }) })
      else e) }

/-- Fills a line from what its home gave: only bytes that are not dirty (R95), and no mark of a sector that one store of this core
has covered (R91). -/
def State.l1Fill (s : State) (core crew dev ln owner off : Nat) (bs : List Byte) (kind : LineKind) (poison : BitVec 4)
    (next : Bool) : State :=
  let old : Line := (s.l1Find core dev ln).getD
    { dev := dev, ln := ln, owner := owner, valid := 0, dirty := 0, kind := kind, tag := none, poison := 0, marks := 0,
      filler := crew, data := List.replicate 128 0 }
  let m := byteMask off bs.length
  let data := old.data.zipIdx.map (fun e =>
    if off ≤ e.2 ∧ e.2 < off + bs.length ∧ !old.dirty.getLsbD e.2 then bs.getD (e.2 - off) 0 else e.1)
  let new : Line := { old with
    valid := old.valid ||| m, data := data, poison := old.poison ||| (poison &&& ~~~old.whole)
    kind := if old.dirty = 0 then kind else old.kind }
  (s.watchFill core dev ln).l1Put core new next

/-- Whether a core has a message on its way to a line's home: a later access of the core to that line follows it. -/
def State.inNet (s : State) (core ln : Nat) : Bool := s.net.any (fun m => m.core == core && m.ln == ln)

/-- Poison marks of a line's four sectors at the home. -/
def State.linePoison (s : State) (ln : Nat) : BitVec 4 :=
  (List.range 4).foldl (fun (b : BitVec 4) i => if s.poisoned (128 * ln + 32 * i) 32 then b ||| BitVec.ofNat 4 (2 ^ i) else b) 0

/-! Requests to peers and to the host. -/

/-- The queue tag of an instruction of a crew (R141). -/
def Crew.tag (c : Crew) (id : Nat) (pc va : Dword) (leaf : Dword := 0) (level : Nat := 0) : QTag :=
  { crew := id, ctx := c.ctx, entry := c.entry, pc := pc, va := va, leaf := leaf, level := level }

/-- The tag of a request of an engine, a fetch or a collective: its requester, context and address, and the leaf that mapped it. -/
def engTag (who ctx : Nat) (va : Dword) (leaf : Dword := 0) (level : Nat := 0) : QTag :=
  { crew := who, ctx := ctx, entry := 0, pc := 0, va := va, leaf := leaf, level := level }

/-- Sends a request to a peer (R149), whose reply may fill a line; its number. -/
def State.askPeer (s : State) (t : QTag) (op lane dev pa owner : Nat) (what : PeerOp) (fill : Bool := false)
    (lanes : List Nat := []) : State × Nat :=
  let r : PeerReq := { id := s.opSeq, tag := t, dev := dev, crew := t.crew, op := op, lane := lane, pa := pa, owner := owner,
                       what := what, held := none, lanes := lanes, fill := fill }
  ({ s with opSeq := s.opSeq + 1, peerReqs := s.peerReqs ++ [r], outbox := s.outbox ++ [.peer r] }, s.opSeq)

/-- The datagram of a host-window request (R474): a header of 32 bytes, and what a write writes. -/
def HostReq.datagram (r : HostReq) : List Byte :=
  leBytes 8 (r.reqid.toNat * 2 ^ 32 + (if r.write then 2 else 1) * 2 ^ 24 + r.len % 256 * 2 ^ 16 + r.ctx % 256 * 2 ^ 8) ++
  leBytes 8 (r.off % 2 ^ 44) ++ leBytes 8 (r.core % 2 ^ 16 * 2 ^ 16 + r.crewid % 2 ^ 16) ++ leBytes 8 0 ++
  (if r.write then r.data.take r.len else [])

/-- Numbers a host-window request and sends it where its identity's session is open (R473, R474). -/
def State.sendHost (s : State) (r : HostReq) : State :=
  match mget s.sessions r.ident with
  | none => { s with hostReqs := s.hostReqs ++ [r] }
  | some n =>
    let q := { r with reqid := n.reqid, sent := true, sess := n.num }
    { s with hostReqs := s.hostReqs ++ [q], outbox := s.outbox ++ [.hostReq q.ident q.datagram],
             sessions := mput s.sessions r.ident { n with reqid := n.reqid + 1 } }

/-- The requester of the management core's reads. -/
def mgmtWho : Nat := 655360

/-- The requesters that a crew's fetches and its save-area writes carry, which no crew's key reaches. -/
def fetchWho (id : Nat) : Nat := 1099511627776 + id
def saveWho (id : Nat) : Nat := 2199023255552 + id

/-- The key of the crew that a requester stands for. -/
def crewOf (who : Nat) : Nat :=
  if saveWho 0 ≤ who then who - saveWho 0 else if fetchWho 0 ≤ who then who - fetchWho 0 else who

/-- Whether a requester is an engine of the device: a chain's, a cluster's, a collective's, the management core, or the writer of completion records. -/
def isEngine (who : Nat) : Bool := decide (262144 ≤ who ∧ who < 1048576)

/-- The core and CREWID of a requester's crew (R317, R460), which may be gone. DESIGN CHOICE: an engine has CORE and CREWID 0. Log
entry 125. -/
def State.placeOf (s : State) (who : Nat) : Nat × Nat :=
  let id := crewOf who
  match mget s.crews id with
  | some c => (c.core, c.crewid)
  | none =>
    if isEngine who then (0, 0)
    else if 65536 ≤ id ∧ id < 65600 ∨ 4294967296 ≤ id then (4 * (id % 65536), 256 + id % 32)
    else (id % 65536 / 256, id % 256)

/-- A host-window access of a lane; its number. DESIGN CHOICE: an engine has CORE and CREWID 0. Log entry 125. -/
def State.askHost (s : State) (t : QTag) (op lane off len : Nat) (write : Bool) (data : List Byte) : State × Nat :=
  let ident := ((mget s.ctxs t.ctx).map (·.ident)).getD 0
  let r : HostReq := { id := s.opSeq, tag := t, reqid := 0, ident := ident, ctx := t.ctx, crew := t.crew, op := op, lane := lane,
                       write := write, len := len, off := off, data := data, sent := false, held := none,
                       core := (s.placeOf t.crew).1, crewid := (s.placeOf t.crew).2 }
  ({ s with opSeq := s.opSeq + 1 }.sendHost r, s.opSeq)

end Sys2Proof.Machine
end

