-- ==== Sys2Proof/Machine/Issue.lean ====
section
/-!
DEFINITION. One issue slot of a crew: who may execute an opcode (R46, R318, R387), the guard (R25), the order of the
events of one instruction (R437), a trap in a helper (R390), the limits of a speculative fence (R202), ages (R403),
windows (R26), and the path table's spills (R401).
-/

namespace Sys2Proof

/-- GRD 12, 13 and 14 are illegal (R24). -/
def Guard.ok (g : Guard) : Bool := decide (g.grd.toNat < 12 ∨ g.grd = 15)

/-- The guard that a form without one has. -/
def Guard.always : Guard := { grd := 15, sns := false }

end Sys2Proof

namespace Sys2Proof.Machine

/-- Opcodes the surveyor executes (R318); compact and short forms carry their long form's opcode. -/
def survOpc (o : Nat) : Bool :=
  decide (o ≤ 0x23) || decide (0x70 ≤ o ∧ o ≤ 0x7C) || decide (0x81 ≤ o ∧ o ≤ 0x86) ||
  decide (0xA0 ≤ o ∧ o ≤ 0xA6) || decide (0xB0 ≤ o ∧ o ≤ 0xB6) || decide (0xC0 ≤ o ∧ o ≤ 0xCA ∧ o ≠ 0xC8) ||
  decide (0xD0 ≤ o ∧ o ≤ 0xD9) || decide (0xED ≤ o)

/-- Opcodes a helper executes (R387). -/
def helpOpc (o : Nat) : Bool :=
  decide (o ≤ 0x58 ∧ o ≠ 0x55 ∧ o ≠ 0x56) || decide (0x70 ≤ o ∧ o ≤ 0x7A ∧ o ≠ 0x73) || decide (0x80 ≤ o ∧ o ≤ 0x86) ||
  decide (0xA0 ≤ o ∧ o ≤ 0xA4) || o == 0xD0 || o == 0xD1 || o == 0xD5 || o == 0xD6 || o == 0xD8 || o == 0xE6 ||
  decide (0xF0 ≤ o)

/-- Opcodes a vector crew does not execute (R318). -/
def vecOpc (o : Nat) : Bool := !(decide (0xC0 ≤ o ∧ o ≤ 0xC6))

/-- Whether a party may execute an opcode at all (R46). -/
def Crew.roleOk (c : Crew) (o : Nat) : Bool :=
  if c.surv then survOpc o else if c.isHelper then helpOpc o && vecOpc o else vecOpc o

/-- Opcodes before which a speculative fence stops (R202), beside what the instruction's own events stop. Those that R202 does not
list, 0xC0 to 0xC3, 0xC5, 0xC9, 0xCA, 0xE7 and 0xEF, change what R203's rollback does not return: they wait too (log entry 35). -/
def fenceStops (o : Nat) : Bool :=
  o == 0x7B || o == 0x81 || decide (0x84 ≤ o ∧ o ≤ 0xCA ∧ o ≠ 0xC8) || o == 0xD7 || o == 0xD9 ||
  decide (0xE0 ≤ o ∧ o ≤ 0xEF ∧ o ≠ 0xEE)

/-- Opcodes that only crews of the load set issue (R433). -/
def loadOpc (o : Nat) : Bool := o == 0x80 || o == 0x82 || o == 0x83 || o == 0x84 || o == 0x85

/-- A party that may issue: its context runs, it is not waiting, evicted or complete, it is in the active set, and no VREST
holds it (R241). -/
def State.canIssue (s : State) (c : Crew) : Bool :=
  (match mget s.ctxs c.ctx with | some x => !x.halted | none => false) &&
  !c.evicted && !c.done && c.wait.isNone && c.active && c.loads.all (fun l => l.vrest.isNone)

/-- The cluster of a core (R10). -/
def clusterOf (core : Nat) : Nat := core / 4

/-- Whether a crew sits on a collective partition of its context (R366, R367). -/
def State.onCollective (s : State) (c : Crew) : Bool :=
  match mget s.ctxs c.ctx with
  | some x => x.collClus.contains (clusterOf c.core)
  | none => false

/-- The crews of a core's partition (R460: CREWID is partition × 32 plus the resident index). -/
def State.partCrews (s : State) (core part : Nat) : List (Nat × Crew) :=
  s.crews.filter (fun e => decide (e.1 < 65536) && e.2.core == core && e.2.crewid / 32 == part && !e.2.evicted)

/-- Whether a partition's load set has room (R433). -/
def State.loadRoom (s : State) (c : Crew) : Bool :=
  decide (((s.partCrews c.core (c.crewid / 32)).filter (fun e => e.2.loadSet)).length < mgetD s.loadLim c.core 8)

/-- The guard's lanes of the running path (R25); none where the predicate is still owed (R26). -/
def Crew.guardLanes (c : Crew) (g : Guard) (mask : Lanes) : Lanes :=
  if g.grd = 15 then mask
  else if g.sns then mask &&& ~~~(c.pred g.grd.toNat) else mask &&& c.pred g.grd.toNat

/-- What an instruction leaves: the device, the crew, and whether the running path goes on at the next instruction. -/
structure Rsl where
  s   : State
  c   : Crew
  adv : Bool
deriving DecidableEq, Repr

/-- Takes lanes out of every path of a crew; empty paths go. -/
def Crew.dropLanes (c : Crew) (m : Lanes) : Crew :=
  { c with paths := (c.paths.map (fun p => { p with mask := p.mask &&& ~~~m })).filter (fun p => p.mask != 0) }

/-- Takes lanes out of every pending result. -/
def Crew.forget (c : Crew) (m : Lanes) : Crew :=
  { c with pends := c.pends.map (fun p => { p with dests := p.dests.map (fun x => { x with lanes := x.lanes &&& ~~~m }) }) }

/-- Releases helper lanes: they leave the group (R386, R389). -/
def Crew.freeHelpers (c : Crew) (m : Lanes) : Crew :=
  let d : Crew := (c.dropLanes m).forget m
  { d with hgroup := d.hgroup.map (fun h => { h with lanes := h.lanes.filter (fun l => !m.getLsbD l.lane) }), fbuf := [] }

/-- Helper lanes that a group no longer holds have left: a group without lanes is over, its flags kept (R388, R389). -/
def State.groupEnd (s : State) (id : Nat) : State :=
  match mget s.crews id with
  | none => s
  | some c =>
    match c.hgroup with
    | none => s
    | some h =>
      if !h.lanes.isEmpty then s
      else
        let s1 := s.modCrew h.recruiter (fun r =>
          { r with recruit := r.recruit.map (fun q => { q with flags := q.flags ||| c.fpflags.setWidth 5, groups := q.groups.filter (fun g => g != id) }) })
        s1.modCrew id (fun c => { c with done := true, fpflags := 0 })

/-- Puts the running path at other places: the child of its lowest lane goes on running, the others begin anew (R404). -/
def Crew.splitTo (c : Crew) (p : Path) (groups : List (Dword × Lanes)) : Crew :=
  let gs := groups.filter (fun g => g.2 != 0)
  let low := (lowest (gs.foldl (fun (m : Lanes) g => m ||| g.2) 0)).getD 0
  let rest := c.paths.filter (fun q => !q.run)
  { c with paths := rest ++ gs.map (fun g =>
      if g.2.getLsbD low then { p with pc := g.1, mask := g.2, run := true } else newPath g.1 g.2 p.frame false) }

/-- A trap in helper lanes is a helper error of each (R390): the iteration stops without contribution, the lane is
released, the counter closes, and the error waits for the recruiter's HJOIN. A trap that names its lanes is those lanes'
(log entry 38); the others of the path stand at the instruction still. -/
def State.helperTrap (s : State) (id : Nat) (t : Trap) : State :=
  match mget s.crews id with
  | none => s
  | some c =>
    match c.hgroup, c.running with
    | some h, some p =>
      let m := t.tm.getD (if t.lmask &&& p.mask = 0 then p.mask else t.lmask &&& p.mask)
      let crewid := ((mget s.crews h.donor).map (·.crewid)).getD 0
      let errs := (laneList m).map (fun l =>
        ({ iter := ((h.lanes.find? (fun (x : HLane) => x.lane == l)).bind (·.iter)).getD 0, cls := t.cls, sub := t.sub,
           slot := crewid, lane := l } : HelpErr))
      let before : Path := { p with mask := p.mask &&& ~~~m }
      let c1 := ((c.freeHelpers m).settle.switchFrom (some before)).closeWindows
      ((s.setCrew id c1).modCrew h.recruiter (fun r =>
        { r with recruit := r.recruit.map (fun q => { q with closed := true, waiting := [], errs := q.errs ++ errs }) })).groupEnd id
    | _, _ => s

/-- The operand field of an illegal operand that is none of the four designators of R435 is an open value: 4 stands for
it, and a free value of two bits is recorded (log entry 26). -/
def State.openField (s : State) (t : Trap) : State × Trap :=
  if t.cls = 6 && t.aux0 = 4 then
    let f := s.freshFree
    (f.1, { t with aux0 := f.2 &&& 3 })
  else (s, t)

/-- The bytes of a path record (R402). -/
def Path.record (p : Path) : List Byte :=
  leBytes 8 (p.pc.toNat / 2 * 2 % 2 ^ 57) ++ leBytes 8 p.mask.toNat ++
  leBytes 8 (p.frame * 2 ^ 28 + p.tok * 2 ^ 24 + (if p.run then 2 ^ 17 else 0) + (if p.wait then 2 ^ 16 else 0) + p.age) ++
  leBytes 8 0

/-- A crew's slot (R460): a helper group has its donor's. -/
def Crew.slot (c : Crew) : Nat := if c.surv then survSlot (c.core / 4) else crewSlot c.core c.crewid

/-- The save area of a crew's slot (R460): a helper group's paths share its donor's. -/
def State.saveSlot (s : State) (c : Crew) : Dword :=
  match mget s.ctxs c.ctx with
  | none => 0
  | some x => x.saveva + BitVec.ofNat 64 (c.slot * x.savestride * 65536)

/-- The path-spill region takes the last 10 KiB of the slot (R460). -/
def State.spillRegion (s : State) (c : Crew) : Dword :=
  match mget s.ctxs c.ctx with
  | none => 0
  | some x => s.saveSlot c + BitVec.ofNat 64 (x.savestride * 65536 - 10240)

/-- A write by a translation that has succeeded, performed at once at its home, where it may be refused; one to a peer or to the
host window is sent, and one to the Gazetteer is ignored (R15). -/
def State.writeTarget (s : State) (tag : QTag) (die : Nat) (t : Target) (owner : Nat) (bs : List Byte) (poisoned : Bool) :
    Except Nat State :=
  match t with
  | .hbm pa => if !s.reach die pa then .error 17 else s.homeStore owner (maskedCells pa (bs.map some)) poisoned
  | .peer dev pa =>
    if !s.peerPath dev then .error 17
    else .ok (if bs.isEmpty then s else (s.askPeer tag 0 0 dev pa owner (.write (bs.map some) poisoned)).1)
  | .host off =>
    .ok ((List.range ((bs.length + 15) / 16)).foldl (fun (s : State) i =>
      let part := (bs.drop (16 * i)).take 16
      (s.askHost tag 0 0 (off + 16 * i) part.length true part).1) s)
  | .gaz _ => .ok s

/-- Writes bytes that lie in one line at a virtual address for the save class; the fault of R460 where it fails. -/
def State.saveWrite (s : State) (id : Nat) (c : Crew) (va : Dword) (bs : List Byte) (poisoned : Bool) : Except FaultRec State :=
  match s.translate c.unit c.ctx va .save with
  | (_, .error x) =>
    .error { xlc := x.xlc, pc := c.pc, va := va, fent := x.ent, aclass := 10, level := x.level, flane := 0 }
  | (s1, .ok x) =>
    let tag : QTag := { crew := saveWho id, ctx := c.ctx, entry := c.entry, pc := c.pc, va := va, leaf := x.leaf, level := x.level }
    match s1.writeTarget tag (c.core / 128) x.tgt x.owner bs poisoned with
    | .error e => .error { xlc := e, pc := c.pc, va := va, fent := x.leaf, aclass := 10, level := x.level, flane := 0 }
    | .ok s2 => .ok s2

/-- Reads bytes of a sector at a virtual address for the save class, with the fault of a poisoned one: none where the place keeps its bytes outside this device, and
the device uses what it wrote there (log entry 40). -/
def State.saveFetch (s : State) (c : Crew) (va : Dword) (n : Nat) : Except FaultRec (State × Option (List Byte × Option FaultRec)) :=
  let bad := fun xlc (t : Xlate) =>
    ({ xlc := xlc, pc := c.pc, va := va, fent := t.leaf, aclass := 10, level := t.level, flane := 0 } : FaultRec)
  match s.translate c.unit c.ctx va .save with
  | (_, .error x) => .error { xlc := x.xlc, pc := c.pc, va := va, fent := x.ent, aclass := 10, level := x.level, flane := 0 }
  | (s1, .ok t) =>
    match t.tgt with
    | .hbm pa =>
      if !s1.reach (c.core / 128) pa then
        .error (bad 17 t)
      else .ok (s1, some (s1.homeRead t.owner pa n, if s1.poisoned pa n then some (bad 10 t) else none))
    | .gaz off => .ok (s1, some (s1.gazRead off n, none))
    | _ => .ok (s1, none)

/-! The path table (R401). DESIGN CHOICE: the device keeps a spilled path's mask, age, token and frame itself and takes from its
record the PC alone, which a host may have edited (R402). Log entry 118. -/

/-- The place of a path's record (R401). -/
def State.spillPlace (s : State) (c : Crew) (p : Path) : Dword := s.spillRegion c + BitVec.ofNat 64 (2048 * p.frame + 32 * p.first)

/-- Whether two paths have one record: the same frame and first lane. -/
def Path.sameSlot (p q : Path) : Bool := p.frame == q.frame && p.first == q.first

/-- The PC that a record gives back: its bits 56:0, or the path's own where the record is as the device wrote it (R402). -/
def Path.rereadPc (p : Path) (v : Nat) : Path :=
  if v % 2 ^ 57 = p.pc.toNat / 2 * 2 % 2 ^ 57 then p else { p with pc := BitVec.ofNat 64 (v % 2 ^ 57) }

/-- Whether a path stood in the table before (R401): an entry of it has its lowest lane that is left there in the path. -/
def Path.inTable (p : Path) (old : List Path) (left : Lanes) : Bool :=
  old.any (fun o => !o.spilled && o.frame == p.frame &&
    (match lowest (o.mask &&& left) with | some l => p.mask.getLsbD l | none => false))

/-- The path that leaves a full table (R401): of those of the table that do not run, the greatest AGE, then the lowest first lane. -/
def spillVictim (ps : List Path) : Option Path :=
  (ps.filter (fun p => !p.run)).foldl (fun best p =>
    match best with
    | none => some p
    | some b => if b.age < p.age ∨ (b.age = p.age ∧ p.first < b.first) then some p else some b) none

/-- Writes a path's record and takes the path out of the table (R401); a failure is the crew's fault. -/
def State.spillOut (s : State) (id : Nat) (c : Crew) (p : Path) : State :=
  match s.saveWrite id c (s.spillPlace c p) p.record false with
  | .error f => s.crewFault id f
  | .ok s1 => s1.modCrew id (fun d => { d with paths := d.paths.map (fun q => if q = p then { q with spilled := true } else q) })

/-- Clears the MASK of a record that no spilled path has (R401). -/
def State.spillClear (s : State) (id : Nat) (c : Crew) (p : Path) : State :=
  match s.saveWrite id c (s.spillPlace c p + 8) (leBytes 8 0) false with
  | .error f => s.crewFault id f
  | .ok s1 => s1

/-- Reads a path back into the table: its PC from the record, whose MASK becomes 0 (R401). -/
def State.spillIn (s : State) (id : Nat) (c : Crew) (p : Path) : State :=
  match s.saveFetch c (s.spillPlace c p) 8 with
  | .error f => s.crewFault id f
  | .ok (_, some (_, some f)) => s.crewFault id f
  | .ok (s1, r) =>
    let q := match r with | some (bs, _) => p.rereadPc (leNat bs) | none => p
    (s1.modCrew id (fun d => { d with paths := d.paths.map (fun x => if x = p then { q with spilled := false } else x) })).spillClear id c p

/-- One entry of the table is freed where it is full: tbl are the paths of the table. -/
def State.spillRoom (s : State) (id : Nat) (c : Crew) (tbl : List Path) : State × List Path :=
  if tbl.length < 8 then (s, tbl)
  else
    match spillVictim tbl with
    | none => (s, tbl)
    | some v => (s.spillOut id c v, tbl.filter (fun p => !p.sameSlot v))

/-- Records of spilled paths that have gone or changed since (R401). -/
def State.spillSync (s : State) (id : Nat) (c : Crew) (old : List Path) : State :=
  let was := old.filter (·.spilled)
  let now := c.paths.filter (·.spilled)
  let s1 := (was.filter (fun o => !now.any (fun p => p.sameSlot o))).foldl (fun (s : State) o => s.spillClear id c o) s
  (now.filter (fun p => !was.any (fun o => { o with age := p.age } == p))).foldl (fun (s : State) p =>
    match s.saveWrite id c (s.spillPlace c p) p.record false with
    | .error f => s.crewFault id f
    | .ok t => t) s1

/-- Whether spillFix has a record to write or to read. -/
def Crew.spillWork (c : Crew) (old : List Path) : Bool :=
  let was := old.filter (·.spilled)
  let now := c.paths.filter (·.spilled)
  was.any (fun o => !now.any (fun p => p.sameSlot o)) || now.any (fun p => p.run || !was.any (fun o => { o with age := p.age } == p)) ||
  decide (8 < (c.paths.filter (fun p => !p.spilled)).length)

/-- Keeps the path table at eight paths after an issue slot (R401): paths that were not in it enter in the order of their first
lanes, and a spilled path that runs is read back. -/
def State.spillFix (s : State) (id : Nat) (old : List Path) : State :=
  match mget s.crews id with
  | none => s
  | some c =>
    if c.paths.length ≤ 8 ∧ (c.paths ++ old).all (fun p => !p.spilled) then s
    else
      let left := c.paths.foldl (fun (m : Lanes) p => m ||| p.mask) 0
      let res := c.paths.filter (fun p => !p.spilled)
      let tbl := res.filter (fun p => p.inTable old left)
      let ents := (List.range 64).foldl (fun (l : List Path) i =>
        l ++ (res.filter (fun p => p.first == i && !p.inTable old left))) []
      let s0 := s.spillSync id c old
      let r := ents.foldl (fun (r : State × List Path) e =>
        let o := r.1.spillRoom id c r.2
        (o.1, o.2 ++ [e])) (s0, tbl)
      let r := if 8 < r.2.length then r.1.spillRoom id c r.2 else r
      match c.paths.find? (fun p => p.run && p.spilled) with
      | none => r.1
      | some p => ((r.1.spillRoom id c r.2).1).spillIn id c p

/-- A trap of the party that executes: a crew or surveyor enters its handler, whose path takes an entry of the path table
(R401); a helper errs. -/
def State.raiseTrap (s : State) (id len : Nat) (t : Trap) : State :=
  match mget s.crews id with
  | none => s
  | some c =>
    if c.isHelper then (s.helperTrap id t).spillFix id c.paths
    else
      let o := s.openField t
      (o.1.takeTrap id len o.2).spillFix id c.paths

/-- What follows an instruction's effect: the PC, the windows, the fence's count, the crew back in State, the spills. Past a
speculative fence no path record is written or read, since other parties would see it of work that may be rolled back (R78, R203):
such an instruction waits for the fence. -/
def Rsl.finish (r : Rsl) (x : Cx) : State :=
  let c1 := if r.adv then r.c.setPc (x.p.pc + BitVec.ofNat 64 x.len) else r.c
  let c2 := c1.countWindow x.op
  let c3 : Crew := { c2 with
    fence := c2.fence.map (fun f => if f.op = x.op then f else { f with issued := f.issued + 1 })
    loadSlots := if c2.loadSet then c2.loadSlots + 1 else 0, fbuf := [] }
  let held := (r.s.partCrews c3.core (c3.crewid / 32)).any (fun e => e.1 != x.id && e.2.loadHeld.isSome)
  let c4 := if c3.loadSet && decide (256 ≤ c3.loadSlots) && held then c3.leaveLoadSet else c3
  if x.c.fence.isSome && c4.spillWork x.c.paths then { x.s with opSeq := x.op } else (r.s.storeCrew x.id c4).spillFix x.id x.c.paths

/-- Whether a crew of a partition has held at a load since before another (R433). -/
def State.heldBefore (s : State) (c : Crew) : Bool :=
  (s.partCrews c.core (c.crewid / 32)).any (fun e =>
    match e.2.loadHeld, c.loadHeld with
    | some a, some b => decide (a < b)
    | some _, none => true
    | none, _ => false)

/-- The load set's say in an issue (R433): a crew outside a full set holds, the one that has held longest entering
first. -/
def State.loadSetCrew (s : State) (opc : Nat) (c : Crew) : Option Crew :=
  if !loadOpc opc || c.surv || c.isHelper || c.loadSet || s.onCollective c then some { c with loadHeld := none }
  else if s.loadRoom c && !s.heldBefore c then some { c with loadSet := true, loadSlots := 0, loadHeld := none }
  else none

/-- Whether a fence in progress keeps the crew from issuing an opcode (R202, R203). -/
def Crew.fenceHolds (c : Crew) (opc : Nat) : Bool :=
  match c.fence with
  | none => false
  | some f => f.ns || decide (2 ≤ f.rollbacks ∨ 16 ≤ f.issued) || fenceStops opc

/-- Whether an acquire in progress keeps the crew from issuing an opcode (R148, R198). -/
def Crew.holdHolds (c : Crew) (opc : Nat) : Bool :=
  match c.hold with
  | none => false
  | some h =>
    if h.narrow then opc == 0x7C || opc == 0x80 || opc == 0x82 || opc == 0x84
    else decide (0x80 ≤ opc ∧ opc ≤ 0x8F) || opc == 0xA5 || decide (0xB0 ≤ opc ∧ opc ≤ 0xB6)

/-- Whether a guard's predicate is owed (R26). -/
def Crew.guardOwed (c : Crew) (g : Guard) : Bool := g.grd != 15 && c.owed (.pred g.grd.toNat)

/-- The checks and the effect of one instruction on its own state, before its events are judged (R437). -/
def issueBody (x : Cx) (opc : Nat) (g : Guard) (body : Cx → Iss Rsl) : Iss Rsl := do
  needInsn (x.c.roleOk opc && g.ok)
  needIssue (!x.c.guardOwed g)
  body { x with act := x.c.guardLanes g x.p.mask }

/-! Active and pending crews (R431). -/

/-- Whether what a crew waits for is a wait point: BARA and a helper's HJOIN are none (R376, R388). -/
def Wait.point (w : Wait) : Bool :=
  match w.op with
  | .release (.bara _ _) _ _ => false
  | .release (.join _) _ _ => false
  | _ => true

def Crew.atWait (c : Crew) : Bool := match c.wait with | some w => w.point | none => false

/-- A crew enters the active set of its partition: the lowest free entry (R431). DESIGN CHOICE where several are free. Log entry
119. -/
def State.enterActive (s : State) (id : Nat) : State :=
  match mget s.crews id with
  | none => s
  | some c =>
    let used := ((s.partCrews c.core (c.crewid / 32)).filter (fun e => e.2.active && !e.2.done)).map (fun e => e.2.slotNo)
    let free := ((List.range 8).find? (fun i => !used.contains i)).getD 0
    s.modCrew id (fun d => { d with active := true, slotNo := free, issuedAt := s.clk })

/-- A crew leaves the active set, and with it the load set (R431, R433). -/
def Crew.leaveActive (c : Crew) : Crew := { c.leaveLoadSet with active := false }

/-- The pending crew of a partition that has been ready longest (R431). -/
def State.nextReady (s : State) (core part : Nat) : Option Nat :=
  ((s.partCrews core part).filter (fun e => !e.2.active && !e.2.done && !e.2.atWait)).foldl (fun (best : Option (Nat × Crew)) e =>
    match best with
    | none => some e
    | some b => if e.2.readyAt < b.2.readyAt then some e else best) none |>.map (·.1)

/-- Ready pending crews take free active entries, and those of active crews that wait (R431: the swap takes place whenever
both are there), fuel at most eight. -/
def State.refill (s : State) (core part fuel : Nat) : State :=
  match fuel with
  | 0 => s
  | n + 1 =>
    match s.nextReady core part with
    | none => s
    | some i =>
      let on := (s.partCrews core part).filter (fun e => e.2.active && !e.2.done)
      let enter := fun (s : State) => (s.enterActive i).refill core part n
      if on.length < 8 then enter s
      else
        match on.find? (fun e => e.2.atWait) with
        | some e => enter (s.modCrew e.1 Crew.leaveActive)
        | none => s

/-- An active crew that waits is swapped for a ready pending one (R431). -/
def State.swapOut (s : State) (id : Nat) : State :=
  match mget s.crews id with
  | none => s
  | some c =>
    if decide (65536 ≤ id) || !c.atWait || !c.active then s
    else
      match s.nextReady c.core (c.crewid / 32) with
      | some i => (s.modCrew id Crew.leaveActive).enterActive i
      | none => s

/-- The issue slot of an instruction that traps counts for the ages of the frame it leaves (R403, log entry 27). -/
def State.trapSlot (s : State) (id : Nat) : State :=
  s.modCrew id (fun c => { (if c.frames.length < 4 then c.agePaths else c) with loadHeld := none })

/-- One issue slot: the focus crew executes an instruction of len bytes whose primary opcode is opc. -/
def issue (s : State) (opc len : Nat) (g : Guard) (body : Cx → Iss Rsl) : Out :=
  match s.viewCrew s.focus with
  | none => .refused .noCrew
  | some c =>
    match c.running, s.loadSetCrew opc c with
    | some p, some c1 =>
      if !s.canIssue c || c.fenceHolds opc || c.holdHolds opc then .next s
      else
        let x : Cx := { s := { s with opSeq := s.opSeq + 1 }, id := s.focus, c := c1.agePaths, p := p, len := len, act := 0,
                        op := s.opSeq }
        match issueBody x opc g body with
        | .ok r => .next (r.finish x)
        | .error .stall => .next s
        | .error (.again t) => .next t
        | .error (.trap t) => if c.fence.isSome then .next s else .next ((x.s.trapSlot s.focus).raiseTrap s.focus len t)
        | .error (.fault f) => if c.fence.isSome then .next s else .next (x.s.crewFault s.focus f)
    | _, none =>
      if !s.canIssue c then .next s
      else if c.loadHeld.isSome then .next s
      else .next ({ s with opSeq := s.opSeq + 1 }.modCrew s.focus (fun d => { d with loadHeld := some s.opSeq }))
    | none, _ => .next s

/-- One issue slot of an instruction that may end in a wait: what the wait waits for is looked at at once. -/
def issueW (s : State) (opc len : Nat) (g : Guard) (body : Cx → Iss Rsl) (wake : State → Nat → State) : Out :=
  match issue s opc len g body with
  | .next t =>
    .next (if ((mget s.crews s.focus).bind (·.wait)).isNone && ((mget t.crews s.focus).bind (·.wait)).isSome then
      (wake t s.focus).swapOut s.focus else t)
  | o => o

/-- The instruction seen only in its operand lane (R101). -/
def Cx.once (x : Cx) : Cx := { x with act := if x.act = 0 then 0 else oneLane x.lane }

/-- A crew begins a wait that holds the registers its instruction has emptied. -/
def Crew.await (c : Crew) (w : Wait) : Crew :=
  { c with wait := some { w with undo := w.undo.filter (fun e => (mget c.regs e.1).isNone) } }

/-- Puts a crew at a wait point (R155, R456). -/
def Crew.waitAt (c : Crew) (w : Wait) : Crew := c.waitPoint.await w

/-- A wait point's record (R155, R456): the wake fields of the stop record, the designator written on wake, the scope of
the acquire (8 for none), the leaf of the page of its address with its level. -/
def Cx.waitFor (x : Cx) (kind det : Nat) (val : Word) (addr : Dword) (dst : Desig) (scope : Nat) (op : WaitOp)
    (leaf : Dword := 0) (level : Nat := 0) : Wait :=
  { kind := kind, det := det, val := val, addr := addr, dst := dst, scope := scope, lanes := x.act, pc := x.p.pc,
    num := x.op, op := op, owed := none, leaf := leaf, level := level, undo := x.c.regs }

/-- The fault of a wait's own operation (R93). -/
def Wait.failRec (w : Wait) (xlc cls : Nat) : FaultRec :=
  { xlc := xlc, pc := w.pc, va := w.addr, fent := w.leaf, aclass := cls, level := w.level, flane := (lowest w.lanes).getD 0 }

/-- Ends a wait: its designator takes a word, U-shaped, where it writes one, and the crew is ready to issue (R155). An
evicted crew's wait ends when the crew is restored (R456). -/
def State.endWait (s : State) (id : Nat) (v : Option Word) : State :=
  match s.viewCrew id with
  | none => s
  | some c =>
    match c.wait with
    | none => s
    | some w =>
      if c.evicted then s.modCrew id (fun d => { d with wait := some { w with owed := some v } })
      else
        let c1 := match v with
          | some v => c.putDests (regDests c w.dst 0 w.lanes (.u v) 0)
          | none => c
        (s.storeCrew id { c1 with wait := none, readyAt := s.clk }).refill c.core (c.crewid / 32) 8

/-- A crew whose wait ends in a fault or a trap stands at its instruction again, with the registers that this emptied (R448). -/
def Crew.standAgain (c : Crew) (w : Wait) (clk : Nat) : Crew :=
  let back := fun (m : NatMap Reg) (e : Nat × Reg) => if (mget m e.1).isNone then mput m e.1 e.2 else m
  { (c.setPc w.pc) with wait := none, readyAt := clk, regs := w.undo.foldl back c.regs }

/-- A crew leaves its wait so, and is ready to issue (R431). -/
def State.unwait (s : State) (id : Nat) (c : Crew) (w : Wait) : State :=
  (s.storeCrew id (c.standAgain w s.clk)).refill c.core (c.crewid / 32) 8

/-- A fault found while a crew waits is its instruction's: the crew stands at that instruction again (R93, R448). -/
def State.waitFault (s : State) (id : Nat) (f : FaultRec) : State :=
  match s.viewCrew id with
  | none => s
  | some c =>
    match c.wait with
    | none => s.crewFault id f
    | some w => (s.unwait id c w).crewFault id { f with pc := w.pc }

/-- A trap found while a crew waits is its instruction's: the crew stands at that instruction again and enters its handler. -/
def State.waitTrap (s : State) (id : Nat) (t : Trap) : State :=
  match s.viewCrew id with
  | none => s
  | some c =>
    match c.wait with
    | none => s
    | some w => (s.unwait id c w).raiseTrap id 8 t

end Sys2Proof.Machine
end

