-- ==== Sys2Proof/Machine/Access.lean ====
section
/-!
DEFINITION. A crew's accesses in flight: loads (R134 to R137, R142, R143), the store queue (R141), atomics (R145 to R148),
acquires and releases (R98, R148, R197, R198), and accesses to peers and to the host window (R149, R150, R473, R474).
-/

namespace Sys2Proof.Machine

/-- Applies a change to a crew (a helper group's registers at its donor) and to the state its speculative fence would roll
back to (R203). -/
def State.both (s : State) (id : Nat) (f : Crew → Crew) : State :=
  match s.viewCrew id with
  | none => s
  | some c => let t := s.storeCrew id (f c); { t with fenceShots := mmod t.fenceShots id f }

/-- What an access's fault records (R93). -/
def LaneAcc.failRec (a : LaneAcc) (xlc : Nat) (pc : Dword) (cls : Nat) : FaultRec :=
  { xlc := xlc, pc := pc, va := a.va, fent := a.leaf, aclass := cls, level := a.level, flane := a.lane }

/-! Where accesses meet. -/

/-- Whether n bytes at one place meet m bytes at another. -/
def Target.meets (t u : Target) (n m : Nat) : Bool :=
  match t, u with
  | .hbm a, .hbm b => rangesMeet a n b m
  | .peer d a, .peer e b => d == e && rangesMeet a n b m
  | .host a, .host b => rangesMeet a n b m
  | _, _ => false

def LaneAcc.meets (a b : LaneAcc) : Bool := a.tgt.meets b.tgt a.n b.n

/-- The offset of a place within another of the same kind. -/
def Target.diff (t u : Target) (i : Nat) : Option Nat :=
  match t, u with
  | .hbm a, .hbm b => if b ≤ a + i then some (a + i - b) else none
  | .peer d a, .peer e b => if d = e ∧ b ≤ a + i then some (a + i - b) else none
  | .host a, .host b => if b ≤ a + i then some (a + i - b) else none
  | _, _ => none

/-- The byte a store entry leaves at the i-th byte of a place: the highest lane's (R140). -/
def SqEntry.byteAt (e : SqEntry) (t : Target) (i : Nat) : Option Byte :=
  e.accs.reverse.findSome? (fun a => (t.diff a.tgt i).bind (fun k => (a.bytes.getD k none)))

/-- What a crew's own earlier entries give a load (R142). -/
inductive Fwd where
  | clear
  | wait
  | data (bs : List Byte) (poison : Bool)
deriving DecidableEq, Repr

/-- Whether an entry takes part in R142 for an access. -/
def SqEntry.overlaps (e : SqEntry) (a : LaneAcc) : Bool :=
  match e.kind with
  | .store _ => (List.range a.n).any (fun i => (e.byteAt a.tgt i).isSome)
  | .atom _ _ _ => e.accs.any (fun b => b.meets a)
  | _ => false

/-- Whether an entry is an ATOM. -/
def SqEntry.isAtom (e : SqEntry) : Bool := match e.kind with | .atom _ _ ret => ret | _ => false

/-- R142: a pending ATOM that names the bytes holds the load; else the newest earlier entry that overlaps gives the bytes where it
covers them, and holds the load where it does not. -/
def Crew.forward (c : Crew) (op : Nat) (a : LaneAcc) : Fwd :=
  let es := c.sq.filter (fun e => decide (e.op < op) && e.overlaps a)
  if es.any (·.isAtom) then .wait
  else
  match es.getLast? with
  | none => .clear
  | some e =>
    match e.kind with
    | .store _ =>
      let bs := (List.range a.n).map (fun i => e.byteAt a.tgt i)
      if bs.all (·.isSome) then .data (bs.map (·.getD 0)) (e.accs.any (fun b => b.poison && b.meets a)) else .wait
    | _ => .wait

/-! L1 actions of acquires and releases (R98, R103). -/

/-- Whether an act of a scope reaches the L1: wider than the core; a team that spans a core pair is (R98, R199). -/
def State.scopeWide (s : State) (c : Crew) (scope : Nat) : Bool :=
  !c.surv && (decide (3 ≤ scope) || (scope == 1 && ((mget s.teams c.team).map (·.pair)).getD false))

/-- Sends a line's dirty bytes and clears their dirty bits (R103). -/
def State.cleanLine (s : State) (core : Nat) (l : Line) : State :=
  let s1 := s.sendDirty core l
  s1.setL1 core ((s1.l1 core).map (fun x => if x = l then { x with dirty := 0, tag := none, marks := 0, whole := 0 } else x))

/-- Writes back every dirty byte of the ordinary lines that a test picks. -/
def State.writeBackWhere (s : State) (core : Nat) (p : Line → Bool) : State :=
  (s.l1 core).foldl (fun s l => if l.isOrd && l.dirty != 0 && p l then s.cleanLine core l else s) s

/-- Invalidates the clean valid bytes of the ordinary lines that a test picks; a watched line is a conflict (R203). -/
def State.dropCleanWhere (s : State) (core : Nat) (p : Line → Bool) : State :=
  let hit := fun (l : Line) => l.isOrd && l.valid != l.dirty && p l
  let gone := (s.l1 core).filter hit
  let s1 := s.setL1 core (((s.l1 core).map (fun l =>
    if hit l then { l with valid := l.dirty, poison := l.marks } else l)).filter (fun l => !(l.isOrd && l.valid == 0)))
  gone.foldl (fun s l => s.touchCore core l.dev l.ln none) (s1.noFill core p)

/-- Drops the replicas that a test picks. -/
def State.dropReplicaWhere (s : State) (core : Nat) (p : Line → Bool) : State :=
  let gone := (s.l1 core).filter (fun l => l.isRep && p l)
  let s1 := s.setL1 core ((s.l1 core).filter (fun l => !(l.isRep && p l)))
  gone.foldl (fun s l => s.touchCore core l.dev l.ln none) s1

/-- Drops the replicas of every L1 that a test picks, and keeps none of what other devices that another test picks have still to send
(R121, R206, R477). -/
def State.dropReplicas (s : State) (p : Line → Bool) (fly : Nat → Bool) : State :=
  (s.l1s.foldl (fun (s : State) e => s.dropReplicaWhere e.1 p) s).noFills (fun l => fly l.dev)

/-- The write-backs of a core that have not reached their homes. -/
def State.coreMsgs (s : State) (core : Nat) : List Nat :=
  (s.net.filter (fun m => m.core == core && (match m.kind with | .writeBack _ _ _ _ => true | _ => false))).map (·.id)

/-! Loads. -/

/-- What an attempt to read a lane's bytes gives. -/
inductive Take where
  | wait
  | data (bs : List Byte) (poison : Bool)
  | fault (xlc : Nat)
deriving DecidableEq, Repr

/-- The bytes of a line and the mark of their sector. -/
def Line.read (l : Line) (off n : Nat) : Take := .data ((l.data.drop off).take n) (l.poison.getLsbD (off / 32))

/-- Marks that a device holds a replica filled from an entry (R118). -/
def State.present (s : State) (entry dev : Nat) : State :=
  { s with freezes := mmod s.freezes entry (fun f =>
      { f with presence := if f.presence.contains dev then f.presence else f.presence ++ [dev] }) }

/-- A read at the home that leaves no copy in the L1 (R99, R110): it follows the messages of its core, or of its surveyor, to
that line (R195). -/
def State.takeBypass (s : State) (id : Nat) (c : Crew) (a : LaneAcc) (pa : Nat) : State × Take :=
  let ln := pa / 128
  let s1 := if c.surv then s else s.l1Flush c.core s.devnum ln
  if !s1.reach (c.core / 128) pa then (s1, .fault 17)
  else if (if c.surv then s1.net.any (fun m => m.tag.crew == id && m.ln == ln) else s1.inNet c.core ln) then (s1, .wait)
  else
    match s1.homeLoad a.owner pa a.n with
    | .error x => (s1, .fault x)
    | .ok (s2, bs, p) => (s2, .data bs p)

/-- Drops a line's clean bytes after a last-use load (R137). -/
def State.afterLast (s : State) (core ln pol : Nat) : State :=
  if pol = 3 then s.dropCleanWhere core (fun l => l.at s.devnum ln) else s

/-- A read through the L1 (R95, R118, R137). -/
def State.takeL1 (s : State) (id : Nat) (c : Crew) (pol : Nat) (a : LaneAcc) (pa : Nat) : State × Take :=
  let ln := pa / 128
  let off := pa % 128
  let s1 := s.ownerCheck c.core s.devnum ln a.owner
  let have_ := fun (l : Line) => (l.valid &&& byteMask off a.n) == byteMask off a.n
  match (s1.l1Find c.core s1.devnum ln).filter have_ with
  | some l => ((s1.l1Put c.core l (pol == 1)).afterLast c.core ln pol, l.read off a.n)
  | none =>
    if !s1.reach (c.core / 128) pa then (s1, .fault 17)
    else if s1.inNet c.core ln then (s1, .wait)
    else
      match (s1.noteMiss c.core s1.devnum ln id).homeLoad a.owner (128 * ln) 128 with
      | .error x => (s1, .fault x)
      | .ok (s2, bs, _) =>
        let ent := s2.replicaEntry (128 * ln) s2.devnum
        let kind := match ent with | some e => LineKind.replica e | none => .ordinary
        let s3 := match ent with | some e => s2.present e s2.devnum | none => s2
        let old : List Byte := ((s3.l1Find c.core s3.devnum ln).map (·.data)).getD []
        let dirty := ((s3.l1Find c.core s3.devnum ln).map (·.dirty)).getD 0
        let got := (List.range a.n).map (fun i =>
          if dirty.getLsbD (off + i) then old.getD (off + i) 0 else bs.getD (off + i) 0)
        let s4 := s3.l1Fill c.core id s3.devnum ln a.owner 0 bs kind (s3.linePoison ln) (pol == 1)
        (s4.afterLast c.core ln pol, .data got ((s3.linePoison ln).getLsbD (off / 32)))

/-- Whether a request is one of a core's crews: the key of a crew or of a helper group names its core. -/
def PeerReq.ofCore (r : PeerReq) (core : Nat) : Bool :=
  decide (r.crew < 65536 ∧ r.crew / 256 = core) || decide (131072 ≤ r.crew ∧ r.crew < 196608 ∧ (r.crew - 131072) / 256 = core)

/-- Whether a request changes memory at its home. -/
def opChanges (o : PeerOp) : Bool :=
  match o with
  | .read _ => false
  | .line _ _ => false
  | .frzq => false
  | _ => true

/-- A line that a load past a fence asks a peer for is watched from then on, since the peer reads it before its reply comes (R203). -/
def Crew.watchFrom (c : Crew) (op dev ln : Nat) : Crew :=
  { c with fence := c.fence.map (fun f => if f.op < op then { f with read := (f.read ++ [(dev, ln)]).eraseDups } else f) }
def State.watchRead (s : State) (id op dev ln : Nat) : State := s.modCrew id (fun c => c.watchFrom op dev ln)

/-- A read of a peer's memory (R97, R149): from a clean copy, else by a request, which follows what its core, or its surveyor,
has sent to change that line (R143, R195). -/
def State.takePeer (s : State) (id : Nat) (c : Crew) (ld : LoadOp) (a : LaneAcc) (dev pa : Nat) : State × Take :=
  let pol := ld.pol
  let op := ld.op
  let tag := c.tag id ld.pc a.va a.leaf a.level
  let ln := pa / 128
  let off := pa % 128
  let s := if pol == 2 && !c.surv then s.l1Flush c.core dev ln else s
  let hit := if c.surv || pol == 2 then none else
    (s.l1Find c.core dev ln).filter (fun l =>
      l.owner == a.owner && (l.valid &&& byteMask off a.n) == byteMask off a.n)
  match hit with
  | some l => (s, l.read off a.n)
  | none =>
    let mine := s.peerReqs.any (fun r => r.crew == id && r.op == op && r.lane == a.lane)
    let before := s.peerReqs.any (fun r => (if c.surv then r.crew == id else r.ofCore c.core) && r.dev == dev && r.op != op &&
      r.pa / 128 == ln && opChanges r.what)
    if !s.peerPath dev then (s, .fault 17)
    else if mine || before then (s, .wait)
    else
      let s1 := s.watchRead id op dev ln
      if c.surv || pol == 2 then ((s1.askPeer tag op a.lane dev pa a.owner (.read a.n)).1, .wait)
      else ((((s1.noteMiss c.core dev ln id).watchFill c.core dev ln).askPeer tag op a.lane dev (128 * ln) a.owner (.line off a.n) true).1,
            .wait)

/-- A read of the host window. -/
def State.takeHost (s : State) (id : Nat) (c : Crew) (ld : LoadOp) (a : LaneAcc) (off : Nat) : State × Take :=
  let op := ld.op
  let mine := s.hostReqs.any (fun r => r.crew == id && r.op == op && r.lane == a.lane)
  let before := s.hostReqs.any (fun r => r.crew == id && r.write && rangesMeet r.off r.len off a.n)
  if mine || before then (s, .wait) else ((s.askHost (c.tag id ld.pc a.va a.leaf a.level) op a.lane off a.n false []).1, .wait)

/-- Tries to read a lane's bytes, as one single-copy atomic read (R134, R142). -/
def State.takeLane (s : State) (id : Nat) (c : Crew) (ld : LoadOp) (a : LaneAcc) : State × Take :=
  match c.forward ld.op a with
  | .wait => (s, .wait)
  | .data bs p => (s, .data bs p)
  | .clear =>
    match a.tgt with
    | .gaz off => (s, .data (s.gazRead off a.n) false)
    | .host off => s.takeHost id c ld a off
    | .peer dev pa => s.takePeer id c ld a dev pa
    | .hbm pa =>
      if c.surv || ld.pol == 2 || (s.rangeAt pa).isSome || s.heapHit (pa / 128 * 128) 128 false then s.takeBypass id c a pa
      else s.takeL1 id c ld.pol a pa

/-- Whether a load has a lane's data. -/
def LoadOp.has (ld : LoadOp) (lane : Nat) : Bool := ld.got.any (fun g => g.1 == lane)

/-- The device and the line of a place, where it is memory. -/
def LaneAcc.devLine (dev : Nat) (a : LaneAcc) : Option (Nat × Nat) :=
  match a.tgt with
  | .hbm pa => some (dev, pa / 128)
  | .peer d pa => some (d, pa / 128)
  | _ => none

/-- Records a lane's data in a load, and that the older loads of its crew that still wait were passed by it; past a fence its line
is watched from here on (R203). -/
def Crew.putGot (c : Crew) (dev op : Nat) (a : LaneAcc) (bs : List Byte) (p : Bool) : Crew :=
  { c with
    loads := c.loads.map (fun l =>
      if l.op = op then { l with got := l.got ++ [(a.lane, bs, p)] }
      else if l.op < op then { l with passed := true } else l)
    fence := c.fence.map (fun f =>
      if f.op < op then { f with read := (f.read ++ (a.devLine dev).toList).eraseDups } else f) }

/-- Whether a load runs past a fence (R202). -/
def Crew.pastFence (c : Crew) (op : Nat) : Bool := match c.fence with | some f => decide (f.op < op) | none => false

/-- A load past a fence that would fault stops its crew until the fence completes (R202). -/
def Crew.fenceWait (c : Crew) : Crew := { c with fence := c.fence.map (fun f => { f with issued := 16 }) }

/-- Reads a lane of a load where that can be done now. -/
def State.capture (s : State) (id op : Nat) (a : LaneAcc) : State :=
  match mget s.crews id with
  | none => s
  | some c =>
    match c.loads.find? (fun l => l.op == op) with
    | none => s
    | some ld =>
      if ld.has a.lane then s
      else
        match s.takeLane id c ld a with
        | (s1, .wait) => s1
        | (s1, .data bs p) => s1.modCrew id (fun d => d.putGot s.devnum op a bs p)
        | (s1, .fault x) =>
          if c.pastFence op then s1.modCrew id (·.fenceWait)
          else s1.crewFault id { (a.failRec x ld.pc 1) with flane := (ld.vrest.map (·.2)).getD a.lane }

/-- Whether a load has taken a lane's data. -/
def State.captured (s : State) (id op lane : Nat) : Bool :=
  ((mget s.crews id).bind (fun c => (c.loads.find? (fun l => l.op == op)).map (fun l => l.has lane))).getD true

/-- The lanes of older loads that must take their data before a lane of a younger one, oldest first, since their bytes
meet (R191): successive loads of one byte never go backward. -/
def Crew.olderLanes (c : Crew) (op : Nat) (a : LaneAcc) : List (Nat × LaneAcc) :=
  ((c.loads.filter (fun l => decide (l.op < op))).foldr (fun l (acc : List (Nat × LaneAcc)) =>
    ((l.accs.filter (fun b => !l.has b.lane && (b.meets a || acc.any (fun e => b.meets e.2)))).map (fun b => (l.op, b)))
      ++ acc) [])

/-- Reads a lane after the older lanes it must follow. -/
def State.captureInOrder (s : State) (id op : Nat) (a : LaneAcc) : State :=
  match mget s.crews id with
  | none => s
  | some c =>
    let older := c.olderLanes op a
    let s1 := older.foldl (fun s e => s.capture id e.1 e.2) s
    if older.all (fun e => s1.captured id e.1 e.2.lane) then s1.capture id op a else s1

/-- Whether every lane of a load has its data. -/
def LoadOp.full (ld : LoadOp) : Bool := ld.accs.all (fun a => ld.has a.lane)

/-- The word at a place of a load's bytes, extended as R52 gives. -/
def loadWord (bs : List Byte) (sign : Bool) (i : Nat) : Word :=
  if bs.length < 4 then
    let v := leNat bs
    if sign then wordI (signed (8 * bs.length) v) else BitVec.ofNat 32 v
  else BitVec.ofNat 32 (leNat ((bs.drop (4 * i)).take 4))

/-- The i-th word of a complete load as a result, and the lanes it marks poisoned (R91, R134, R135). -/
def LoadOp.word (ld : LoadOp) (w i : Nat) : Shape × Lanes :=
  if ld.uni then
    match ld.got with
    | g :: _ => (.u (loadWord g.2.1 ld.sign i), if g.2.2 then BitVec.allOnes 64 else 0)
    | [] => (.u 0, 0)
  else
    let at_ := fun l => ld.got.find? (fun g => g.1 == l)
    (normShape w (gen w (fun l => match at_ l with | some g => loadWord g.2.1 ld.sign i | none => 0)),
     lanesWhere w (fun l => match at_ l with | some g => g.2.2 | none => false))

/-- Fills a pending result whose places stand by word number, and commits what has come (R26). -/
def Crew.fillPend (c : Crew) (op : Nat) (word : Nat → Shape × Lanes) : Crew :=
  let d : Crew := { c with pends := c.pends.map (fun p =>
    if p.op = op then
      { p with ready := true, dests := p.dests.map (fun x =>
          let i := match x.sh with | .u v => v.toNat | _ => 0
          { x with sh := (word i).1, poison := (word i).2 }) }
    else p) }
  d.commit

/-- The register VREST writes from a slot's bytes (R239, R241): none where the slot is bad. -/
def slotReg (w : Nat) (bs : List Byte) (poison : Nat → Bool) : Option (Option Reg) :=
  let h := leNat (bs.take 16)
  let word := fun i => BitVec.ofNat 32 (leNat ((bs.drop (16 + 4 * i)).take 4))
  if h % 4 + w * 256 ≠ h then none
  else
    match h % 4 with
    | 0 => some (some { shape := .u (word 0), poison := if poison 0 then allLanes w else 0 })
    | 1 => some (some { shape := normShape w (.a (word 0) (word 1)),
                        poison := if poison 0 || poison 1 then allLanes w else 0 })
    | 2 => some (some { shape := normShape w (gen w word), poison := lanesWhere w poison })
    | _ => some none

/-- Ends an acquire whose loads and atomics have returned (R98, R148, R198). -/
def State.tryHold (s : State) (id : Nat) : State :=
  match mget s.crews id with
  | none => s
  | some c =>
    match c.hold with
    | none => s
    | some h =>
      if h.ops.any (fun o => c.loads.any (fun l => l.op == o) || c.sq.any (fun e => e.op == o)) then s
      else
        let s1 := if h.inval then s.dropCleanWhere c.core (fun _ => true) else s
        s1.modCrew id (fun d => { d with hold := none })

/-- A load whose lanes all have their data returns (R134): its destinations are filled and G falls in turn (R153). -/
def State.finishLoad (s : State) (id op : Nat) : State :=
  match mget s.crews id with
  | none => s
  | some c =>
    match c.loads.find? (fun l => l.op == op) with
    | none => s
    | some ld =>
      if !ld.full then s
      else
        let s1 := s.both id (fun d => d.fillPend op (ld.word d.w))
        ((s1.modCrew id (fun d => { d with loads := d.loads.filter (fun l => l.op != op) })).lowerOp id cG op).tryHold id

/-! The store queue. -/

/-- Loads that must take their data before an entry's bytes enter the L1 or leave for a home: the crew's own older ones
(R142, R195), and, for the L1, every crew's of the core that a younger load has passed (R143). -/
def State.mustTake (s : State) (id : Nat) (c : Crew) (e : SqEntry) : List (Nat × Nat × LaneAcc) :=
  (s.crews.map (fun x =>
    if x.2.core != c.core || x.2.surv != c.surv then []
    else
      (x.2.loads.map (fun l =>
        if (x.1 == id && decide (l.op < e.op)) || (x.1 != id && l.passed) then
          (l.accs.filter (fun a => !l.has a.lane && e.accs.any (fun b => b.meets a))).map (fun a => (x.1, l.op, a))
        else [])).flatten)).flatten

/-- Takes those loads' data; whether all of it could be taken. -/
def State.takeMust (s : State) (id : Nat) (c : Crew) (e : SqEntry) : State × Bool :=
  let need := s.mustTake id c e
  let s1 := need.foldl (fun s n => s.captureInOrder n.1 n.2.1 n.2.2) s
  (s1, need.all (fun n => s1.captured n.1 n.2.1 n.2.2.lane))

/-- Puts a message on its way; its number. -/
def State.post (s : State) (c : Crew) (id : Nat) (e : SqEntry) (a : Option LaneAcc) (ln owner : Nat) (kind : MsgKind) : State × Nat :=
  let m : Msg := { id := s.opSeq, tag := c.tag id e.pc ((a.map (·.va)).getD 0) ((a.map (·.leaf)).getD 0) ((a.map (·.level)).getD 0), op := e.op, core := c.core, ln := ln, owner := owner,
                   kind := kind, held := none }
  ({ s with opSeq := s.opSeq + 1, net := s.net ++ [m] }, s.opSeq)

/-- The accesses of an entry grouped by line and owner, lanes ascending. -/
def byLine (as : List (LaneAcc × Nat)) : List (Nat × Nat × List LaneAcc) :=
  ((as.map (fun a => (a.2 / 128, a.1.owner))).eraseDups).map (fun k =>
    (k.1, k.2, (as.filter (fun a => a.2 / 128 == k.1 && a.1.owner == k.2)).map (·.1)))

/-- The place of an access in local HBM. -/
def LaneAcc.pa (a : LaneAcc) : Nat := match a.tgt with | .hbm p => p | .peer _ p => p | .host p => p | .gaz p => p
def LaneAcc.isHbm (a : LaneAcc) : Bool := match a.tgt with | .hbm _ => true | _ => false

/-- Whether a store's lane goes to the home past the L1 (R99, R110, R137). -/
def State.storeBypasses (s : State) (c : Crew) (pol : Nat) (a : LaneAcc) : Bool :=
  c.surv || pol == 2 || (s.rangeAt a.pa).isSome

/-- A crew's store updates the bytes of a clean copy of a peer's line (R97); a copy of another owner goes (R89), and the store is a
conflict for the core's other crews (R203). -/
def State.l1Update (s0 : State) (id core dev pa owner : Nat) (bs : List (Option Byte)) : State :=
  let off := pa % 128
  let s := (s0.noFill core (fun l => l.at dev (pa / 128))).ownerCheck core dev (pa / 128) owner
  (s.setL1 core ((s.l1 core).map (fun l =>
    if l.at dev (pa / 128) then
      { l with data := l.data.zipIdx.map (fun e =>
          if off ≤ e.2 ∧ e.2 < off + bs.length then ((bs.getD (e.2 - off) none).getD e.1) else e.1) }
    else l))).touchCore core dev (pa / 128) (some id)

/-- The runs of at most 16 enabled bytes of a store as offset and bytes, as host requests carry them (R473). -/
def byteRuns (bs : List (Option Byte)) : List (Nat × List Byte) :=
  (bs.zipIdx.foldl (fun (r : List (Nat × List Byte) × Bool) e =>
    match e.1 with
    | none => (r.1, false)
    | some b =>
      match r.2, r.1 with
      | true, (o, bs) :: t => if bs.length < 16 then ((o, bs ++ [b]) :: t, true) else ((e.2, [b]) :: (o, bs) :: t, true)
      | _, t => ((e.2, [b]) :: t, true)) ([], false)).1.reverse

/-- The bytes that accesses to one line write, lanes ascending: where two write a byte, the higher lane's (R140). -/
def laneCells (as : List LaneAcc) : List Host.Cell :=
  as.foldl (fun m a => (maskedCells a.pa a.bytes).foldl (fun m c => mput m c.1 c.2) m) []

/-- The bytes of their line that accesses write, and the sectors that those of them with marked data touch (R91, R140). -/
def lineBytes (as : List LaneAcc) : List (Option Byte) :=
  let cs := laneCells as
  (List.range 128).map (fun i => mget cs (((as.head?.map (fun a => a.pa / 128)).getD 0) * 128 + i))
def badSectors (as : List LaneAcc) : BitVec 4 :=
  (laneCells (as.filter (·.poison))).foldl (fun (b : BitVec 4) c => b ||| BitVec.ofNat 4 (2 ^ (c.1 / 32 % 4))) 0

/-- Bytes with the addresses between them, from the lowest on, as a request's masked bytes. -/
def spread (cs : List Host.Cell) : Nat × List (Option Byte) :=
  match cs.head?, cs.getLast? with
  | some a, some b => (a.1, (List.range (b.1 - a.1 + 1)).map (fun i => mget cs (a.1 + i)))
  | _, _ => (0, [])

/-- The bytes of an access that no higher lane of its entry writes (R140). -/
def SqEntry.lastBytes (e : SqEntry) (a : LaneAcc) : List (Option Byte) :=
  a.bytes.zipIdx.map (fun b =>
    if e.accs.any (fun x => decide (a.lane < x.lane) && ((a.tgt.diff x.tgt b.2).bind (fun k => x.bytes.getD k none)).isSome) then none
    else b.1)

/-- The stores of an entry to peers, one request for each device, line, owner and mark (R140). -/
def SqEntry.peerLines (e : SqEntry) : List (Nat × List LaneAcc) :=
  let as := e.accs.filterMap (fun a => match a.tgt with | .peer d pa => if a.bytes.any (·.isSome) then some ((d, pa / 128, a.owner, a.poison), a) else none | _ => none)
  ((as.map (·.1)).eraseDups).map (fun k => (k.1, (as.filter (fun x => x.1 == k)).map (·.2)))

/-- Sends a store's lanes that go past the L1, and those to peers and the host; the numbers of what was sent. -/
def State.sendStores (s : State) (id : Nat) (c : Crew) (e : SqEntry) (pol : Nat) : State × List Nat :=
  let far := e.accs.filter (fun a => a.isHbm && s.storeBypasses c pol a && a.bytes.any (·.isSome))
  let r := (byLine (far.map (fun a => (a, a.pa)))).foldl (fun (r : State × List Nat) g =>
    let s1 := if c.surv then r.1 else r.1.l1Flush c.core r.1.devnum g.1
    let o := s1.post c id e g.2.2.head? g.1 g.2.1 (.store g.2.2)
    (o.1, r.2 ++ [o.2])) (s, [])
  let r1 := e.peerLines.foldl (fun (r : State × List Nat) g =>
    match g.2 with
    | [] => r
    | a :: _ =>
      let t := if c.surv then r.1 else if pol = 2 then r.1.l1Flush c.core g.1 (a.pa / 128)
        else g.2.foldl (fun s x => s.l1Update id c.core g.1 x.pa a.owner x.bytes) r.1
      let w := spread (laneCells g.2)
      let o := t.askPeer (c.tag id e.pc a.va a.leaf a.level) e.op a.lane g.1 w.1 a.owner (.write w.2 a.poison)
      (o.1, r.2 ++ [o.2])) r
  e.accs.foldl (fun (r : State × List Nat) a =>
    match a.tgt with
    | .host off =>
      (byteRuns (e.lastBytes a)).foldl (fun (r : State × List Nat) b =>
        let o := r.1.askHost (c.tag id e.pc (a.va + BitVec.ofNat 64 b.1) a.leaf a.level) e.op a.lane (off + b.1) b.2.length true b.2
        (o.1, r.2 ++ [o.2])) r
    | _ => r) r1

/-- The entry at the head leaves (R141): S falls now, or when what it sent is acknowledged. -/
def State.leave (s : State) (id op ctr : Nat) (sent : List Nat) : State :=
  let s1 := s.modCrew id (fun c => { c with sq := c.sq.filter (fun e => e.op != op) })
  if sent.isEmpty then s1.lowerOp id ctr op else s1.modCrew id (fun d => { d with unacked := d.unacked ++ [(op, sent)] })

/-- LINKERR of an entry that has an access to a peer that no port reaches (R346, R350). -/
def State.linkFault (s : State) (e : SqEntry) (cls : Nat) : Option FaultRec :=
  (e.accs.find? (fun a => match a.tgt with | .peer dev _ => !s.peerPath dev | _ => false)).map (fun a => a.failRec 17 e.pc cls)

/-- A store leaves the queue (R141): its bytes enter the L1, or go toward their homes. -/
def State.retireStore (s : State) (id : Nat) (c : Crew) (e : SqEntry) (pol : Nat) : State :=
  let near := e.accs.filter (fun a => a.isHbm && !s.storeBypasses c pol a && a.bytes.any (·.isSome))
  let onReplica := e.accs.find? (fun a =>
    !c.surv && pol != 2 && a.bytes.any (·.isSome) && match a.devLine s.devnum with
    | some p =>
      (match s.l1Find c.core p.1 p.2 with
       | some l => l.isRep && l.owner == a.owner
       | none => false)
    | none => false)
  match (onReplica.map (fun a => a.failRec 11 e.pc 2)).or (s.linkFault e 2) with
  | some f => s.crewFault id f
  | none =>
    match s.takeMust id c e with
    | (s1, false) => s1
    | (s1, true) =>
      let s2 := (byLine (near.map (fun a => (a, a.pa)))).foldl (fun (s : State) g =>
        match g.2.2 with
        | [] => s
        | a :: _ =>
          (s.l1Write c.core g.1 g.2.1 (c.tag id e.pc a.va a.leaf a.level) (lineBytes g.2.2) (badSectors g.2.2) (pol == 1)).touchCore
            c.core s.devnum g.1 (some id)) s1
      let s3 := if pol = 3 then
          s2.writeBackWhere c.core (fun l => near.any (fun a => l.at s2.devnum (a.pa / 128))) else s2
      let r := s3.sendStores id c e pol
      r.1.leave id e.op cS r.2

/-- The range operator that a RED equals (R107, R146): none where it equals none. -/
def redOper (opc wt : Nat) : Option Nat :=
  match opc, wt with
  | 10, 4 => some 0
  | 10, 2 => some 1
  | 10, 3 => some 1
  | 0, 4 => some 2
  | 13, 4 => some 3
  | 12, 4 => some 4
  | _, _ => none

/-- Whether a RED's lane combines into a partial of its core (R108). -/
def State.qualifies (s : State) (c : Crew) (opc wt : Nat) (a : LaneAcc) : Option CRange :=
  if c.surv || !a.isHbm then none
  else
    match s.rangeAt a.pa with
    | some (die, _, r) => if die = c.core / 128 ∧ redOper opc wt = some r.oper then some r else none
    | none => none

/-- A RED's lane combines into its core's partial (R69, R108): a line spilled from this core is taken back, and a new one
sends a hold message; while that is on its way, the releases of every crew that combines into the partial wait for it (R207). -/
def State.redPartial (s : State) (id : Nat) (c : Crew) (e : SqEntry) (r : CRange) (a : LaneAcc) : State :=
  let ln := a.pa / 128
  let off := a.pa % 128
  let die := c.core / 128
  let k := operBytes r.oper
  let here := (s.l1 c.core).find? (fun l => l.isPart && l.at s.devnum ln)
  let s0 := if here.isSome then s else (s.l1Flush c.core s.devnum ln)
  let got : State × Line × Bool :=
    match here with
    | some l => (s0, l, false)
    | none =>
      match (mgetD s0.spills die []).find? (fun p => p.core == c.core && p.line.ln == ln) with
      | some p => (s0.dropPartial die c.core ln, p.line, false)
      | none =>
        (s0, { dev := s0.devnum, ln := ln, owner := r.owner, valid := 0, dirty := 0, kind := .part r.oper, tag := none,
               poison := 0, marks := 0, filler := id, data := List.replicate 128 0 }, true)
  let l := got.2.1
  let v := if l.valid.getLsbD off then operComb r.oper (lineElem l.data off k) (a.x.toNat % 2 ^ (8 * k)) else a.x.toNat % 2 ^ (8 * k)
  let bs := leBytes k v
  let l2 : Line := { l with valid := l.valid ||| byteMask off k, data := l.data.zipIdx.map (fun e =>
    if off ≤ e.2 ∧ e.2 < off + k then bs.getD (e.2 - off) 0 else e.1), tag := some (c.tag id e.pc a.va a.leaf a.level) }
  let s1 := got.1.l1Put c.core l2 false
  if got.2.2 then
    let o := s1.post c id e (some a) ln r.owner .hold
    o.1.modCrew id (fun d => { d with unacked := d.unacked ++ [(e.op, [o.2])] })
  else
    match s1.net.find? (fun m => m.kind == .hold && m.core == c.core && m.ln == ln) with
    | some m => s1.modCrew id (fun d =>
        { d with unacked := if d.unacked.contains (e.op, [m.id]) then d.unacked else d.unacked ++ [(e.op, [m.id])] })
    | none => s1

/-- Lanes in a row with one owner, in order. -/
def ownerRuns (as : List LaneAcc) : List (List LaneAcc) :=
  as.foldr (fun a rs =>
    match rs with
    | (b :: r) :: t => if a.owner = b.owner then (a :: b :: r) :: t else [a] :: rs
    | _ => [a] :: rs) []

/-- The lanes of an atomic by the element at a peer that they name, ascending: one request each, so that no other access comes
between them (R147). A request carries one owner number (R149), so lanes of several owners go in one request for each run of
lanes, in order. DESIGN CHOICE. Log entry 13. -/
def peerElems (as : List LaneAcc) : List (Nat × Nat × List LaneAcc) :=
  let es := as.filterMap (fun a => match a.tgt with | .peer d pa => some ((d, pa), a) | _ => none)
  (((es.map (·.1)).eraseDups).map (fun k => (ownerRuns ((es.filter (fun x => x.1 == k)).map (·.2))).map (fun g => (k.1, k.2, g)))).flatten

/-- The lanes of an atomic in local HBM by line, ascending: one message each, whatever their owners (R147). -/
def atomLines (as : List LaneAcc) : List (Nat × List LaneAcc) :=
  ((as.map (fun a => a.pa / 128)).eraseDups).map (fun k => (k, as.filter (fun a => a.pa / 128 == k)))

/-- Sends one request of an atomic to a peer, for the lanes of a group; its number. -/
def State.askAtom (s : State) (tag : Dword → Dword → Nat → QTag) (op : Nat) (wt : BitVec 3) (opc : BitVec 4) (order : BitVec 2)
    (g : Nat × Nat × List LaneAcc) : State × Nat :=
  match g.2.2 with
  | [] => (s, s.opSeq)
  | a :: _ =>
    s.askPeer (tag a.va a.leaf a.level) op a.lane g.1 g.2.1 a.owner (.atom opc wt order (g.2.2.map (fun a => (a.x, a.y))))
      (lanes := g.2.2.map (·.lane))

/-- Starts an atomic at the head of its queue (R99, R108, R147): qualifying lanes combine in the L1, the others go to
their homes, one message a line. -/
def State.startAtom (s : State) (id : Nat) (c : Crew) (e : SqEntry) (wt : BitVec 3) (opc : BitVec 4) (ret : Bool) : State :=
  match s.linkFault e 3, s.takeMust id c e with
  | some f, _ => s.crewFault id f
  | none, (s1, false) => s1
  | none, (s1, true) =>
    let q := fun (s : State) (a : LaneAcc) => if ret then none else s.qualifies c opc.toNat wt.toNat a
    let s2 := e.accs.foldl (fun s a =>
      match q s a with
      | some r => s.redPartial id c e r a
      | none => s) s1
    let far := e.accs.filter (fun a => a.isHbm && (q s2 a).isNone)
    let r := (atomLines far).foldl (fun (r : State × List Nat) g =>
      let t := if c.surv then r.1 else r.1.l1Flush c.core r.1.devnum g.1
      let o := t.post c id e g.2.head? g.1 ((g.2.head?.map (·.owner)).getD 0) (.atom wt opc ret g.2)
      (o.1, r.2 ++ [o.2])) (s2, [])
    let r2 := (peerElems e.accs).foldl (fun (r : State × List Nat) g =>
      let t := if c.surv then r.1 else r.1.l1Flush c.core g.1 (g.2.1 / 128)
      let o := t.askAtom (fun va leaf level => c.tag id e.pc va leaf level) e.op wt opc e.order g
      (o.1, r.2 ++ [o.2])) r
    r2.1.modCrew id (fun d => { d with sq := d.sq.map (fun x => if x.op = e.op then { x with stage := 3, msgs := r2.2 } else x) })

/-- An atomic whose lanes have all been performed leaves the queue (R141); an ATOM's old values return, A falls in turn,
and an acquire that waits for it ends (R147, R148). -/
def State.finishAtom (s : State) (id : Nat) (e : SqEntry) (wt : BitVec 3) (ret : Bool) : State :=
  if ret then
    let n := wtBytes wt
    let word := fun (w i : Nat) => (normShape w (gen w (fun l =>
      match e.got.find? (fun g => g.1 == l) with
      | some g => loadWord (leBytes n g.2) (wt.getLsbD 0) i
      | none => 0)), (0 : Lanes))
    let s1 := s.both id (fun d => d.fillPend e.op (word d.w))
    (s1.leave id e.op cA []).tryHold id
  else s.leave id e.op cS []

/-- Whether what a release at the head of the queue waits for before its L1 action has come (R148, R197): earlier entries
acknowledged, earlier RWB and RWI done, and for REL and FENCE earlier loads returned. -/
def Crew.releaseReady (c : Crew) (e : SqEntry) : Bool :=
  c.unacked.all (fun u => decide (e.op < u.1)) && c.rwOps.all (fun u => decide (e.op < u.1)) &&
  (match e.kind with
   | .rel _ => c.loads.all (fun l => decide (e.op < l.op))
   | .fence => c.loads.all (fun l => decide (e.op < l.op))
   | _ => true)

/-- Whether a release acts on the L1 (R98): default form, scope wider than the core. -/
def State.releaseActs (s : State) (c : Crew) (e : SqEntry) : Bool :=
  s.scopeWide c e.scope && (match e.kind with | .rel expl => !expl | _ => true)

/-- Moves a release on by one stage (R98, R197): 0 waiting, 1 write-backs sent, 2 complete. -/
def State.releaseStage (s : State) (id : Nat) (c : Crew) (e : SqEntry) : State :=
  let put := fun (s : State) (f : SqEntry → SqEntry) =>
    s.modCrew id (fun d => { d with sq := d.sq.map (fun x => if x.op = e.op then f x else x) })
  match e.stage with
  | 0 =>
    if !c.releaseReady e then s
    else if s.releaseActs c e then
      let s1 := s.writeBackWhere c.core (fun _ => true)
      put s1 (fun x => { x with stage := 1, msgs := s1.coreMsgs c.core })
    else put s (fun x => { x with stage := 2 })
  | _ => if e.msgs.isEmpty then put s (fun x => { x with stage := 2 }) else s

end Sys2Proof.Machine
end

