-- ==== Sys2Proof/Machine/MemInsn.lean ====
section
/-!
DEFINITION. Loads, stores and atomics at issue: LDG, LDC, PREF, STG, STM, ATOM, RED (R130 to R151), VSAVE and VREST (R239
to R241), WAITC and CNTRD (R154 to R156).
-/

namespace Sys2Proof

/-- The base registers of an LM instruction (R130): no crossbar, no dead bit. -/
def LM.srcBase (f : LM) : Machine.Src :=
  { d := f.base.setWidth 9, xc := 0, dead := false, k := 2, fld := 4, upper := false, zero := false }

/-- The data registers that DST names as a source (R132). -/
def LM.srcData (f : LM) (k : Nat) (upper zero : Bool) : Machine.Src :=
  { d := f.dst, xc := 0, dead := false, k := k, fld := 0, upper := upper, zero := zero }

end Sys2Proof

namespace Sys2Proof.Machine

/-- Registers of an access width (R132). -/
def wtRegs (wt : BitVec 3) : Nat := if wt = 5 then 2 else if wt = 6 then 4 else 1

/-- The effective address of a lane (R130). -/
def lmAddr (f : LM) (base : List Opd) (l : Nat) : Dword :=
  pairAt base l + BitVec.ofInt 64 (f.off.toInt * (wtBytes f.wt : Int))

/-- The ACLASS code of an access (R452). -/
def accClass (acc : Acc) : Nat :=
  match acc with
  | .fetch => 0
  | .load => 1
  | .store => 2
  | .atomic => 3
  | .range | .holder => 4
  | .plotter => 6
  | .txeRead => 7
  | .txeWrite | .txeReduce => 8
  | .save => 10

/-- The fault of a translation that failed (R93). -/
def XFail.record (x : XFail) (pc va : Dword) (acc : Acc) (lane : Nat) : FaultRec :=
  { xlc := x.xlc, pc := pc, va := va, fent := x.ent, aclass := x.cls (accClass acc), level := x.level, flane := lane }

/-- A lane's access by a translation that has succeeded. -/
def mkAcc (lane : Nat) (va : Dword) (t : Xlate) (n : Nat) : LaneAcc :=
  { lane := lane, va := va, tgt := t.tgt, owner := t.owner, leaf := t.leaf, level := t.level, n := n, bytes := [],
    poison := false, x := 0, y := 0 }

/-- Translates an instruction's accesses in order, the first failure being its fault (R93). -/
def Cx.translateAll (x : Cx) (s : State) (acc : Acc) (n : Nat) (as : List (Nat × Dword)) : Iss (State × List LaneAcc) :=
  as.foldlM (fun (r : State × List LaneAcc) a =>
    match r.1.translate x.c.unit x.c.ctx a.2 acc with
    | (_, .error e) => .error (.fault (e.record x.p.pc a.2 acc a.1))
    | (s1, .ok t) =>
      .ok (s1, r.2 ++ [mkAcc a.1 a.2 t n])) (s, [])

/-- MISALIGN with every misaligned lane (R131). -/
def Cx.aligned (x : Cx) (n : Nat) (addr : Nat → Dword) : Iss Unit :=
  let bad := lanesWhere x.c.w (fun l => x.act.getLsbD l && (addr l).toNat % n != 0)
  if bad = 0 then .ok () else .error (.trap (Trap.misalign bad))

/-- Room in a counter (R153). -/
def Cx.counterRoom (x : Cx) (k : Nat) : Iss Unit := needIssue (decide (x.c.cnt k < 63))

/-- Room in the store queue (R141). -/
def Cx.queueRoom (x : Cx) : Iss Unit := needIssue (decide (x.c.sq.length < 64))

/-- A load past a speculative fence (R202): no miss in the TLBs, no KIND 10 or 11 page, at most 32 distinct lines of a device. -/
def Cx.fenceLoad (x : Cx) (c : Crew) (addrs : List Dword) (as : List LaneAcc) : Iss Crew :=
  match c.fence with
  | none => .ok c
  | some f =>
    let hits := addrs.all (fun a => x.s.noWalk c.unit c.ctx a .load)
    let plain := as.all (fun (a : LaneAcc) => match a.tgt with | .hbm _ => true | .peer _ _ => true | _ => false)
    let lines := (f.lines ++ as.filterMap (fun (a : LaneAcc) => a.devLine x.s.devnum)).eraseDups
    if hits && plain && decide (lines.length ≤ 32) then .ok { c with fence := some { f with lines := lines } }
    else .error .stall

/-- LDG and LDC (R134 to R136): one access a lane, or one for the crew. -/
def loadBody (opc : Nat) (f : LM) (x : Cx) : Iss Rsl := do
  needInsn (memLegal opc f)
  let k := wtRegs f.wt
  dstCheck x.c f.dst k true
  let b ← x.peek [f.srcBase]
  x.counterRoom cG
  let base := nthRun b 0
  let direct := match place f.dst with | some (.reg _) => true | _ => false
  let uni := opc == 0x82 || (direct && base.all (·.isU))
  let lanes := if uni then (if x.act = 0 then [] else [x.lane]) else laneList x.act
  let only : Cx := { x with act := lanes.foldl (fun m l => m ||| oneLane l) 0 }
  x.aligned (wtBytes f.wt) (lmAddr f base)
  x.deadReads [f.srcBase]
  let t ← x.translateAll x.s .load (wtBytes f.wt) (lanes.map (fun l => (l, lmAddr f base l)))
  only.poisonCheck base
  let c0 ← x.fenceLoad x.c (lanes.map (lmAddr f base)) t.2
  let c1 := c0.raise cG x.op
  if x.act = 0 then return { s := t.1, c := c1.lower cG x.op, adv := true }
  else
    let ds := ((List.range k).map (fun i => regDests c1 f.dst i x.act (.u (BitVec.ofNat 32 i)) 0)).flatten ++
              ocDests f.md x.act (.u 0) 0
    let c2 := c1.pendDests x.op f.la.toNat false ds
    let ld : LoadOp := { op := x.op, pc := x.p.pc, pol := f.pol.toNat, uni := uni, sign := f.wt.getLsbD 0, accs := t.2,
                         got := [], passed := false, vrest := none }
    return { s := t.1, c := { c2 with loads := c2.loads ++ [ld] }, adv := true }

/-- The bytes a lane stores: the low n bytes of its registers (R138). -/
def dataBytes (data : List Opd) (l n : Nat) : List Byte :=
  ((data.map (fun o => leBytes 4 (o.at l).toNat)).flatten).take n

/-- Puts an entry into the crew's store queue (R141). -/
def Crew.enqueue (c : Crew) (op : Nat) (pc : Dword) (kind : SqKind) (accs : List LaneAcc) (rel : Bool) (scope : Nat)
    (order : BitVec 2 := 0) : Crew :=
  { c with sq := c.sq ++ [{ op := op, pc := pc, kind := kind, accs := accs, rel := rel, scope := scope, stage := 0,
                            msgs := [], got := [], order := order }] }

/-- STG and STM (R138 to R141). -/
def storeBody (opc : Nat) (f : LM) (x : Cx) : Iss Rsl := do
  needInsn (memLegal opc f)
  let k := wtRegs f.wt
  let n := wtBytes f.wt
  let stm := opc == 0x86
  let data : Src := if stm then f.srcData (k + 1) false false else f.srcData k (k == 1) true
  let r ← x.peek [data, f.srcBase]
  x.counterRoom cS
  x.queueRoom
  let base := nthRun r 1
  let addr := lmAddr f base
  x.aligned n addr
  x.deadReads [data, f.srcBase]
  let t ← x.translateAll x.s .store n ((laneList x.act).map (fun l => (l, addr l)))
  x.poisonCheck r.flatten
  let run := nthRun r 0
  let accs := t.2.map (fun a =>
    let m : Word := if stm then (run.getD k ⟨.u 0, 0⟩).at a.lane else 0xFFFFFFFF
    { a with bytes := (dataBytes (run.take k) a.lane n).zipIdx.map (fun e => if m.getLsbD e.2 then some e.1 else none) })
  let c1 := x.c.raise cS x.op
  if x.act = 0 then return { s := t.1, c := c1.lower cS x.op, adv := true }
  else return { s := t.1, c := c1.enqueue x.op x.p.pc (.store f.pol.toNat) accs false 8, adv := true }

/-- ATOM and RED (R145 to R148). -/
def atomBody (opc : Nat) (f : LM) (x : Cx) : Iss Rsl := do
  needInsn (memLegal opc f)
  let ret := opc == 0x84
  let n := wtBytes f.wt
  let k := wtRegs f.wt
  let two := f.md == 9
  let data : Src := if ret then f.srcData (if two then 2 * k else k) false false else f.srcData k (k == 1) true
  let r ← x.peek [data, f.srcBase]
  x.counterRoom (if ret then cA else cS)
  x.queueRoom
  let addr := lmAddr f (nthRun r 1)
  x.aligned n addr
  x.deadReads [data, f.srcBase]
  let t ← x.translateAll x.s .atomic n ((laneList x.act).map (fun l => (l, addr l)))
  x.poisonCheck r.flatten
  let run := nthRun r 0
  let accs := t.2.map (fun a =>
    { a with x := BitVec.ofNat 64 (leNat (dataBytes (run.take k) a.lane n))
             y := BitVec.ofNat 64 (leNat (dataBytes (run.drop k) a.lane n)) })
  let ctr := if ret then cA else cS
  let c1 := x.c.raise ctr x.op
  if x.act = 0 then return { s := t.1, c := c1.lower ctr x.op, adv := true }
  else
    let c2 := c1.enqueue x.op x.p.pc (.atom f.wt f.md ret) accs (f.pol.getLsbD 1) f.scp.toNat f.pol
    let c3 := if ret then
        c2.pendDests x.op f.la.toNat false
          ((List.range k).map (fun i => regDests c2 f.dst i x.act (.u (BitVec.ofNat 32 i)) 0)).flatten
      else c2
    let c4 : Crew := if ret && f.pol.getLsbD 0 then
        { c3 with hold := some { ops := [x.op], narrow := true, inval := x.s.scopeWide x.c f.scp.toNat } }
      else c3
    return { s := t.1, c := c4, adv := true }

/-- Requests one line for PREF (R151): nothing that a lane meets is a fault. -/
def prefetch (x : Cx) (pol : Nat) (s : State) (l : Nat) (va : Dword) : State :=
  match s.translate x.c.unit x.c.ctx va .load with
  | (s1, .error _) => s1
  | (s1, .ok t) =>
    if x.c.surv || decide (2 ≤ pol) then s1
    else
      match t.tgt with
      | .hbm pa =>
        let ln := pa / 128
        let line : LaneAcc := { mkAcc l va t 128 with tgt := .hbm (128 * ln) }
        if (s1.rangeAt pa).isSome || s1.heapHit (128 * ln) 128 false then s1
        else (s1.takeL1 x.id x.c pol line (128 * ln)).1
      | .peer dev pa =>
        let ld : LoadOp := { op := x.op, pc := x.p.pc, pol := pol, uni := false, sign := false, accs := [], got := [], passed := false,
                             vrest := none }
        (s1.takePeer x.id x.c ld (mkAcc l va t 1) dev pa).1
      | _ => s1

/-- PREF past a fence (R78, R201): it starts no walk, and the lines it requests are watched as those of a load are. -/
def Cx.fencePref (x : Cx) (addrs : List Dword) : Iss Crew :=
  match x.c.fence with
  | none => .ok x.c
  | some f =>
    let lines := addrs.filterMap (fun a => match (x.s.translate x.c.unit x.c.ctx a .load).2 with
      | .ok t => (mkAcc 0 a t 1).devLine x.s.devnum
      | .error _ => none)
    let all := (f.lines ++ lines).eraseDups
    if addrs.all (fun a => x.s.noWalk x.c.unit x.c.ctx a .load) && decide (all.length ≤ 32) then
      .ok { x.c with fence := some { f with lines := all, read := (f.read ++ lines).eraseDups } }
    else .error .stall

/-- PREF (R151). -/
def prefBody (f : LM) (x : Cx) : Iss Rsl := do
  needInsn (memLegal 0x83 f)
  let b ← x.fetchRaw [f.srcBase]
  x.poisonCheck b.flatten
  let addrs := (laneList x.act).map (fun l => (l, lmAddr f (nthRun b 0) l))
  let c ← x.fencePref (addrs.map (·.2))
  return { s := addrs.foldl (fun s a => prefetch x f.pol.toNat s a.1 a.2) x.s, c := c, adv := true }

/-- The payload words of a register as VSAVE writes it, with the lanes whose mark each carries (R239, R240). -/
def slotWords (c : Crew) (r : Option Reg) : List (Word × Bool) :=
  let any := regPoison r &&& c.live != 0
  match r with
  | none => []
  | some g =>
    match g.shape with
    | .u w => [(w, any)]
    | .a b st => [(b, any), (st, any)]
    | .g ws => (List.range c.w).map (fun l =>
        if c.live.getLsbD l then (ws.getD l 0, g.poison.getLsbD l) else (0, false))

/-- The bytes of a register's save slot with their marks (R239): header, then payload. -/
def slotBytes (c : Crew) (r : Option Reg) : List (Byte × Bool) :=
  (leBytes 16 (shapeCode r + c.w * 256)).map (fun b => (b, false)) ++
  ((slotWords c r).map (fun e => (leBytes 4 e.1.toNat).map (fun b => (b, e.2)))).flatten

/-- Splits n bytes from an address, a multiple of 16, into pieces of at most 16 bytes, the longest that a host-window
request carries (R473). -/
def sectorPieces (fuel : Nat) (va : Dword) (n off : Nat) : List (Nat × Dword × Nat) :=
  match fuel with
  | 0 => []
  | k + 1 =>
    if n = 0 then []
    else
      let m := min n 16
      (off, va, m) :: sectorPieces k (va + BitVec.ofNat 64 m) (n - m) (off + m)

/-- The operand lane's address of VSAVE and VREST (R239). -/
def slotAddr (f : LM) (x : Cx) (base : List Opd) : Iss Dword := do
  let a := lmAddr f base x.lane
  if x.act != 0 && a.toNat % 16 != 0 then .error (.trap (Trap.misalign (oneLane x.lane))) else .ok a

/-- The register VSAVE and VREST name (R239). -/
def slotDst (f : LM) (x : Cx) : Iss Nat :=
  match place f.dst with
  | some (.reg n) => if regRunOk x.c n 1 then .ok n else illOpnd 0 0
  | _ => illOpnd 0 0

/-- VSAVE (R239, R240). -/
def vsaveBody (f : LM) (x : Cx) : Iss Rsl := do
  needInsn (memLegal 0x7B f)
  let n ← slotDst f x
  let b ← x.peek [f.srcBase]
  needIssue (!x.c.owed (.reg n))
  x.counterRoom cS
  x.queueRoom
  let va ← slotAddr f x (nthRun b 0)
  x.deadReads [f.srcBase]
  if x.act = 0 then return { s := x.s, c := x.c, adv := true }
  else
    let bs := slotBytes x.c (mget x.c.regs n)
    let ps := sectorPieces 20 va bs.length 0
    let t ← x.translateAll x.s .store 0 (ps.map (fun p => (x.lane, p.2.1)))
    let only : Cx := { x with act := oneLane x.lane }
    only.poisonCheck b.flatten
    let accs := (t.2.zip ps).map (fun e =>
      let part := (bs.drop e.2.1).take e.2.2.2
      { e.1 with n := e.2.2.2, bytes := part.map (fun b => some b.1), poison := part.any (·.2) })
    let c1 := (x.c.raise cS x.op).enqueue x.op x.p.pc (.store f.pol.toNat) accs false 8
    return { s := t.1, c := c1, adv := true }

/-- VREST (R241): the crew stands at it until its data returns. The header is read first. -/
def vrestBody (f : LM) (x : Cx) : Iss Rsl := do
  needInsn (memLegal 0x7C f)
  let n ← slotDst f x
  let b ← x.peek [f.srcBase]
  x.counterRoom cG
  let va ← slotAddr f x (nthRun b 0)
  x.deadReads [f.srcBase]
  if x.act = 0 then return { s := x.s, c := x.c, adv := true }
  else
    let t ← x.translateAll x.s .load 16 [(x.lane, va)]
    let only : Cx := { x with act := oneLane x.lane }
    only.poisonCheck b.flatten
    needIssue x.c.fence.isNone
    let ld : LoadOp := { op := x.op, pc := x.p.pc, pol := f.pol.toNat, uni := false, sign := false,
                         accs := t.2.map (fun a => { a with lane := 0 }), got := [], passed := false,
                         vrest := some (n, x.lane) }
    return { s := t.1, c := { (x.c.raise cG x.op) with loads := x.c.loads ++ [ld] }, adv := false }

/-- The payload length a slot's header names (R239). -/
def slotPayload (w : Nat) (header : List Byte) : Nat :=
  match leNat (header.take 1) % 4 with
  | 0 => 4
  | 1 => 8
  | 2 => 4 * w
  | _ => 0

/-- Ends a VREST whose crew stood at it: the load and its counter entry go. -/
def Crew.endVrest (c : Crew) (op : Nat) : Crew :=
  { (c.lower cG op) with loads := c.loads.filter (fun l => l.op != op) }

/-- Moves a VREST on (R241): after the header its payload's pieces are translated; when all has come the register is set,
or BADSAVE is taken. -/
def State.vrestStep (s : State) (id : Nat) (ld : LoadOp) : State :=
  match s.viewCrew id, ld.vrest with
  | some c, some (n, lane) =>
    let header := ((ld.got.find? (fun g => g.1 == 0)).map (·.2.1)).getD []
    let h := leNat header
    if !ld.full then s
    else if h % 4 + c.w * 256 ≠ h then (s.modCrew id (fun d => d.endVrest ld.op)).raiseTrap id 8 (Trap.illOpnd 5 4)
    else if ld.accs.length = 1 ∧ slotPayload c.w header ≠ 0 then
      let va0 := ((ld.accs.head?.map (·.va)).getD 0)
      let ps := sectorPieces 20 (va0 + 16) (slotPayload c.w header) 16
      let t := ps.foldl (fun (r : State × List LaneAcc × Option FaultRec) p =>
        match r.2.2 with
        | some _ => r
        | none =>
          match r.1.translate c.unit c.ctx p.2.1 .load with
          | (_, .error e) => (r.1, r.2.1, some (e.record ld.pc p.2.1 .load lane))
          | (s1, .ok t) =>
            (s1, r.2.1 ++ [mkAcc p.1 p.2.1 t p.2.2], none)) (s, [], none)
      match t.2.2 with
      | some e => (s.modCrew id (fun d => d.endVrest ld.op)).crewFault id e
      | none =>
        t.1.modCrew id (fun d => { d with loads := d.loads.map (fun l =>
          if l.op = ld.op then { l with accs := l.accs ++ t.2.1 } else l) })
    else
      let gots := ld.accs.filterMap (fun a => ld.got.find? (fun g => g.1 == a.lane))
      let bs := (gots.map (fun g => g.2.1)).flatten
      let marks := (gots.map (fun g => List.replicate g.2.1.length g.2.2)).flatten
      match slotReg c.w bs (fun i => marks.getD (16 + 4 * i) false) with
      | none => s
      | some r =>
        let c1 := (c.endVrest ld.op).supersede (.reg n) (allLanes c.w)
        let c2 : Crew := { c1 with regs := putReg c1.regs n r }
        (s.storeCrew id (c2.setPc (ld.pc + 8))).tryHold id
  | _, _ => s

/-- The condition of WAITC (R154). -/
def waitcHolds (c : Crew) (sel thr : Nat) : Bool :=
  if sel < 5 then decide (c.cnt sel ≤ thr) else (List.range 5).all (fun k => decide (c.cnt k ≤ thr))

/-- WAITC (R154, R155). -/
def waitcBody (f : LE) (x : Cx) : Iss Rsl := do
  let sel := f.md.toNat
  needInsn (decide (sel < 6))
  let imm := f.sa == 0x110
  let thr ← (if imm then (.ok f.fn.toNat : Iss Nat) else do
    let r ← x.once.fetch [{ (f.srcA 1).plain with zero := false }]
    return ((nthOpd r 0).at x.lane).toNat)
  let c0 := if imm then x.c else x.c.emptySrcs [f.srcA 1]
  let c1 := c0.waitPoint
  if x.act = 0 || waitcHolds c1 sel thr then return { s := x.s, c := c1, adv := true }
  else
    let w := x.waitFor 1 sel (BitVec.ofNat 32 thr) 0 0x110 8 (.waitc sel)
    return { s := x.s, c := c1.await w, adv := true }

/-- A crew that waits at a WAITC looks at its counters (R154). -/
def State.tryWaitc (s : State) (id : Nat) : State :=
  match s.viewCrew id with
  | none => s
  | some c =>
    match c.wait with
    | none => s
    | some w =>
      match w.op with
      | .waitc sel => if waitcHolds c sel w.val.toNat then s.endWait id none else s
      | _ => s

/-- The counters as one word (R156). -/
def Crew.counterWord (c : Crew) : Word :=
  BitVec.ofNat 32 (c.cnt cG + c.cnt cS * 2 ^ 6 + c.cnt cA * 2 ^ 12 + c.cnt cX * 2 ^ 18 + c.cnt cM * 2 ^ 24)

/-- Writes a word, U-shaped, to the destination of an instruction that writes no latch (R101, R156). -/
def Cx.writeWord (x : Cx) (c : Crew) (dst : Desig) (v : Word) : Crew :=
  c.putDests (regDests c dst 0 x.act (.u v) 0)

/-- CNTRD (R156). -/
def cntrdBody (f : LE) (x : Cx) : Iss Rsl := do
  dstCheck x.c f.dst 1 true
  return { s := x.s, c := x.writeWord x.c f.dst x.c.counterWord, adv := true }

/-! The meanings. -/

/-- LDG (R134, R135). -/
def execLdg (f : LM) (s : State) : Out := issue s 0x80 8 f.g (loadBody 0x80 f)
/-- STG (R138). -/
def execStg (f : LM) (s : State) : Out := issue s 0x81 8 f.g (storeBody 0x81 f)
/-- LDC (R136). -/
def execLdc (f : LM) (s : State) : Out := issue s 0x82 8 f.g (loadBody 0x82 f)
/-- PREF (R151). -/
def execPref (f : LM) (s : State) : Out := issue s 0x83 8 f.g (prefBody f)
/-- ATOM (R145 to R148). -/
def execAtom (f : LM) (s : State) : Out := issue s 0x84 8 f.g (atomBody 0x84 f)
/-- RED (R145 to R148). -/
def execRed (f : LM) (s : State) : Out := issue s 0x85 8 f.g (atomBody 0x85 f)
/-- STM (R139). -/
def execStm (f : LM) (s : State) : Out := issue s 0x86 8 f.g (storeBody 0x86 f)
/-- VSAVE (R239, R240). -/
def execVsave (f : LM) (s : State) : Out := issue s 0x7B 8 f.g (vsaveBody f)
/-- VREST (R239, R241). -/
def execVrest (f : LM) (s : State) : Out := issue s 0x7C 8 f.g (vrestBody f)
/-- WAITC (R154). -/
def execWaitc (f : LE) (s : State) : Out := issueW s 0xA3 8 f.g (waitcBody f) State.tryWaitc
/-- CNTRD (R156). -/
def execCntrd (f : LE) (s : State) : Out := issue s 0xA4 8 f.g (cntrdBody f)

end Sys2Proof.Machine
end

