-- ==== Sys2Proof/Machine/Coherence.lean ====
section
/-!
DEFINITION. The coherence instructions: RWB, RINV, RWI (R102 to R105), FREEZE, THAW, FRZQ (R114 to R125), CRDECL and
CRREL (R106 to R112), PROMOTE (R126 to R128).
-/

namespace Sys2Proof.Machine

/-- A byte range as its pages map it: each page's part with its leaf (R105). -/
structure Part where
  tgt   : Target
  n     : Nat
  owner : Nat
  leaf  : Dword
  level : Nat
deriving DecidableEq, Repr

/-- The 64 KiB pages a range touches, as start address and length in each; fuel bounds their number. -/
def pagePieces (fuel : Nat) (va n : Nat) : List (Nat × Nat) :=
  match fuel with
  | 0 => []
  | k + 1 =>
    if n = 0 then []
    else
      let m := min n (65536 - va % 65536)
      (va, m) :: pagePieces k (va + m) (n - m)

/-- Translates every page of a range for an access class (R105). -/
def Cx.parts (x : Cx) (s : State) (acc : Acc) (va : Dword) (n : Nat) : Iss (State × List Part) :=
  if n = 0 then .ok (s, [])
  else if 2 ^ 57 ≤ va.toNat + n - 1 then
    .error (.fault (({ xlc := 1, level := 0, ent := 0 } : XFail).record x.p.pc va acc x.lane))
  else
    (pagePieces 65537 va.toNat n).foldlM (fun (r : State × List Part) p =>
      let a : Dword := BitVec.ofNat 64 p.1
      match r.1.translate x.c.unit x.c.ctx a acc with
      | (_, .error e) => .error (.fault (e.record x.p.pc a acc x.lane))
      | (s1, .ok t) => .ok (s1, r.2 ++ [{ tgt := t.tgt, n := p.2, owner := t.owner, leaf := t.leaf, level := t.level }])) (s, [])

/-- The place of a device's line. -/
def State.lineTgt (s : State) (dev ln : Nat) : Target := if dev = s.devnum then .hbm (128 * ln) else .peer dev (128 * ln)

/-- Whether a line lies in a range rounded outward to lines (R103). -/
def State.placeIn (s : State) (ps : List (Target × Nat)) (dev ln : Nat) : Bool :=
  ps.any (fun p => p.1.meets (s.lineTgt dev ln) p.2 128)
def State.lineIn (s : State) (ps : List (Target × Nat)) (l : Line) : Bool := s.placeIn ps l.dev l.ln

/-- RWI on the ordinary lines of one L1 that a test picks (R103, R128): dirty bytes are written back, then the lines go. -/
def State.l1RwiOrd (s : State) (core : Nat) (p : Line → Bool) : State :=
  let gone := (s.l1 core).filter (fun l => l.isOrd && p l)
  let s1 := s.writeBackWhere core p
  let s2 := s1.setL1 core ((s1.l1 core).filter (fun l => !(l.isOrd && p l)))
  gone.foldl (fun s l => s.touchCore core l.dev l.ln none) (s2.noFill core p)

/-- RWI on the lines of one L1 that a test picks, its replicas with them (R103). -/
def State.l1Rwi (s : State) (core : Nat) (p : Line → Bool) : State := (s.l1RwiOrd core p).dropReplicaWhere core p

/-- The sources a range instruction names (R101). -/
def rangeSrcs (f : LE) : List Src := if f.md.getLsbD 0 then [] else [(f.srcA 2).plain, (f.srcB 1).plain]

/-- The range instructions' operands (R101, R102): none for .all, else start and length. -/
def rangeOpnds (f : LE) (x : Cx) : Iss (Option (Dword × Nat)) :=
  if f.md.getLsbD 0 then .ok none
  else do
    let r ← x.once.fetch (rangeSrcs f)
    return some (pairAt (nthRun r 0) x.lane, ((nthOpd r 1).at x.lane).toNat)

/-- Whether a crew's store queue holds a store to a line that a test of devices and lines picks: RWB and RWI wait at issue until
it has left, since they cover the crew's earlier stores (R192; log entry 109). -/
def Crew.storesTo (c : Crew) (dev : Nat) (pick : Nat → Nat → Bool) : Bool :=
  c.sq.any (fun e => (match e.kind with | .store _ => true | _ => false) &&
    e.accs.any (fun a => match a.devLine dev with | some p => pick p.1 p.2 | none => false))

/-- RWB, RINV and RWI (R102 to R105): op 0, 1, 2. -/
def rangeBody (op : Nat) (f : LE) (x : Cx) : Iss Rsl := do
  let o ← rangeOpnds f x
  let c0 := x.c.emptySrcs (rangeSrcs f)
  let cnt := op != 1
  if cnt then x.counterRoom cS
  if x.act = 0 then
    return { s := x.s, c := if cnt then (c0.raise cS x.op).lower cS x.op else c0, adv := true }
  else
    let t ← (match o with
      | none => (.ok (x.s, none) : Iss (State × Option (List (Target × Nat))))
      | some (va, n) => do
        let r ← x.parts x.s .range va n
        return (r.1, some (r.2.map (fun p => (p.tgt, p.n)))))
    let at_ := fun dev ln => match t.2 with | none => true | some ps => t.1.placeIn ps dev ln
    needIssue (!cnt || !x.c.storesTo x.s.devnum at_)
    let pick := fun (l : Line) => at_ l.dev l.ln
    let sent := t.1.opSeq
    let s1 := match op with
      | 0 => t.1.writeBackWhere x.c.core pick
      | 1 => (t.1.dropCleanWhere x.c.core pick).dropReplicaWhere x.c.core pick
      | _ => t.1.l1Rwi x.c.core pick
    let ids := (s1.net.filter (fun m => decide (sent ≤ m.id))).map (·.id)
    if !cnt then return { s := s1, c := c0, adv := true }
    else if ids.isEmpty then return { s := s1, c := (c0.raise cS x.op).lower cS x.op, adv := true }
    else return { s := s1, c := { (c0.raise cS x.op) with rwOps := c0.rwOps ++ [(x.op, ids)] }, adv := true }

/-! Freeze and thaw. -/

/-- Whether parts are contiguous local HBM: the base. -/
def contiguous (ps : List Part) : Option Nat :=
  match ps with
  | [] => none
  | p :: r =>
    match p.tgt with
    | .hbm b =>
      if (r.foldl (fun (acc : Option Nat) q =>
        match acc, q.tgt with
        | some e, .hbm a => if a = e then some (a + q.n) else none
        | _, _ => none) (some (b + p.n))).isSome then some b else none
    | _ => none

/-- Whether parts are under one owner. -/
def oneOwner (ps : List Part) : Bool :=
  match ps with
  | [] => true
  | p :: r => r.all (fun q => q.owner == p.owner)

/-- Whether some of n bytes of local HBM lie in a declared range (R120). -/
def State.rangeOver (s : State) (pa n : Nat) : Bool := s.ranges.any (fun t => t.2.any (fun e => rangesMeet e.2.base e.2.len pa n))

/-- Whether any part lies in a declared range (R120). -/
def State.partsInRange (s : State) (ps : List Part) : Bool :=
  ps.any (fun p => match p.tgt with
    | .hbm a => s.rangeOver a p.n
    | _ => false)

/-- The leaf of a range's first page, and its level (R93). DESIGN CHOICE: a fault of a whole range, which may span pages, records the
start of the range with them (R129). Log entry 131. -/
def headLeaf (ps : List Part) : Dword := (ps.head?.map (·.leaf)).getD 0
def headLevel (ps : List Part) : Nat := (ps.head?.map (·.level)).getD 0

/-- FREEZE's status word (R115). Where no entry exists, for REASON 1 to 4, COUNT and ENTRY are 0 (log entry 110). -/
def freezeFail (reason : Nat) (count entry : Nat := 0) : Word := BitVec.ofNat 32 (2 ^ 31 + reason * 2 ^ 24 + count * 2 ^ 8 + entry)
def freezeDone (entry count : Nat) : Word := BitVec.ofNat 32 (count * 2 ^ 8 + entry)

/-- The reasons of R115 that are known at issue, the lowest code first (log entry 34). -/
def freezeReason (ps : List Part) (va : Dword) (n : Nat) : Nat :=
  if ps.any (fun p => pteKind p.leaf != 0) then 2
  else if n != 0 && ((contiguous ps).isNone || !oneOwner ps) then 3
  else if va.toNat % 128 ≠ 0 ∨ n % 128 ≠ 0 ∨ n = 0 then 4
  else 0

/-- FREEZE (R115, R116). -/
def freezeBody (f : LE) (x : Cx) : Iss Rsl := do
  needInsn (decide (f.md.toNat < 2))
  dstCheck x.c f.dst 1 true
  let srcs := [(f.srcA 2).plain, (f.srcB 1).plain]
  let r ← x.once.fetch srcs
  let c0 := x.c.emptySrcs srcs
  if x.act = 0 then return { s := x.s, c := c0, adv := true }
  else
    let va := pairAt (nthRun r 0) x.lane
    let n := ((nthOpd r 1).at x.lane).toNat
    let t ← x.parts x.s .range va n
    if t.1.partsInRange t.2 then
      .error (.fault { xlc := 12, pc := x.p.pc, va := va, fent := headLeaf t.2, aclass := 4, level := headLevel t.2,
                       flane := x.lane })
    else
      let why := freezeReason t.2 va n
      if why ≠ 0 then return { s := t.1, c := x.writeWord c0.waitPoint f.dst (freezeFail why), adv := true }
      else
        let w := x.waitFor 8 0x8A 0 va f.dst 8 (.freeze 0 0 ((contiguous t.2).getD 0) n (f.md == 1) []) (headLeaf t.2) (headLevel t.2)
        return { s := t.1, c := c0.waitAt w, adv := true }

/-- Every L1 of the device writes back and drops its copies of a region (R116). -/
def State.sweep (s : State) (base n : Nat) : State :=
  let pick := fun (l : Line) => l.dev == s.devnum && rangesMeet base n (128 * l.ln) 128
  s.l1s.foldl (fun s e => s.l1Rwi e.1 pick) s

/-- Changes the wait operation of a crew. -/
def State.setWaitOp (s : State) (id : Nat) (op : WaitOp) : State :=
  s.modCrew id (fun c => { c with wait := c.wait.map (fun w => { w with op := op }) })

/-- Whether a number of a message is still on its way. -/
def State.inFlight (s : State) (ids : List Nat) : Bool :=
  ids.any (fun i => s.net.any (fun m => m.id == i) || s.acks.any (fun a => a.1 == i))

/-- Whether a crew's earlier stores have been acknowledged at their homes (R116). -/
def Crew.storesDone (c : Crew) : Bool := c.sq.isEmpty && c.unacked.isEmpty

/-- What a crew waits for. -/
def Crew.waitOp (c : Crew) : Option WaitOp :=
  match c.wait with
  | some w => some w.op
  | none => none

/-- The entry a FREEZE shares (R116): FROZEN, with equal base, length and scope. -/
def State.frozenTwin (s : State) (base n : Nat) (pod : Bool) : Option (Nat × Freeze) :=
  s.freezes.find? (fun e => e.2.state == .frozen && e.2.base == base && e.2.len == n && e.2.pod == pod)

/-- A FREEZE's fault while it waits: its crew stands at it again. -/
def State.freezeFault (s : State) (id xlc : Nat) : State :=
  match (mget s.crews id).bind (·.wait) with
  | some w => s.waitFault id (w.failRec xlc 4)
  | none => s

/-- Step 4 of R116: the freeze goes to the devices that have not acknowledged it; LINKERR where no port reaches one (R346). -/
def State.freezeAsk (s : State) (id i : Nat) : State :=
  match mget s.freezes i with
  | none => s
  | some e =>
    if e.acks.any (fun d => !s.peerPath d) then
      ({ s with freezes := mput s.freezes i { e with retry := true } } : State).freezeFault id 17
    else
      ({ s with freezes := mput s.freezes i { e with retry := false },
                outbox := s.outbox ++ e.acks.map (fun d => OutMsg.freezeMsg d e.base e.len) } : State).setWaitOp id
        (.freeze 3 i e.base e.len e.pod [])

/-- Step 2 of R116: an entry is shared or taken, and every L1 sweeps. A range declared while the FREEZE waited is found here
(R120); an entry whose own FREEZE faulted while it waited, and issues again, goes on (R349). -/
def State.freezeTake (s : State) (id base n : Nat) (pod : Bool) : State :=
  if s.rangeOver base n then s.freezeFault id 12
  else
  match s.frozenTwin base n pod with
  | some (i, e) =>
    if e.retry then s.freezeAsk id i
    else if e.count = 255 then s.endWait id (some (freezeFail 5 255 i))
    else
      ({ s with freezes := mput s.freezes i { e with count := e.count + 1 } }).endWait id (some (freezeDone i (e.count + 1)))
  | none =>
    match mfree s.freezes 256 with
    | none => s.endWait id (some (freezeFail 1))
    | some i =>
      let e : Freeze := { base := base, len := n, pod := pod, count := 1, state := .freezing, acks := [],
                          presence := [], tseq := 0, stuck := false, asked := [] }
      let sent := s.opSeq
      let s1 := ({ s with freezes := mput s.freezes i e }).sweep base n
      let ids := (s1.net.filter (fun m => decide (sent ≤ m.id) || rangesMeet base n (128 * m.ln) 128)).map (·.id)
      s1.setWaitOp id (.freeze 2 i base n pod ids)

/-- The entry becomes FROZEN (R116): the copies that its own L1s have filled since their sweep go, what a store has written into
them meanwhile going to the home, which refuses it (R117, R119). -/
def State.freezeNow (s : State) (i base n : Nat) (pod : Bool) : State :=
  let others := if pod then (List.range s.podsize).filter (fun d => d != s.devnum) else []
  let s1 : State := { s with freezes := mmod s.freezes i (fun e => { e with state := .frozen, acks := others }) }
  let pick := fun (l : Line) => l.dev == s.devnum && rangesMeet base n (128 * l.ln) 128
  s1.l1s.foldl (fun s e => s.l1RwiOrd e.1 pick) s1

/-- One stage of a FREEZE that waits (R116): 0 the crew's stores leave its queue and are written back, 1 they reach their
homes, 2 the sweep's do, 3 the devices in scope acknowledge. -/
def State.freezeStep (s : State) (id : Nat) : State :=
  match mget s.crews id with
  | none => s
  | some c =>
    match c.waitOp with
    | some (.freeze 0 entry base n pod _) =>
      if !c.storesDone then s
      else
        let s1 := s.writeBackWhere c.core (fun _ => true)
        s1.setWaitOp id (.freeze 1 entry base n pod (s1.coreMsgs c.core))
    | some (.freeze 1 _ base n pod msgs) => if s.inFlight msgs then s else s.freezeTake id base n pod
    | some (.freeze 2 entry base n pod msgs) =>
      if msgs.any (fun i => s.net.any (fun m => m.id == i)) then s
      else (s.freezeNow entry base n pod).freezeAsk id entry
    | some (.freeze _ entry _ _ _ _) =>
      match mget s.freezes entry with
      | some e => if e.acks.isEmpty then s.endWait id (some (freezeDone entry e.count)) else s
      | none => s.endWait id (some (freezeDone entry 0))
    | _ => s

/-- A FREEZE that waits goes as far as it can. -/
def State.tryFreeze (s : State) (id : Nat) : State := (((s.freezeStep id).freezeStep id).freezeStep id).freezeStep id

/-- Completes a thaw sequence number (R122). -/
def State.thawComplete (s : State) (n : Word) : State :=
  let l := s.thawOpen.map (fun e => if e.1 = n then (e.1, true) else e)
  { s with thawDone := ((l.takeWhile (·.2)).getLast?.map (·.1)).getD s.thawDone, thawOpen := l.dropWhile (·.2) }

/-- Takes the next thaw sequence number (R122). -/
def State.thawTake (s : State) : State × Word :=
  ({ s with thawNext := if s.thawNext + 1 = 0 then 1 else s.thawNext + 1, thawOpen := s.thawOpen ++ [(s.thawNext, false)] },
   s.thawNext)

/-- Drops the replicas of an entry from every L1 (R121). -/
def State.dropEntry (s : State) (entry : Nat) : State :=
  s.l1s.foldl (fun s e => s.dropReplicaWhere e.1 (fun l => l.kind == .replica entry && l.dev == s.devnum)) s

/-- An entry whose collection is complete becomes FREE and its number complete (R121). -/
def State.thawFree (s : State) (entry : Nat) : State :=
  match mget s.freezes entry with
  | some e => if e.asked.isEmpty then ({ s with freezes := mdel s.freezes entry }).thawComplete e.tseq else s
  | none => s

/-- THAW (R121). -/
def thawBody (f : LE) (x : Cx) : Iss Rsl := do
  dstCheck x.c f.dst 1 true
  let srcs := [(f.srcA 2).plain, (f.srcB 1).plain]
  let r ← x.once.fetch srcs
  let c0 := x.c.emptySrcs srcs
  if x.act = 0 then return { s := x.s, c := c0, adv := true }
  else
    let n := ((nthOpd r 1).at x.lane).toNat
    let t ← x.parts x.s .range (pairAt (nthRun r 0) x.lane) n
    let hit := (contiguous t.2).bind (fun b =>
      t.1.freezes.find? (fun e => e.2.state == .frozen && e.2.base == b && e.2.len == n))
    match hit with
    | none => return { s := t.1, c := x.writeWord c0 f.dst 0, adv := true }
    | some (i, e) =>
      let q := t.1.thawTake
      let s1 :=
        if 1 < e.count then
          ({ q.1 with freezes := mput q.1.freezes i { e with count := e.count - 1 } }).thawComplete q.2
        else
          let far := e.presence.filter (fun d => d != q.1.devnum)
          let e2 : Freeze := { e with state := .thawing, tseq := q.2, asked := far }
          let s2 := ({ q.1 with freezes := mput q.1.freezes i e2, outbox := q.1.outbox ++ far.map (fun d => OutMsg.collect d i) }).dropEntry i
          s2.thawFree i
      return { s := s1, c := x.writeWord c0 f.dst q.2, adv := true }

/-- FRZQ.addr's word for a byte homed here (R125). -/
def State.frzqWord (s : State) (pa : Nat) : Word :=
  let cover := s.freezes.filter (fun e => e.2.active && e.2.covers pa 1)
  match cover with
  | [] => 0
  | (i, e) :: _ =>
    BitVec.ofNat 32 (i * 2 ^ 8 + (if e.stuck then 4 else 0) +
      (if cover.any (fun e => e.2.state == .thawing) then 2 else 0) + 1)

/-- FRZQ.addr (R125): for a byte homed on a peer the word comes with its reply, or LINKERR where no port reaches it (R346); the table
itself is the device's, so that no byte of it lies beyond the die-to-die link. A byte of the host window or of the Gazetteer is
homed on no device's table, and gives 0 (log entry 110). -/
def frzqAddrBody (f : LE) (x : Cx) : Iss Rsl := do
  needInsn (f.md == 0)
  dstCheck x.c f.dst 1 true
  let srcs := [(f.srcA 2).plain]
  let r ← x.once.fetch srcs
  let c0 := x.c.emptySrcs srcs
  if x.act = 0 then return { s := x.s, c := c0, adv := true }
  else
    let va := pairAt (nthRun r 0) x.lane
    let t ← x.translateAll x.s .range 1 [(x.lane, va)]
    match t.2 with
    | [] => return { s := t.1, c := x.writeWord c0 f.dst 0, adv := true }
    | a :: _ =>
      match a.tgt with
      | .hbm pa => return { s := t.1, c := x.writeWord c0 f.dst (t.1.frzqWord pa), adv := true }
      | .peer dev pa =>
        if !t.1.peerPath dev then .error (.fault (a.failRec 17 x.p.pc 4))
        else
          let q := t.1.askPeer (x.c.tag x.id x.p.pc va a.leaf a.level) x.op x.lane dev pa 0 .frzq
          return { s := q.1, c := c0.pendDests x.op 0 false (regDests c0 f.dst 0 x.act (.u 0) 0), adv := true }
      | _ => return { s := t.1, c := x.writeWord c0 f.dst 0, adv := true }

/-- FRZQ.seq (R122, R125). -/
def frzqSeqBody (f : LE) (x : Cx) : Iss Rsl := do
  dstCheck x.c f.dst 1 true
  return { s := x.s, c := x.writeWord x.c f.dst x.s.thawDone, adv := true }

/-- FRZQ.free (R125). -/
def frzqFreeBody (f : LE) (x : Cx) : Iss Rsl := do
  dstCheck x.c f.dst 1 true
  return { s := x.s, c := x.writeWord x.c f.dst (BitVec.ofNat 32 (256 - x.s.freezes.length)), adv := true }

/-! Commutative ranges. -/

/-- The conditions on a range's parts (R106, R107): contiguous KIND 00 pages of one owner. -/
def plainParts (ps : List Part) : Bool :=
  ps.all (fun p => pteKind p.leaf == 0) && (contiguous ps).isSome && oneOwner ps

/-- CRDECL (R107). Ordinary copies of the range leave every L1, since none holds any once it is declared (R110). -/
def crdeclBody (f : LE) (x : Cx) : Iss Rsl := do
  needInsn (decide (f.md.toNat < 5))
  dstCheck x.c f.dst 2 true
  let srcs := [f.srcD 2, (f.srcA 2).plain, (f.srcB 1).plain]
  let r ← x.once.peek srcs
  let c0 := x.c.emptySrcs srcs
  if x.act = 0 then return { s := x.s, c := c0, adv := true }
  else
    let hva := pairAt (nthRun r 0) x.lane
    let va := pairAt (nthRun r 1) x.lane
    let n := ((nthOpd r 2).at x.lane).toNat
    needOpnd (decide (va.toNat % 128 = 0 ∧ n % 128 = 0 ∧ n ≠ 0 ∧ n ≤ 2 ^ 30 ∧ hva.toNat % 16 = 0)) 0 4
    x.once.deadReads srcs
    let t ← x.parts x.s .range va n
    let h ← x.parts t.1 .holder hva (n / 128 * 16)
    needOpnd (plainParts t.2 && plainParts h.2) 0 4
    let base := (contiguous t.2).getD 0
    let hbase := (contiguous h.2).getD 0
    let die := x.c.core / 128
    let tab := mgetD h.1.ranges die []
    needOpnd (!rangesMeet base n hbase (n / 128 * 16) && (mfree tab 16).isSome && !h.1.partsInRange t.2) 0 4
    x.once.poisonCheck r.flatten
    let bad := fun (xlc : Nat) (a : Dword) (ps : List Part) => (Ev.fault
      { xlc := xlc, pc := x.p.pc, va := a, fent := headLeaf ps, aclass := 4, level := headLevel ps, flane := x.lane })
    if h.1.freezeOver base n then .error (bad 12 va t.2)
    else
      let rng : CRange := { oper := f.md.toNat, base := base, len := n, owner := ((t.2.head?.map (·.owner)).getD 0),
                            hbase := hbase, howner := ((h.2.head?.map (·.owner)).getD 0), forced := false }
      match (List.range (n / 128)).foldlM (fun (s : State) i =>
          if !s.reach die (hbase + 16 * i) then .error 17
          else s.homeStore rng.howner (maskedCells (hbase + 16 * i) ((leBytes 16 0).map some)) false) h.1 with
      | .error e => .error (bad e hva h.2)
      | .ok s1 =>
        let s2 := { s1 with ranges := mput s1.ranges die (mput tab ((mfree tab 16).getD 0) rng) }
        return { s := s2.sweep base n, c := c0.waitPoint, adv := true }

/-- Recalls the lines of a range whose holder vector is not zero, ascending (R112): the device, and the number. -/
def State.recallRange (s : State) (die : Nat) (r : CRange) : Except Nat (State × Nat) :=
  (List.range (r.len / 128)).foldlM (fun (a : State × Nat) i =>
    let ln := r.base / 128 + i
    if a.1.holders r ln = 0 then .ok a
    else
      match a.1.recall die r ln with
      | .error e => .error e
      | .ok t => .ok (t, a.2 + 1)) (s, 0)

/-- The status of a CRREL (R112). -/
def crrelWord (n : Nat) (forced : Bool) : Word := BitVec.ofNat 32 (min n (2 ^ 24 - 1) * 2 ^ 8 + (if forced then 1 else 0))

/-- A CRREL whose hold messages have been performed (R112, R207): the recalls, the status, the removal. -/
def State.tryCrrel (s : State) (id : Nat) : State :=
  match mget s.crews id with
  | none => s
  | some c =>
    match c.waitOp with
    | some (.crrel pa del) =>
      match s.rangeAt pa with
      | none => s.endWait id (some 0)
      | some (die, i, r) =>
        if s.net.any (fun m => m.kind == .hold && rangesMeet r.base r.len (128 * m.ln) 128) then s
        else
          match s.recallRange die r with
          | .error e => match c.wait with | some w => s.waitFault id (w.failRec e 4) | none => s
          | .ok (s1, n) =>
            let tab := mgetD s1.ranges die []
            let tab2 := if del then mdel tab i else mmod tab i (fun r => { r with forced := false })
            let s2 := { s1 with ranges := mput s1.ranges die tab2 }
            s2.endWait id (some (crrelWord n r.forced))
    | _ => s

/-- CRREL and CRREL.end (R112). -/
def crrelBody (del : Bool) (f : LE) (x : Cx) : Iss Rsl := do
  dstCheck x.c f.dst 1 true
  let srcs := [(f.srcA 2).plain]
  let r ← x.once.fetch srcs
  let c0 := x.c.emptySrcs srcs
  if x.act = 0 then return { s := x.s, c := c0, adv := true }
  else
    let va := pairAt (nthRun r 0) x.lane
    let t ← x.translateAll x.s .range 1 [(x.lane, va)]
    let tgt : Option Target := t.2.head?.map (·.tgt)
    let pa := match tgt with | some (.hbm pa) => pa | _ => Config.hbmBytes
    let w := x.waitFor 8 0x8E 0 va f.dst 8 (.crrel pa del) ((t.2.head?.map (·.leaf)).getD 0) ((t.2.head?.map (·.level)).getD 0)
    return { s := t.1, c := c0.waitAt w, adv := true }

/-! PROMOTE. -/

/-- Whether a cluster is available (R20). -/
def State.clusterUp (s : State) (cl : Nat) : Bool := s.gzcla.getLsbD cl

/-- The victim's RWI (R127). -/
def State.promoteVictim (s : State) (id : Nat) : State :=
  match (mget s.crews id).bind (·.wait) with
  | some w =>
    match w.op with
    | .promote v ps all 0 _ =>
      let sent := s.opSeq
      let s1 := s.l1RwiOrd v (fun l => all || s.lineIn ps l)
      let ids := (s1.net.filter (fun m => decide (sent ≤ m.id) || m.core == v)).map (·.id)
      s1.setWaitOp id (.promote v ps all 1 ids)
    | _ => s
  | none => s

/-- PROMOTE goes on when the home has acknowledged every write-back: the issuer's RINV, and it completes (R127). -/
def State.tryPromote (s : State) (id : Nat) : State :=
  match mget s.crews id with
  | none => s
  | some c =>
    match c.waitOp with
    | some (.promote _ ps all 1 ids) =>
      if s.inFlight ids then s
      else
        let pick := fun (l : Line) => all || s.lineIn ps l
        (((s.dropCleanWhere c.core pick).dropReplicaWhere c.core pick)).endWait id none
    | _ => s

/-- PROMOTE (R126 to R128). -/
def promoteBody (f : LE) (x : Cx) : Iss Rsl := do
  let all := f.md.getLsbD 0
  let srcs := if all then [(f.srcB 1).plain] else [(f.srcB 1).plain, f.srcD 1, (f.srcA 2).plain]
  if all then .ok () else dstCheck x.c f.dst 1 true
  let r ← x.once.peek srcs
  let c0 := x.c.emptySrcs srcs
  let v := ((nthOpd r 0).at x.lane).toNat
  needOpnd (x.act == 0 || (decide (v < 256) && x.s.clusterUp (clusterOf v))) 0 2
  x.once.deadReads srcs
  if x.act = 0 then return { s := x.s, c := c0, adv := true }
  else
    let t ← (if all then (.ok (x.s, []) : Iss (State × List Part)) else
      x.parts x.s .range (pairAt (nthRun r 2) x.lane) ((nthOpd r 1).at x.lane).toNat)
    x.once.poisonCheck r.flatten
    let w := x.waitFor 8 0x8F 0 0 0x110 8 (.promote v (t.2.map (fun p => (p.tgt, p.n))) all 0 [])
    return { s := t.1, c := c0.waitAt w, adv := true }

/-! The meanings. -/

/-- RWB (R102 to R105). -/
def execRwb (f : LE) (s : State) : Out := issue s 0x87 8 f.g (rangeBody 0 f)
/-- RINV (R102 to R105). -/
def execRinv (f : LE) (s : State) : Out := issue s 0x88 8 f.g (rangeBody 1 f)
/-- RWI (R102 to R105). -/
def execRwi (f : LE) (s : State) : Out := issue s 0x89 8 f.g (rangeBody 2 f)
/-- FREEZE (R115, R116). -/
def execFreeze (f : LE) (s : State) : Out := issueW s 0x8A 8 f.g (freezeBody f) State.tryFreeze
/-- THAW (R121). -/
def execThaw (f : LE) (s : State) : Out := issue s 0x8B 8 f.g (thawBody f)
/-- FRZQ.addr, and every MOD above 2 of FRZQ, which is illegal (R125). -/
def execFrzqAddr (f : LE) (s : State) : Out := issue s 0x8C 8 f.g (frzqAddrBody f)
/-- FRZQ.seq (R125). -/
def execFrzqSeq (f : LE) (s : State) : Out := issue s 0x8C 8 f.g (frzqSeqBody f)
/-- FRZQ.free (R125). -/
def execFrzqFree (f : LE) (s : State) : Out := issue s 0x8C 8 f.g (frzqFreeBody f)
/-- CRDECL (R107). -/
def execCrdecl (f : LE) (s : State) : Out := issue s 0x8D 8 f.g (crdeclBody f)
/-- CRREL (R112). -/
def execCrrel (f : LE) (s : State) : Out := issueW s 0x8E 8 f.g (crrelBody false f) State.tryCrrel
/-- CRREL.end (R112). -/
def execCrrelEnd (f : LE) (s : State) : Out := issueW s 0x8E 8 f.g (crrelBody true f) State.tryCrrel
/-- PROMOTE (R126 to R128): the victim is asked at once where it can be. -/
def execPromote (f : LE) (s : State) : Out :=
  issueW s 0x8F 8 f.g (promoteBody f) (fun t id => (t.promoteVictim id).tryPromote id)

end Sys2Proof.Machine
end

