-- ==== Sys2Proof/Machine/Order.lean ====
section
/-!
DEFINITION. FENCE, ACQ and REL (R196 to R204).
-/

namespace Sys2Proof.Machine

/-- The scope of FENCE, ACQ and REL (R196, R200); 7 is illegal. -/
def orderScope (f : LE) : Nat := f.md.toNat % 8

/-- The loads and atomics a crew has not had back (R198). -/
def Crew.outstanding (c : Crew) : List Nat :=
  c.loads.map (·.op) ++ (c.sq.filter (fun e => match e.kind with | .atom _ _ ret => ret | _ => false)).map (·.op)

/-- An acquire of a crew begins (R198): it joins one in progress, and ends at once where nothing is outstanding. -/
def acquireHold (s : State) (c : Crew) (inval : Bool) : State × Crew :=
  let old : Hold := c.hold.getD { ops := [], narrow := false, inval := false }
  let h : Hold := { ops := old.ops ++ c.outstanding, narrow := false, inval := old.inval || inval }
  if h.ops.isEmpty then (if h.inval then s.dropCleanWhere c.core (fun _ => true) else s, { c with hold := none })
  else (s, { c with hold := some h })

/-- ACQ (R196, R198). -/
def acqBody (f : LE) (x : Cx) : Iss Rsl := do
  needInsn (decide (orderScope f < 7))
  if x.act = 0 then return { s := x.s, c := x.c, adv := true }
  else
    let r := acquireHold x.s x.c (!f.md.getLsbD 3 && x.s.scopeWide x.c (orderScope f))
    return { s := r.1, c := r.2, adv := true }

/-- REL (R196, R197). -/
def relBody (f : LE) (x : Cx) : Iss Rsl := do
  needInsn (decide (orderScope f < 7))
  if x.act = 0 then return { s := x.s, c := x.c, adv := true }
  else
    x.counterRoom cS
    x.queueRoom
    let c1 := (x.c.raise cS x.op).enqueue x.op x.p.pc (.rel (f.md.getLsbD 3)) [] true (orderScope f)
    return { s := x.s, c := c1, adv := true }

/-- FENCE (R200, R201): its acquire invalidation falls at issue. A helper group's fence does not speculate (log entry 35). -/
def fenceBody (f : LE) (x : Cx) : Iss Rsl := do
  needInsn (decide (orderScope f < 7))
  if x.act = 0 then return { s := x.s, c := x.c, adv := true }
  else
    x.counterRoom cS
    x.queueRoom
    let s1 := if x.s.scopeWide x.c (orderScope f) then x.s.dropCleanWhere x.c.core (fun _ => true) else x.s
    let c1 := (x.c.raise cS x.op).enqueue x.op x.p.pc .fence [] true (orderScope f)
    let fr : FenceRun := { op := x.op, ns := f.md.getLsbD 3 || x.c.isHelper, scope := orderScope f, pc := x.p.pc,
                           issued := 0, lines := [], conflict := false, rollbacks := 0 }
    return { s := s1, c := { c1 with fence := some fr }, adv := true }

/-- Keeps the state a rollback returns to: the crew right after its FENCE (R203). -/
def State.takeShot (s : State) (id op : Nat) : State :=
  match s.viewCrew id with
  | none => s
  | some c =>
    if (c.fence.map (·.op)) == some op then { s with fenceShots := mput s.fenceShots id c } else s

/-- A conflict rolls the crew back to the instruction after its FENCE, and the copies that its loads past the fence have read leave
its L1, so that they read again (R201, R203). -/
def State.rollback (s : State) (id : Nat) : State :=
  match s.viewCrew id, mget s.fenceShots id with
  | some c, some shot =>
    match c.fence with
    | none => s
    | some f =>
      let s1 := s.dropCleanWhere c.core (fun l => !c.surv && f.read.contains (l.dev, l.ln))
      (s1.storeCrew id { c.atShot shot with
        fence := some { f with issued := 0, lines := [], read := [], conflict := false, rollbacks := f.rollbacks + 1 } }).spillFix id c.paths
  | _, _ => s

/-- A fence whose release part is done ends, every conflict having been delivered (R201, R203). -/
def State.fenceEnd (s : State) (id : Nat) : State :=
  match mget s.crews id with
  | none => s
  | some c =>
    match c.fence with
    | none => s
    | some f =>
      if f.conflict || c.sq.any (fun e => e.op == f.op) then s
      else { (s.modCrew id (fun d => { d with fence := none })) with fenceShots := mdel s.fenceShots id }

/-! The meanings. -/

/-- FENCE (R200 to R202). -/
def execFence (f : LE) (s : State) : Out :=
  match issue s 0xA0 8 f.g (fenceBody f) with
  | .next t => .next (t.takeShot s.focus s.opSeq)
  | o => o
/-- ACQ (R198). -/
def execAcq (f : LE) (s : State) : Out := issue s 0xA1 8 f.g (acqBody f)
/-- REL (R197). -/
def execRel (f : LE) (s : State) : Out := issue s 0xA2 8 f.g (relBody f)

end Sys2Proof.Machine
end

