-- ==== Sys2Proof/Machine/Engines.lean ====
section
/-!
DEFINITION. The chain instructions (R170 to R175): TXFER, CHPUSH, CHTAIL, QFENCE, SEQWAIT, and the byte-counting barrier's
BBINIT, BBARR, BBWAIT (R180 to R184), with what their store-queue entries do at the head.
-/

namespace Sys2Proof.Machine

/-! Chains. -/

/-- The chain a handle names for a context (R157, R159). -/
def State.chainOf (s : State) (ctx h : Nat) : Option Chain := if h < 512 then (mget s.chains h).filter (fun ch => ch.ctx == ctx) else none

/-- The address of a sequence number's entry (R158). -/
def Chain.slot (ch : Chain) (n : Word) : Dword := ch.rbase + BitVec.ofNat 64 (64 * (n.toNat % ch.rsize))

/-- A full chain (R158). -/
def Chain.full (ch : Chain) : Bool := (ch.wptr - ch.compseq - 1).toNat == ch.rsize

/-- Whether the oldest unfinished slot is reserved by a crew and unpublished (R171). -/
def Chain.deadFor (ch : Chain) (id : Nat) : Bool :=
  let n := (ch.compseq + 1).toNat
  mget ch.owners n == some id && !ch.ready.contains n

/-- NOCHAIN, then CHDEAD while the chain is full (R159, R171). -/
def Cx.needChain (x : Cx) (h fld : Nat) : Iss Chain := do
  match x.s.chainOf x.c.ctx h with
  | none => illOpnd 3 fld
  | some ch =>
    needOpnd (!(ch.full && ch.deadFor x.id)) 4 fld
    return ch

/-- A crew that finds a chain full waits before the instruction, which then issues again (R171). -/
def Cx.chainWait (x : Cx) (opc h : Nat) : Iss Rsl :=
  .error (.again (x.s.modCrew x.id (fun c => c.waitAt (x.waitFor 8 opc 0 (BitVec.ofNat 64 h) 0x110 8 (.chain h)))))

/-- A crew that waits for room in a chain (R171): its instruction tests again once there is room, or where it would wait on
itself. -/
def State.tryChain (s : State) (id : Nat) : State :=
  match (mget s.crews id).bind Crew.waitOp with
  | some (.chain h) =>
    match mget s.chains h with
    | some ch => if ch.full && !ch.deadFor id then s else s.endWait id none
    | none => s.endWait id none
  | _ => s

/-- Reserves the next slot for a crew (R171). -/
def State.reserve (s : State) (id h : Nat) (ch : Chain) : State :=
  { s with chains := mput s.chains h { ch with wptr := ch.wptr + 1, owners := mput ch.owners ch.wptr.toNat id } }

/-- Whether a chain holds a sequence number: its entry has completed (R158). -/
def Chain.heldSeq (ch : Chain) (n : Nat) : Bool := decide ((BitVec.ofNat 32 n - ch.compseq).toInt ≤ 0)

/-- Publishes slots (R172); the ready bit of one whose entry has completed already stays as it is. -/
def Chain.publish (ch : Chain) (ns : List Nat) : Chain :=
  { ch with ready := ch.ready ++ ns.filter (fun n => !ch.ready.contains n && !ch.heldSeq n),
            owners := ch.owners.filter (fun e => !ns.contains e.1) }

/-- Changes a store-queue entry. -/
def State.modSq (s : State) (id op : Nat) (f : SqEntry → SqEntry) : State :=
  s.modCrew id (fun d => { d with sq := d.sq.map (fun x => if x.op = op then f x else x) })

/-- A submission that has published slots leaves the queue; its X entry falls when the newest of them completes (R163,
R172). One that published none completes now. -/
def State.submitted (s : State) (id op h : Nat) (ns : List Nat) : State :=
  match mget s.chains h, ns with
  | some ch, n :: r =>
    let far := fun (k : Nat) => (BitVec.ofNat 32 k - ch.compseq).toNat
    let newest := r.foldl (fun m k => if far m < far k then k else m) n
    if ns.all ch.heldSeq then s.leave id op cX []
    else
    let s1 := s.modCrew id (fun d => { d with sq := d.sq.filter (fun e => e.op != op) })
    { s1 with chains := mput s1.chains h { (ch.publish ns) with xops := ch.xops ++ [(id, op, BitVec.ofNat 32 newest)] } }
  | _, _ => s.leave id op cX []

/-- CHTAIL at the head of the queue, released (R172). -/
def State.chtailHead (s : State) (id : Nat) (e : SqEntry) (h : Nat) : State :=
  let ns := match mget s.chains h with
    | some ch => (ch.owners.filter (fun o => o.2 == id)).map (·.1)
    | none => []
  s.submitted id e.op h ns

/-- Whether an EXIT has made a slot of a chain a NOP entry, or its chain is gone (R160). -/
def State.slotNop (s : State) (h seq : Nat) : Bool :=
  match mget s.chains h with
  | some ch => ch.nops.contains seq
  | none => true

/-- TXFER and QFENCE at the head, released: the entry goes into its slot, and when its write is acknowledged it is published
(R173, R174), also where a CHTAIL of the crew that stood before it in the queue has published the slot already (R172). A slot that an
EXIT has made a NOP entry and published is left as it is (R160). Log entry 115. -/
def State.submitHead (s : State) (id : Nat) (c : Crew) (e : SqEntry) (h seq : Nat) (bytes : List Byte) : State :=
  if e.stage < 3 ∧ (s.slotNop h seq || c.done) then s.leave id e.op cX []
  else if e.stage < 3 then
    match s.linkFault e 2 with
    | some f => s.crewFault id f
    | none =>
      let e1 : SqEntry := { e with accs := e.accs.map (fun a => { a with bytes := bytes.map some }) }
      let r := s.sendStores id c e1 2
      r.1.modSq id e.op (fun x => { x with stage := 3, msgs := r.2 })
  else if e.msgs.isEmpty then s.submitted id e.op h [seq]
  else s

/-- The bytes of an entry from its dwords. -/
def entryBytes (ds : List Dword) : List Byte :=
  ((List.range 8).map (fun i => leBytes 8 (ds.getD i 0).toNat)).flatten

/-- TXFER's entry (R173): COPY, no token, no barrier. -/
def txferEntry (coll : Bool) (src dst : Dword) : List Byte :=
  entryBytes [BitVec.ofNat 64 (0xFFFF * 2 ^ 48 + (if coll then 2 ^ 11 else 0) + 1), src, dst]

/-- QFENCE's entry as its queue entry builds it (R174): a join pair for each set mask bit but that of its own chain. The
sequence number of a slot that is not bound is an open value. DESIGN CHOICE: the entry posts no token and arrives on no
barrier (TOKEN 0xFFFF, BBSIG 0). Log entry 111. -/
def State.qfenceEntry (s : State) (h : Nat) (mask : BitVec 16) : State × List Byte :=
  let slots := (List.range 16).filter (fun i => mask.getLsbD i && i != h % 16)
  let r := slots.foldl (fun (r : State × List Dword) i =>
    let k := h / 16 * 16 + i
    let q : State × Word := match mget r.1.chains k with
      | some ch => (r.1, ch.wptr - 1)
      | none => let f := r.1.freshFree; (f.1, loWord f.2)
    (q.1, r.2 ++ [BitVec.ofNat 64 (q.2.toNat * 2 ^ 32 + 2 ^ 31 + k)])) (s, [])
  (r.1, entryBytes (BitVec.ofNat 64 (0xFFFF * 2 ^ 48 + 3) :: r.2))

/-- QFENCE at the head of the queue, released. -/
def State.qfenceHead (s : State) (id : Nat) (c : Crew) (e : SqEntry) (h seq : Nat) (mask : BitVec 16) : State :=
  if e.stage < 3 then
    let b := s.qfenceEntry h mask
    b.1.submitHead id c e h seq b.2
  else s.submitHead id c e h seq []

/-- Every slot that a crew has reserved and not published becomes a NOP entry and is published at its EXIT (R160). -/
def State.exitChains (s : State) (id : Nat) : State :=
  { s with chains := s.chains.map (fun e =>
      let ns := (e.2.owners.filter (fun o => o.2 == id)).map (·.1)
      (e.1, { (e.2.publish ns) with nops := e.2.nops ++ ns })) }

/-! The chain instructions. -/

/-- An engine submission or arrival that acts in no lane completes at once, in its turn (R101, R152). -/
def Cx.idle (x : Cx) (c : Crew) (k : Nat) : Rsl := { s := x.s, c := (c.raise k x.op).lower k x.op, adv := true }

/-- CHPUSH (R171). -/
def chpushBody (f : LE) (x : Cx) : Iss Rsl := do
  dstCheck x.c f.dst 1 true
  needOpnd (decide (f.sb.toNat ≤ 240)) 0 2
  let srcs := [f.srcA 1, { f.srcB 16 with dead := false, zero := false }]
  let r ← x.once.peek srcs
  x.counterRoom cS
  x.queueRoom
  let c0 := x.c.emptySrcs [f.srcA 1]
  if x.act = 0 then return x.idle c0 cS
  else
    let h := ((nthOpd r 0).at x.lane).toNat
    let ch ← x.needChain h 1
    x.once.deadReads srcs
    if ch.full then x.chainWait 0xB1 h
    else
      let t ← x.translateAll x.s .store 64 [(x.lane, ch.slot ch.wptr)]
      x.once.poisonCheck r.flatten
      let bs := ((nthRun r 1).map (fun o => leBytes 4 (o.at x.lane).toNat)).flatten
      let accs := t.2.map (fun a => { a with bytes := bs.map some })
      let c1 := (c0.raise cS x.op).enqueue x.op x.p.pc (.store 2) accs false 8
      return { s := t.1.reserve x.id h ch, c := x.writeWord c1 f.dst ch.wptr, adv := true }

/-- CHTAIL (R172). -/
def chtailBody (f : LE) (x : Cx) : Iss Rsl := do
  needInsn (decide (orderScope f < 7))
  let srcs := [f.srcA 1]
  let r ← x.once.peek srcs
  x.counterRoom cX
  x.queueRoom
  let c0 := x.c.emptySrcs srcs
  if x.act = 0 then return x.idle c0 cX
  else
    let h := ((nthOpd r 0).at x.lane).toNat
    needOpnd (x.s.chainOf x.c.ctx h).isSome 3 1
    x.once.deadReads srcs
    x.once.poisonCheck r.flatten
    return { s := x.s, c := (c0.raise cX x.op).enqueue x.op x.p.pc (.chtail h) [] true (orderScope f), adv := true }

/-- TXFER (R173). -/
def txferBody (f : LE) (x : Cx) : Iss Rsl := do
  needInsn (decide (orderScope f < 7))
  dstCheck x.c f.dst 1 true
  let srcs := [f.srcD 1, f.srcA 2, f.srcB 2]
  let r ← x.once.peek srcs
  x.counterRoom cX
  x.queueRoom
  let c0 := x.c.emptySrcs srcs
  if x.act = 0 then return x.idle c0 cX
  else
    let h := ((nthOpd r 0).at x.lane).toNat
    let ch ← x.needChain h 0
    x.once.deadReads srcs
    if ch.full then x.chainWait 0xB0 h
    else
      let t ← x.translateAll x.s .store 64 [(x.lane, ch.slot ch.wptr)]
      x.once.poisonCheck r.flatten
      let bs := txferEntry (f.fn.getLsbD 0) (pairAt (nthRun r 1) x.lane) (pairAt (nthRun r 2) x.lane)
      let c1 := (c0.raise cX x.op).enqueue x.op x.p.pc (.txfer h ch.wptr.toNat bs) t.2 true (orderScope f)
      return { s := t.1.reserve x.id h ch, c := x.writeWord c1 f.dst ch.wptr, adv := true }

/-- QFENCE (R174). -/
def qfenceBody (f : LE) (x : Cx) : Iss Rsl := do
  needInsn (decide (orderScope f < 7))
  dstCheck x.c f.dst 1 true
  let srcs := [f.srcA 1, f.srcB 1]
  let r ← x.once.peek srcs
  x.counterRoom cX
  x.queueRoom
  let c0 := x.c.emptySrcs srcs
  if x.act = 0 then return x.idle c0 cX
  else
    let h := ((nthOpd r 0).at x.lane).toNat
    let mask : BitVec 16 := ((nthOpd r 1).at x.lane).setWidth 16
    let ch ← x.needChain h 1
    needOpnd (decide (((List.range 16).filter (fun i => mask.getLsbD i && i != h % 16)).length ≤ 4)) 0 2
    x.once.deadReads srcs
    if ch.full then x.chainWait 0xB3 h
    else
      let t ← x.translateAll x.s .store 64 [(x.lane, ch.slot ch.wptr)]
      x.once.poisonCheck r.flatten
      let c1 := (c0.raise cX x.op).enqueue x.op x.p.pc (.qfence h ch.wptr.toNat mask) t.2 true (orderScope f)
      return { s := t.1.reserve x.id h ch, c := x.writeWord c1 f.dst ch.wptr, adv := true }

/-! Waits that read a home (R175, R184). -/

/-- The acquire that a wait ends with (R148, R456). -/
def State.wakeAcquire (s : State) (c : Crew) (scope : Nat) : State :=
  if decide (scope < 8) && s.scopeWide c scope then s.dropCleanWhere c.core (fun _ => true) else s

/-- A place some bytes further on. -/
def Target.plus (t : Target) (k : Nat) : Target :=
  match t with
  | .hbm a => .hbm (a + k)
  | .peer d a => .peer d (a + k)
  | .host a => .host (a + k)
  | .gaz a => .gaz (a + k)

/-- Judges a value that a SEQWAIT.mem or BBWAIT has read at its home (R175, R184). -/
def State.judge (s : State) (id : Nat) (bs : List Byte) (poison : Bool) : State :=
  match mget s.crews id with
  | none => s
  | some c =>
    match c.wait with
    | none => s
    | some w =>
      match w.op with
      | .seqMem a =>
        if poison then s.waitFault id (a.failRec 10 w.pc 1)
        else if seqGe (BitVec.ofNat 32 (leNat bs)) w.val then (s.wakeAcquire c w.scope).endWait id none
        else s
      | .bbwait a =>
        let phase := leNat (bs.drop 6)
        if poison then s.waitFault id (a.failRec 10 w.pc 1)
        else if phase ≠ w.val.toNat then (s.wakeAcquire c w.scope).endWait id (some (BitVec.ofNat 32 phase))
        else s
      | _ => s

/-- One read at the home for a wait (R175): a peer's or the host's reply is judged when it comes. -/
def State.pollAt (s : State) (id : Nat) (c : Crew) (w : Wait) (a : LaneAcc) : State :=
  match a.tgt with
  | .hbm pa =>
    if !s.reach (c.core / 128) pa then s.waitFault id (a.failRec 17 w.pc 1)
    else
      match s.homeLoad a.owner pa a.n with
      | .error e => s.waitFault id (a.failRec e w.pc 1)
      | .ok (s1, bs, p) => s1.judge id bs p
  | .gaz off => s.judge id (s.gazRead off a.n) false
  | .peer dev pa =>
    if !s.peerPath dev then s.waitFault id (a.failRec 17 w.pc 1)
    else if s.peerReqs.any (fun r => r.crew == id && r.op == w.num) then s
    else (s.askPeer (c.tag id w.pc a.va a.leaf a.level) w.num a.lane dev pa a.owner (.read a.n)).1
  | .host off =>
    if s.hostReqs.any (fun r => r.crew == id && r.op == w.num) then s
    else (s.askHost (c.tag id w.pc a.va a.leaf a.level) w.num a.lane off a.n false []).1

/-- A SEQWAIT or BBWAIT looks at its condition. -/
def State.trySeq (s : State) (id : Nat) : State :=
  match mget s.crews id with
  | none => s
  | some c =>
    match c.wait with
    | none => s
    | some w =>
      match w.op with
      | .seqChain h =>
        match mget s.chains h with
        | some ch => if seqGe ch.compseq w.val then (s.wakeAcquire c w.scope).endWait id none else s
        | none => s
      | .seqThaw => if seqGe s.thawDone w.val then (s.wakeAcquire c w.scope).endWait id none else s
      | .seqMem a => s.pollAt id c w a
      | .bbwait a => s.pollAt id c w a
      | _ => s

/-- The WDET of a SEQWAIT (R456): form and scope. Log entry 36. -/
def seqDet (f : LE) : Nat := orderScope f + 16 * (f.fn.toNat % 4)

/-- SEQWAIT.chain (R175), and the illegal form 11. -/
def seqChainBody (f : LE) (x : Cx) : Iss Rsl := do
  needInsn (decide (orderScope f < 7 ∧ f.fn.toNat % 4 ≠ 3))
  let srcs := [f.srcA 1, f.srcB 1]
  let r ← x.once.peek srcs
  let c0 := x.c.emptySrcs srcs
  if x.act = 0 then return { s := x.s, c := c0.waitPoint, adv := true }
  else
    let h := ((nthOpd r 0).at x.lane).toNat
    needOpnd (x.s.chainOf x.c.ctx h).isSome 3 1
    x.once.deadReads srcs
    x.once.poisonCheck r.flatten
    let w := x.waitFor 2 (seqDet f) ((nthOpd r 1).at x.lane) (BitVec.ofNat 64 h) 0x110 (orderScope f) (.seqChain h)
    return { s := x.s, c := c0.waitAt w, adv := true }

/-- SEQWAIT.thaw (R175). -/
def seqThawBody (f : LE) (x : Cx) : Iss Rsl := do
  needInsn (decide (orderScope f < 7))
  let srcs := [f.srcB 1]
  let r ← x.once.fetch srcs
  let c0 := x.c.emptySrcs srcs
  if x.act = 0 then return { s := x.s, c := c0.waitPoint, adv := true }
  else
    let w := x.waitFor 2 (seqDet f) ((nthOpd r 0).at x.lane) 0 0x110 (orderScope f) .seqThaw
    return { s := x.s, c := c0.waitAt w, adv := true }

/-- SEQWAIT.mem (R175). -/
def seqMemBody (f : LE) (x : Cx) : Iss Rsl := do
  needInsn (decide (orderScope f < 7))
  let srcs := [f.srcA 2, f.srcB 1]
  let r ← x.once.peek srcs
  let c0 := x.c.emptySrcs srcs
  if x.act = 0 then return { s := x.s, c := c0.waitPoint, adv := true }
  else
    let va := pairAt (nthRun r 0) x.lane
    x.once.aligned 4 (fun _ => va)
    x.once.deadReads srcs
    let t ← x.translateAll x.s .load 4 [(x.lane, va)]
    x.once.poisonCheck r.flatten
    match t.2 with
    | [] => return { s := t.1, c := c0.waitPoint, adv := true }
    | a :: _ =>
      let w := x.waitFor 2 (seqDet f) ((nthOpd r 1).at x.lane) va 0x110 (orderScope f) (.seqMem a)
      return { s := t.1, c := c0.waitAt w, adv := true }

/-! Byte-counting barriers. -/

/-- The dwords of a barrier after an arrival of n bytes (R181). -/
def arrive (d0 d1 : Dword) (n : Nat) : Dword :=
  let expect := bits d0 0 48
  let a := bits d1 0 48 + n
  let phase := bits d1 48 16
  if expect = 0 then BitVec.ofNat 64 ((phase + 1) % 2 ^ 16 * 2 ^ 48)
  else BitVec.ofNat 64 ((phase + a / expect) % 2 ^ 16 * 2 ^ 48 + a % expect % 2 ^ 48)

/-- One indivisible step on the 16 bytes of a barrier at its home (R181, R182). -/
def State.homeBarrier (s : State) (owner pa : Nat) (f : Dword → Dword → Dword × Dword) : Except Nat State :=
  if s.frozenAt pa 16 then .error 11
  else if s.heapHit pa 16 false then .error 14
  else
    match s.recallAt pa with
    | .error x => .error x
    | .ok s1 =>
      if s1.poisoned pa 16 then .error 10
      else
        let d := f (s1.homeDw owner pa) (s1.homeDw owner (pa + 8))
        let bs := leBytes 8 d.1.toNat ++ leBytes 8 d.2.toNat
        .ok ((s1.homeWrite owner (maskedCells pa (bs.map some)) false).touch (pa / 128))

/-- An arrival at its home (R181). -/
def State.homeArrive (s : State) (owner pa n : Nat) : Except Nat State :=
  s.homeBarrier owner pa (fun d0 d1 => (d0, arrive d0 d1 n))

/-- BBINIT at its home (R182). -/
def State.homeBbinit (s : State) (owner pa : Nat) (expect : Word) : Except Nat State :=
  s.homeBarrier owner pa (fun d0 d1 =>
    (BitVec.ofNat 64 (bits d0 48 16 * 2 ^ 48 + expect.toNat), BitVec.ofNat 64 (bits d1 48 16 * 2 ^ 48)))

/-- BBINIT and BBARR at the head: the request goes to the barrier's home, and the entry leaves when it has been performed
there (R182, R183). -/
def State.barrierHead (s : State) (id : Nat) (c : Crew) (e : SqEntry) (kind : LaneAcc → MsgKind) (what : PeerOp) : State :=
  if e.stage < 3 then
    match s.linkFault e 3 with
    | some f => s.crewFault id f
    | none =>
      let r := e.accs.foldl (fun (r : State × List Nat) a =>
        match a.tgt with
        | .hbm pa => let o := r.1.post c id e (some a) (pa / 128) a.owner (kind a); (o.1, r.2 ++ [o.2])
        | .peer dev pa => let o := r.1.askPeer (c.tag id e.pc a.va a.leaf a.level) e.op a.lane dev pa a.owner what; (o.1, r.2 ++ [o.2])
        | _ => r) (s, [])
      r.1.modSq id e.op (fun x => { x with stage := 3, msgs := r.2 })
  else if e.msgs.isEmpty then s.leave id e.op cS []
  else s

/-- BBINIT and BBARR at issue: the barrier's access. -/
def barrierBody (f : LE) (rel : Bool) (kind : Nat → SqKind) (x : Cx) : Iss Rsl := do
  needInsn (!rel || decide (orderScope f < 7))
  let srcs := [f.srcA 2, f.srcB 1]
  let r ← x.once.peek srcs
  x.counterRoom cS
  x.queueRoom
  let c0 := x.c.emptySrcs srcs
  if x.act = 0 then return x.idle c0 cS
  else
    let va := pairAt (nthRun r 0) x.lane
    x.once.aligned 16 (fun _ => va)
    x.once.deadReads srcs
    let t ← x.translateAll x.s .atomic 16 [(x.lane, va)]
    x.once.poisonCheck r.flatten
    let n := ((nthOpd r 1).at x.lane).toNat
    let c1 := (c0.raise cS x.op).enqueue x.op x.p.pc (kind n) t.2 rel (if rel then orderScope f else 8)
    return { s := t.1, c := c1, adv := true }

/-- The access that BBWAIT makes (R184): a load that KIND 10 and 11 pages refuse with ATOMKIND. -/
def Cx.phaseAcc (x : Cx) (va : Dword) : Iss (State × LaneAcc) :=
  let refuse := fun (ent : Dword) (lvl : Nat) => (Ev.fault (({ xlc := 13, level := lvl, ent := ent } : XFail).record x.p.pc va .load x.lane))
  match x.s.translate x.c.unit x.c.ctx va .load with
  | (_, .error e) =>
    if (e.xlc = 7 ∨ e.xlc = 9) ∧ 2 ≤ pteKind e.ent then .error (refuse e.ent e.level)
    else .error (.fault (e.record x.p.pc va .load x.lane))
  | (s1, .ok t) =>
    if 2 ≤ pteKind t.leaf then .error (refuse t.leaf t.level)
    else .ok (s1, { mkAcc x.lane va t 8 with tgt := t.tgt.plus 8 })

/-- BBWAIT (R184). -/
def bbwaitBody (f : LE) (x : Cx) : Iss Rsl := do
  needInsn (decide (orderScope f < 7))
  dstCheck x.c f.dst 1 true
  let srcs := [f.srcA 2, f.srcB 1]
  let r ← x.once.peek srcs
  let c0 := x.c.emptySrcs srcs
  if x.act = 0 then return { s := x.s, c := c0.waitPoint, adv := true }
  else
    let va := pairAt (nthRun r 0) x.lane
    x.once.aligned 16 (fun _ => va)
    x.once.deadReads srcs
    let t ← x.phaseAcc va
    x.once.poisonCheck r.flatten
    let p := ((nthOpd r 1).at x.lane) &&& 0xFFFF
    let w := x.waitFor 3 (orderScope f) p va f.dst (orderScope f) (.bbwait t.2)
    return { s := t.1, c := c0.waitAt w, adv := true }

/-! The meanings. -/

/-- SEQWAIT.chain (R175). -/
def execSeqwaitChain (f : LE) (s : State) : Out := issueW s 0xA5 8 f.g (seqChainBody f) State.trySeq
/-- SEQWAIT.thaw (R175). -/
def execSeqwaitThaw (f : LE) (s : State) : Out := issueW s 0xA5 8 f.g (seqThawBody f) State.trySeq
/-- SEQWAIT.mem (R175). -/
def execSeqwaitMem (f : LE) (s : State) : Out := issueW s 0xA5 8 f.g (seqMemBody f) State.trySeq
/-- TXFER (R173). -/
def execTxfer (f : LE) (s : State) : Out := issueW s 0xB0 8 f.g (txferBody f) State.tryChain
/-- CHPUSH (R171). -/
def execChpush (f : LE) (s : State) : Out := issueW s 0xB1 8 f.g (chpushBody f) State.tryChain
/-- CHTAIL (R172). -/
def execChtail (f : LE) (s : State) : Out := issue s 0xB2 8 f.g (chtailBody f)
/-- QFENCE (R174). -/
def execQfence (f : LE) (s : State) : Out := issueW s 0xB3 8 f.g (qfenceBody f) State.tryChain
/-- BBINIT (R182). -/
def execBbinit (f : LE) (s : State) : Out := issue s 0xB4 8 f.g (barrierBody f false (fun n => .bbinit (BitVec.ofNat 32 n)))
/-- BBARR (R183). -/
def execBbarr (f : LE) (s : State) : Out := issue s 0xB5 8 f.g (barrierBody f true .bbarr)
/-- BBWAIT (R184). -/
def execBbwait (f : LE) (s : State) : Out := issueW s 0xB6 8 f.g (bbwaitBody f) State.trySeq

end Sys2Proof.Machine
end

