-- ==== Sys2Proof/Machine/Integer.lean ====
section
/-!
DEFINITION. Integer, logic and address arithmetic: opcodes 0x00 to 0x23 (R243 to R265) and their compact and short forms
(R39 to R41, R266, R267).
-/

namespace Sys2Proof

/-- A C3 entry as the long form it is (R39): crossbar codes 0, no dead bits, LA 0, OCW 0. -/
def C3.toL3 (f : C3) (m6 : BitVec 6) : L3 :=
  { g := f.g, la := 0, dst := f.d.setWidth 9, ocw := 0, sa := f.a.setWidth 9, xa := 0, ka := false,
    sb := f.b.setWidth 9, xb := 0, kb := false, mod6 := m6 }

/-- A unary C3 entry ignores B (R39): the second designator is zero. -/
def C3.toL3u (f : C3) (m6 : BitVec 6) : L3 := { f.toL3 m6 with sb := 0x110 }

/-- A CI entry as a long form whose sources are d and an immediate (R39, R267). -/
def CI.toL3 (f : CI) (m6 : BitVec 6) : L3 :=
  { g := f.g, la := 0, dst := f.d.setWidth 9, ocw := 0, sa := f.d.setWidth 9, xa := 0, ka := false, sb := 0x110, xb := 0,
    kb := false, mod6 := m6 }

/-- sext(IMM12) (R39). -/
def CI.immWord (f : CI) : Word := f.imm.signExtend 32

/-- An S16 operation as its C3 entry with A = d and B = a (R41). -/
def S16.toC3 (f : S16) : C3 := { g := Guard.always, d := f.d, a := f.d, b := f.a.setWidth 6 }

end Sys2Proof

namespace Sys2Proof.Machine

/-- The value of an operand of 32 or 64 bits in a lane (R52). -/
def laneVal (os : List Opd) (w l : Nat) : Nat :=
  if w = 64 then (pairAt os l).toNat else ((os.getD 0 ⟨.u 0, 0⟩).at l).toNat

/-- The words of a lane-wise result of k registers, each U when every source is U, else G (R214). -/
def laneShapes (x : Cx) (os : List Opd) (k : Nat) (fn : Nat → Nat) : List Shape :=
  (List.range k).map (fun i => natShape x os (fun l => BitVec.ofNat 32 (fn l >>> (32 * i))))

/-- Writes a result of registers (R215, R219, R246): the dead-marked sources are emptied first (R217); the first word goes
to the latch of the pipe and to the operand cache. -/
def Cx.writeResult (x : Cx) (dst : Desig) (ocw : BitVec 4) (latch : Option Nat) (srcs : List Src) (shs : List Shape) :
    Rsl :=
  let c1 := x.c.emptySrcs srcs
  let regs := (shs.zipIdx.map (fun e => regDests c1 dst e.2 x.act e.1 0)).flatten
  let sh0 := shs.getD 0 (.u 0)
  let ds := regs ++ ocDests ocw x.act sh0 0 ++ (match latch with | some n => latchDests n x.act sh0 | none => [])
  { s := x.s, c := c1.putDests ds, adv := true }

/-- The result of a long-latency register instruction (R26): known now, written when its window of win instructions
closes. -/
def Cx.pendResult (x : Cx) (dst : Desig) (ocw : BitVec 4) (latch : Option Nat) (srcs : List Src) (shs : List Shape)
    (win : Nat) (fl : BitVec 5) : Rsl :=
  let c1 := x.c.emptySrcs srcs
  let regs := (shs.zipIdx.map (fun e => regDests c1 dst e.2 x.act e.1 0)).flatten
  let sh0 := shs.getD 0 (.u 0)
  let ds := regs ++ ocDests ocw x.act sh0 0 ++ (match latch with | some n => latchDests n x.act sh0 | none => [])
  let c2 : Crew := { c1 with fpflags := c1.fpflags ||| fl.setWidth 32 }
  { s := x.s, c := (c2.pendDests x.op win true ds).commit, adv := true }

/-- A register instruction: legality, destination check, sources, result (R47, R246). -/
def aluBody (legal : Bool) (dst : Desig) (kd : Nat) (ocw : BitVec 4) (latch : Nat) (srcs : List Src)
    (res : Cx → List (List Opd) → List Shape) (x : Cx) : Iss Rsl := do
  needInsn legal
  dstCheck x.c dst kd true
  let r ← x.fetch srcs
  return x.writeResult dst ocw (some latch) srcs (res x r)

/-- The operands of a two-source instruction whose source B may be an immediate delivered U (R267). -/
def ab (r : List (List Opd)) (imm : Option Word) : List Opd × List Opd :=
  (nthRun r 0, match imm with | some w => [⟨.u w, 0⟩] | none => nthRun r 1)

/-- Sources A and B with their register counts; an immediate has no source B. -/
def srcsAB (f : L3) (ka kb : Nat) (imm : Option Word) : List Src :=
  match imm with
  | some _ => [{ f.srcA with k := ka }]
  | none => [{ f.srcA with k := ka }, { f.srcB with k := kb }]

/-- TY and SAT of R243. -/
def tyWide (m6 : BitVec 6) : Nat := if m6.getLsbD 1 then 64 else 32
def tySigned (m6 : BitVec 6) : Bool := !m6.getLsbD 0
def tySat (m6 : BitVec 6) : Bool := m6.getLsbD 2

/-- int(): a value as TY reads it (R249). -/
def intOf (w : Nat) (sg : Bool) (v : Nat) : Int := if sg then signed w v else (v : Int)

/-- sat(): the range of a w-bit format (R51). -/
def satInt (w : Nat) (sg : Bool) (x : Int) : Int :=
  if sg then max (-(2 : Int) ^ (w - 1)) (min ((2 : Int) ^ (w - 1) - 1) x) else max 0 (min ((2 : Int) ^ w - 1) x)

/-- Narrowing of an exact integer result (R249): saturated or modulo 2^w. -/
def narrow (w : Nat) (sg sat : Bool) (x : Int) : Nat := wrapN w (if sat then satInt w sg x else x)

/-- Base and stride of a shape that counts as A (R248). -/
def affOf (sh : Shape) : Option (Word × Word) :=
  match sh with
  | .u w => some (w, 0)
  | .a b s => some (b, s)
  | .g _ => none

/-- An affine result: U where the stride is 0 (R248). -/
def mkAff (b s : Word) : Shape := if s = 0 then .u b else .a b s

/-- The words of a two-source integer operation: the affine case of a 32-bit form without saturation, else lane by lane. -/
def int2Res (f : L3) (imm : Option Word) (fn : (w : Nat) → (sg sat : Bool) → Nat → Nat → Nat)
    (aff : Shape → Shape → Option Shape) (x : Cx) (r : List (List Opd)) : List Shape :=
  let w := tyWide f.mod6
  let o := ab r imm
  let plain := laneShapes x (o.1 ++ o.2) (w / 32)
    (fun l => fn w (tySigned f.mod6) (tySat f.mod6) (laneVal o.1 w l) (laneVal o.2 w l))
  match w, tySat f.mod6, o.1, o.2 with
  | 32, false, a :: _, b :: _ => (match aff a.sh b.sh with | some sh => [sh] | none => plain)
  | _, _, _, _ => plain

/-- A two-source integer operation: its exact value on int(A) and int(B), and its affine case for 32-bit forms without
saturation. -/
def int2 (opc : Nat) (f : L3) (imm : Option Word) (fn : (w : Nat) → (sg sat : Bool) → Nat → Nat → Nat)
    (aff : Shape → Shape → Option Shape) : Cx → Iss Rsl :=
  let w := tyWide f.mod6
  aluBody (intLegal opc f.mod6) f.dst (w / 32) f.ocw 0 (srcsAB f (w / 32) (w / 32) imm) (int2Res f imm fn aff)

/-- No affine case. -/
def noAff (_ _ : Shape) : Option Shape := none

/-- IADD and ISUB (R249). -/
def addBody (sub : Bool) (opc : Nat) (f : L3) (imm : Option Word) : Cx → Iss Rsl :=
  int2 opc f imm
    (fun w sg sat a b => narrow w sg sat (if sub then intOf w sg a - intOf w sg b else intOf w sg a + intOf w sg b))
    (fun a b => do
      let p ← affOf a
      let q ← affOf b
      return if sub then mkAff (p.1 - q.1) (p.2 - q.2) else mkAff (p.1 + q.1) (p.2 + q.2))

/-- IMUL (R251); A × U is affine (R248). -/
def mulBody (f : L3) (imm : Option Word) : Cx → Iss Rsl :=
  int2 0x04 f imm (fun w _ _ a b => a * b % 2 ^ w)
    (fun a b =>
      match a, b with
      | .a p q, .u v => some (mkAff (p * v) (q * v))
      | .u v, .a p q => some (mkAff (p * v) (q * v))
      | _, _ => none)

/-- IMULH (R251). -/
def mulhBody (f : L3) : Cx → Iss Rsl :=
  int2 0x05 f none (fun w sg _ a b => wrapN w ((intOf w sg a * intOf w sg b) / (2 : Int) ^ w)) noAff

/-- Quotient and remainder of R252. -/
def divRem (w : Nat) (sg : Bool) (a b : Nat) : Nat × Nat :=
  if b = 0 then (2 ^ w - 1, a)
  else if sg && a == 2 ^ (w - 1) && b == 2 ^ w - 1 then (a, 0)
  else
    let q := (intOf w sg a).tdiv (intOf w sg b)
    (wrapN w q, wrapN w (intOf w sg a - intOf w sg b * q))

/-- IDIV and IREM (R252). -/
def divBody (rem : Bool) (opc : Nat) (f : L3) : Cx → Iss Rsl :=
  int2 opc f none (fun w sg _ a b => if rem then (divRem w sg a b).2 else (divRem w sg a b).1) noAff

/-- IMIN and IMAX (R253). -/
def minmaxBody (mx : Bool) (opc : Nat) (f : L3) (imm : Option Word) : Cx → Iss Rsl :=
  int2 opc f imm (fun w sg _ a b =>
    if mx then (if intOf w sg a < intOf w sg b then b else a) else (if intOf w sg b < intOf w sg a then b else a)) noAff

/-- AND, OR, XOR, ANDN (R258): 0 to 3. -/
def logic (k w a b : Nat) : Nat :=
  match k with
  | 0 => a &&& b
  | 1 => a ||| b
  | 2 => a ^^^ b
  | _ => a &&& (2 ^ w - 1 - b)

def logicBody (k opc : Nat) (f : L3) (imm : Option Word) : Cx → Iss Rsl :=
  int2 opc f imm (fun w _ _ a b => logic k w a b) noAff

/-- SHL, SHR, SAR, ROL (R259): 0 to 3, k the unsigned value of B. -/
def shiftVal (op w a k : Nat) : Nat :=
  match op with
  | 0 => if k < w then (a <<< k) % 2 ^ w else 0
  | 1 => if k < w then a >>> k else 0
  | 2 => wrapN w (signed w a / (2 : Int) ^ (min k (w - 1)))
  | _ => let r := k % w; ((a <<< r) ||| (a >>> (w - r))) % 2 ^ w

/-- The words of a shift; SHL of A by a U amount below 32 is affine (R248). -/
def shiftRes (op : Nat) (f : L3) (imm : Option Word) (x : Cx) (r : List (List Opd)) : List Shape :=
  let w := tyWide f.mod6
  let o := ab r imm
  let plain := laneShapes x (o.1 ++ o.2) (w / 32) (fun l => shiftVal op w (laneVal o.1 w l) (laneVal o.2 32 l))
  match op, w, o.1, o.2 with
  | 0, 32, a :: _, b :: _ =>
    (match a.sh, b.sh with
     | .a p q, .u k => if k.toNat < 32 then [mkAff (p <<< k.toNat) (q <<< k.toNat)] else plain
     | _, _ => plain)
  | _, _, _, _ => plain

/-- The shifts: B is one register even in 64-bit forms (R259). -/
def shiftBody (op opc : Nat) (f : L3) (imm : Option Word) : Cx → Iss Rsl :=
  let w := tyWide f.mod6
  aluBody (intLegal opc f.mod6) f.dst (w / 32) f.ocw 0 (srcsAB f (w / 32) 1 imm) (shiftRes op f imm)

/-- The words of a one-source integer operation, kd of them: its affine case, else lane by lane. -/
def int1Res (f : L3) (kd : Nat) (fn : (w : Nat) → (sat : Bool) → Nat → Nat) (aff : Shape → Option Shape) (x : Cx)
    (r : List (List Opd)) : List Shape :=
  let w := tyWide f.mod6
  let a := nthRun r 0
  let plain := laneShapes x a kd (fun l => fn w (tySat f.mod6) (laneVal a w l))
  match w, tySat f.mod6, a with
  | 32, false, o :: _ => (match aff o.sh with | some sh => [sh] | none => plain)
  | _, _, _ => plain

/-- A one-source integer operation; its result is one register where one is true. -/
def int1 (opc : Nat) (f : L3) (one : Bool) (fn : (w : Nat) → (sat : Bool) → Nat → Nat) (aff : Shape → Option Shape) :
    Cx → Iss Rsl :=
  let w := tyWide f.mod6
  let kd := if one then 1 else w / 32
  aluBody (intLegal opc f.mod6) f.dst kd f.ocw 0 [{ f.srcA with k := w / 32 }] (int1Res f kd fn aff)

/-- INEG (R249), affine in 32 bits (R248). -/
def negBody (f : L3) : Cx → Iss Rsl :=
  int1 0x09 f false (fun w sat a => narrow w true sat (-(signed w a)))
    (fun sh => (affOf sh).map (fun p => mkAff (-p.1) (-p.2)))

/-- IABS (R249). -/
def absBody (f : L3) : Cx → Iss Rsl :=
  int1 0x0A f false (fun w sat a => narrow w true sat (signed w a).natAbs) (fun _ => none)

/-- NOT (R258). -/
def notBody (f : L3) : Cx → Iss Rsl := int1 0x11 f false (fun w _ a => 2 ^ w - 1 - a) (fun _ => none)

/-- POPC, CLZ, CTZ, BREV (R261). -/
def popcVal (w a : Nat) : Nat := ((List.range w).filter (fun i => a.testBit i)).length
def clzVal (w a : Nat) : Nat := ((List.range w).find? (fun i => a.testBit (w - 1 - i))).getD w
def ctzVal (w a : Nat) : Nat := ((List.range w).find? (fun i => a.testBit i)).getD w
def brevVal (w a : Nat) : Nat := (List.range w).foldl (fun v i => if a.testBit i then v + 2 ^ (w - 1 - i) else v) 0

def popcBody (f : L3) : Cx → Iss Rsl := int1 0x17 f true (fun w _ a => popcVal w a) (fun _ => none)
def clzBody (f : L3) : Cx → Iss Rsl := int1 0x18 f true (fun w _ a => clzVal w a) (fun _ => none)
def ctzBody (f : L3) : Cx → Iss Rsl := int1 0x19 f true (fun w _ a => ctzVal w a) (fun _ => none)
def brevBody (f : L3) : Cx → Iss Rsl := int1 0x1A f false (fun w _ a => brevVal w a) (fun _ => none)

/-- BFE (R262). -/
def bfeVal (sg : Bool) (a b : Nat) : Nat :=
  let pos := b % 256
  let len := b / 256 % 256
  if 32 ≤ pos ∨ len = 0 then 0
  else
    let n := min len (32 - pos)
    let v := a >>> pos % 2 ^ n
    if sg then wrapN 32 (signed n v) else v

def bfeBody (f : L3) : Cx → Iss Rsl :=
  aluBody (intLegal 0x1B f.mod6) f.dst 1 f.ocw 0 (srcsAB f 1 1 none) (fun x r =>
    laneShapes x r.flatten 1 (fun l => bfeVal (tySigned f.mod6) (laneVal (nthRun r 0) 32 l) (laneVal (nthRun r 1) 32 l)))

/-- The three sources of a three-source instruction (R32); SC 0x1 to 0x3 takes the illegal-operand trap. -/
def three (f : L3) (kc : Nat) (res : Cx → List (List Opd) → List Shape) (legal : Bool) (kd latch : Nat) (x : Cx) :
    Iss Rsl := do
  needInsn legal
  dstCheck x.c f.dst kd true
  match f.srcC with
  | none => illOpnd 0 3
  | some c =>
    needOpnd (kc == 1 || f.mod6.toNat / 4 == 0) 0 3
    let srcs := [f.srcA, f.srcB, { c with k := kc }]
    let r ← x.fetch srcs
    return x.writeResult f.dst f.ocw (some latch) srcs (res x r)

/-- The value of IMAD by its TY (R251). -/
def imadVal (t a b c : Nat) : Nat :=
  match t with
  | 0 => (a * b + c) % 2 ^ 32
  | 1 => wrapN 64 (signed 32 a * signed 32 b + signed 64 c)
  | 2 => (a * b + c) % 2 ^ 64
  | _ => wrapN 32 (satInt 32 true (signed 32 a * signed 32 b + signed 32 c))

/-- The affine case of IMAD (R248). -/
def imadAff (p q o : Shape) : Option Shape :=
  match p, q, affOf o with
  | .a ba st, .u v, some e => some (mkAff (ba * v + e.1) (st * v + e.2))
  | .u v, .a ba st, some e => some (mkAff (ba * v + e.1) (st * v + e.2))
  | .u u, .u v, some e => some (mkAff (u * v + e.1) e.2)
  | _, _, _ => none

/-- Whether IMAD's TY is a 64-bit one (R251). -/
def imadWide (m6 : BitVec 6) : Bool := m6.toNat % 4 == 1 || m6.toNat % 4 == 2

/-- The words of IMAD. -/
def imadRes (f : L3) (x : Cx) (r : List (List Opd)) : List Shape :=
  let t := f.mod6.toNat % 4
  let k := if imadWide f.mod6 then 2 else 1
  let plain := laneShapes x r.flatten k (fun l =>
    imadVal t (laneVal (nthRun r 0) 32 l) (laneVal (nthRun r 1) 32 l) (laneVal (nthRun r 2) (32 * k) l))
  match t, nthRun r 0, nthRun r 1, nthRun r 2 with
  | 0, p :: _, q :: _, o :: _ => (match imadAff p.sh q.sh o.sh with | some sh => [sh] | none => plain)
  | _, _, _, _ => plain

/-- IMAD (R251). -/
def imadBody (f : L3) : Cx → Iss Rsl :=
  let k := if imadWide f.mod6 then 2 else 1
  three f k (imadRes f) (intLegal 0x06 f.mod6) k 0

/-- FUNSH (R260). -/
def funshVal (t a b c : Nat) : Nat :=
  let k := if t < 2 then c % 32 else min c 32
  let v := a * 2 ^ 32 + b
  if t % 2 = 0 then v >>> k % 2 ^ 32 else (v <<< k) >>> 32 % 2 ^ 32

def funshBody (f : L3) : Cx → Iss Rsl :=
  three f 1 (fun x r => laneShapes x r.flatten 1 (fun l =>
    funshVal (f.mod6.toNat % 4) (laneVal (nthRun r 0) 32 l) (laneVal (nthRun r 1) 32 l) (laneVal (nthRun r 2) 32 l)))
    (intLegal 0x16 f.mod6) 1 0

/-- BFI (R262). -/
def bfiVal (a b c : Nat) : Nat :=
  let pos := b % 256
  let len := b / 256 % 256
  if 32 ≤ pos ∨ len = 0 then c
  else
    let n := min len (32 - pos)
    let mask := (2 ^ n - 1) <<< pos
    (c &&& (2 ^ 32 - 1 - mask)) ||| ((a <<< pos) &&& mask)

def bfiBody (f : L3) : Cx → Iss Rsl :=
  three f 1 (fun x r => laneShapes x r.flatten 1 (fun l =>
    bfiVal (laneVal (nthRun r 0) 32 l) (laneVal (nthRun r 1) 32 l) (laneVal (nthRun r 2) 32 l)))
    (intLegal 0x1C f.mod6) 1 0

/-- IDOT4 (R265). -/
def idot4Val (t a b c : Nat) : Nat :=
  let el := fun (sg : Bool) (v i : Nat) => intOf 8 sg (v >>> (8 * i) % 256)
  wrapN 32 ((List.range 4).foldl (fun acc i => acc + el (t != 1) a i * el (t == 0) b i) (c : Int))

def idot4Body (f : L3) : Cx → Iss Rsl :=
  three f 1 (fun x r => laneShapes x r.flatten 1 (fun l =>
    idot4Val (f.mod6.toNat % 4) (laneVal (nthRun r 0) 32 l) (laneVal (nthRun r 1) 32 l) (laneVal (nthRun r 2) 32 l)))
    (intLegal 0x23 f.mod6) 1 0

/-- PRMB (R263): form 0 .sel, 1 .lo, 2 .hi; the table's words, low first. -/
def prmbVal (form : Nat) (table : List Nat) (b : Nat) : Nat :=
  let byte := fun t => table.getD (t / 4) 0 >>> (8 * (t % 4)) % 256
  let one := fun i =>
    let beta := b >>> (8 * i) % 256
    match form with
    | 0 => if 128 ≤ beta then 0 else byte (beta % 8)
    | 1 => byte (beta % 16)
    | _ => byte (beta / 16)
  (List.range 4).foldl (fun v i => v + one i * 2 ^ (8 * i)) 0

def prmbBody (f : L3) : Cx → Iss Rsl :=
  let form := f.mod6.toNat / 8
  aluBody (intLegal 0x1D f.mod6) f.dst 1 f.ocw 0 (srcsAB f (if form = 0 then 2 else 4) 1 none) (fun x r =>
    laneShapes x r.flatten 1 (fun l =>
      prmbVal form ((nthRun r 0).map (fun o => (o.at l).toNat)) (laneVal (nthRun r 1) 32 l)))

/-- LEA (R264). -/
def leaVal (k : Nat) (u : Bool) (a b : Nat) : Nat := wrapN 64 ((a : Int) + (intOf 32 (!u) b) * (2 : Int) ^ k)

def leaBody (f : L3) : Cx → Iss Rsl :=
  aluBody (intLegal 0x1E f.mod6) f.dst 2 f.ocw 0 (srcsAB f 2 1 none) (fun x r =>
    laneShapes x r.flatten 2 (fun l =>
      leaVal (f.mod6.toNat / 8) (f.mod6.getLsbD 0) (laneVal (nthRun r 0) 64 l) (laneVal (nthRun r 1) 32 l)))

/-- Whether a predicate has the same bit in every lane of C (R248), the acting lanes among them. -/
def Cx.predUni (x : Cx) (n : Nat) : Bool :=
  let m := x.c.live ||| x.act
  (x.c.pred n &&& m) == 0 || (~~~(x.c.pred n) &&& m) == 0

/-- A result that is U under a condition, else G; a tag changes no value (R213). -/
def uniIf (x : Cx) (b : Bool) (f : Nat → Word) : Shape :=
  if b && (laneList x.act).all (fun l => f l == f x.lane) then .u (f x.lane) else normShape x.c.w (gen x.c.w f)

/-- The carry in of R250. -/
def carryIn (c : Crew) (m l : Nat) : Nat :=
  match m / 16 with
  | 0 => if (c.pred (m % 16)).getLsbD l then 1 else 0
  | 1 => 0
  | _ => 1

/-- IADDC and ISUBB (R250). -/
def addcBody (sub : Bool) (opc : Nat) (f : L3) (x : Cx) : Iss Rsl := do
  let m := f.mod6.toNat
  needInsn (intLegal opc f.mod6)
  dstCheck x.c f.dst 1 true
  needIssue (!x.c.owed (.pred (m % 16)))
  let srcs := srcsAB f 1 1 none
  let r ← x.fetch srcs
  let a := fun l => (laneVal (nthRun r 0) 32 l : Int)
  let b := fun l => (laneVal (nthRun r 1) 32 l : Int)
  let v := fun l => if sub then a l - b l - carryIn x.c m l else a l + b l + carryIn x.c m l
  let uni := r.flatten.all (·.isU) && (m / 16 != 0 || x.predUni (m % 16))
  let out := x.writeResult f.dst f.ocw (some 0) srcs [uniIf x uni (fun l => wordI (v l))]
  let carry := lanesWhere x.c.w (fun l => if sub then decide (v l < 0) else decide ((2 : Int) ^ 32 ≤ v l))
  return { out with c := (out.c.supersede (.pred (m % 16)) x.act).writePred (m % 16) x.act carry }

/-- SEL (R255). -/
def selBody (f : L3) (x : Cx) : Iss Rsl := do
  let m := f.mod6.toNat
  let k := if f.mod6.getLsbD 5 then 2 else 1
  needInsn (intLegal 0x1F f.mod6)
  dstCheck x.c f.dst k true
  needIssue (!x.c.owed (.pred (m % 16)))
  let srcs := srcsAB f k k none
  let r ← x.fetch srcs
  let pick := fun l => (x.c.pred (m % 16)).getLsbD l != f.mod6.getLsbD 4
  let shs := (List.range k).map (fun i =>
    let a := (nthRun r 0).getD i ⟨.u 0, 0⟩
    let b := (nthRun r 1).getD i ⟨.u 0, 0⟩
    let same := r.flatten.all (·.isU) && (x.predUni (m % 16) || ((nthRun r 0).map (·.at 0)) == ((nthRun r 1).map (·.at 0)))
    uniIf x same (fun l => if pick l then a.at l else b.at l))
  return x.writeResult f.dst f.ocw (some 0) srcs shs

/-- A result whose only destination is a predicate: 1 or 0 into the latch, OCW ignored (R246). -/
def Cx.writePredResult (x : Cx) (n latch : Nat) (srcs : List Src) (uni : Bool) (v : Nat → Bool) : Rsl :=
  let c1 := x.c.emptySrcs srcs
  let sh := uniIf x uni (fun l => if v l then 1 else 0)
  { s := x.s, adv := true,
    c := c1.putDests ({ dst := .pred n, lanes := x.act, sh := sh, poison := 0 } :: latchDests latch x.act sh) }

/-- The condition of ICMP (R254). -/
def icmpVal (cc w : Nat) (sg : Bool) (a b : Nat) : Bool :=
  match cc with
  | 0 => a == b
  | 1 => a != b
  | 2 => decide (intOf w sg a < intOf w sg b)
  | 3 => decide (intOf w sg a ≤ intOf w sg b)
  | 4 => decide (intOf w sg b < intOf w sg a)
  | 5 => decide (intOf w sg b ≤ intOf w sg a)
  | _ => a &&& b != 0

/-- A comparison's result to a predicate, a register (all ones or 0) or nothing (R254, R281). -/
def cmpBody (legal : Bool) (f : L3) (k latch : Nat) (cond : List (List Opd) → Nat → Bool) (x : Cx) : Iss Rsl := do
  needInsn legal
  match predOf f.dst with
  | none => dstCheck x.c f.dst 1 true
  | some _ => .ok ()
  let srcs := srcsAB f k k none
  let r ← x.fetch srcs
  let uni := r.flatten.all (·.isU)
  match predOf f.dst with
  | some n => return x.writePredResult n latch srcs uni (cond r)
  | none =>
    return x.writeResult f.dst f.ocw (some latch) srcs [uniIf x uni (fun l => if cond r l then 0xFFFFFFFF else 0)]

def icmpBody (f : L3) : Cx → Iss Rsl :=
  let w := tyWide f.mod6
  cmpBody (intLegal 0x20 f.mod6) f (w / 32) 0 (fun r l =>
    icmpVal (f.mod6.toNat / 8) w (tySigned f.mod6) (laneVal (nthRun r 0) w l) (laneVal (nthRun r 1) w l))

/-- A predicate operand: a p designator, or zero where allowed (R256). -/
def predSrc (d : Desig) (zero : Bool) (fld : Nat) : Iss (Option Nat) :=
  match place d with
  | some (.pred n) => .ok (some n)
  | some .zero => if zero then .ok none else illOpnd 0 fld
  | _ => illOpnd 0 fld

/-- Bit s(L) of a predicate through a pattern; exited and never-launched source lanes give 0 (R256). -/
def Cx.predBit (x : Cx) (n : Option Nat) (xc l : Nat) : Bool :=
  match n with
  | none => false
  | some k => (x.c.pred k &&& x.c.live).getLsbD (xmap x.c xc l)

/-- A predicate operand is delivered uniform over C (R248). -/
def Cx.predSame (x : Cx) (n : Option Nat) (xc : Nat) : Bool :=
  ((List.range x.c.w).filter (fun l => (x.c.live ||| x.act).getLsbD l)).all (fun l => x.predBit n xc l == x.predBit n xc x.lane)

def Cx.predOwed (x : Cx) (n : Option Nat) : Bool :=
  match n with
  | none => false
  | some k => x.c.owed (.pred k)

/-- PLOP (R256). -/
def plopBody (f : L3) (x : Cx) : Iss Rsl := do
  needInsn (intLegal 0x21 f.mod6)
  let d ← predSrc f.dst false 0
  let a ← predSrc f.sa true 1
  let b ← predSrc f.sb true 2
  needIssue (!x.predOwed a && !x.predOwed b)
  let v := fun l =>
    f.mod6.getLsbD ((if x.predBit a f.xa.toNat l then 2 else 0) + (if x.predBit b f.xb.toNat l then 1 else 0))
  return x.writePredResult (d.getD 0) 0 [] (x.predSame a f.xa.toNat && x.predSame b f.xb.toNat) v

/-- PMOV (R257). DESIGN CHOICE: where its form names a p, a designator that is no p takes the illegal-operand trap, and so does zero,
which R27 lets read 0 or discard a write. Log entry 130. -/
def pmovBody (f : L3) (x : Cx) : Iss Rsl := do
  needInsn (intLegal 0x22 f.mod6)
  match f.mod6.toNat with
  | 0 =>
    dstCheck x.c f.dst 1 true
    let a ← predSrc f.sa false 1
    needIssue (!x.predOwed a)
    return x.writeResult f.dst f.ocw (some 0) []
      [uniIf x (a.all x.predUni) (fun l => if x.predBit a f.xa.toNat l then 1 else 0)]
  | 1 =>
    dstCheck x.c f.dst 2 true
    let a ← predSrc f.sa false 1
    needIssue (!x.predOwed a)
    let v := (match a with | some k => x.c.pred k | none => 0) &&& x.c.live
    return x.writeResult f.dst f.ocw (some 0) [] [.u (loWord v), .u (hiWord v)]
  | 2 =>
    let d ← predSrc f.dst false 0
    let r ← x.fetch [f.srcA]
    return x.writePredResult (d.getD 0) 0 [f.srcA] (nthOpd r 0).isU (fun l => (nthOpd r 0).at l != 0)
  | _ =>
    let d ← predSrc f.dst false 0
    let srcs := [{ f.srcA with k := 2 }]
    let r ← x.once.fetch srcs
    let v := pairAt (nthRun r 0) x.lane
    return x.writePredResult (d.getD 0) 0 srcs ((nthRun r 0).all (·.isU)) (fun l => v.getLsbD l)

/-! The meanings. -/

/-- IADD (R249). -/
def execIadd (f : L3) (s : State) : Out := issue s 0x00 8 f.g (addBody false 0x00 f none)
/-- ISUB (R249). -/
def execIsub (f : L3) (s : State) : Out := issue s 0x01 8 f.g (addBody true 0x01 f none)
/-- IADDC (R250). -/
def execIaddc (f : L3) (s : State) : Out := issue s 0x02 8 f.g (addcBody false 0x02 f)
/-- ISUBB (R250). -/
def execIsubb (f : L3) (s : State) : Out := issue s 0x03 8 f.g (addcBody true 0x03 f)
/-- IMUL (R251). -/
def execImul (f : L3) (s : State) : Out := issue s 0x04 8 f.g (mulBody f none)
/-- IMULH (R251). -/
def execImulh (f : L3) (s : State) : Out := issue s 0x05 8 f.g (mulhBody f)
/-- IMAD (R251). -/
def execImad (f : L3) (s : State) : Out := issue s 0x06 8 f.g (imadBody f)
/-- IDIV (R252). -/
def execIdiv (f : L3) (s : State) : Out := issue s 0x07 8 f.g (divBody false 0x07 f)
/-- IREM (R252). -/
def execIrem (f : L3) (s : State) : Out := issue s 0x08 8 f.g (divBody true 0x08 f)
/-- INEG (R249). -/
def execIneg (f : L3) (s : State) : Out := issue s 0x09 8 f.g (negBody f)
/-- IABS (R249). -/
def execIabs (f : L3) (s : State) : Out := issue s 0x0A 8 f.g (absBody f)
/-- IMIN (R253). -/
def execImin (f : L3) (s : State) : Out := issue s 0x0B 8 f.g (minmaxBody false 0x0B f none)
/-- IMAX (R253). -/
def execImax (f : L3) (s : State) : Out := issue s 0x0C 8 f.g (minmaxBody true 0x0C f none)
/-- AND (R258). -/
def execAnd (f : L3) (s : State) : Out := issue s 0x0D 8 f.g (logicBody 0 0x0D f none)
/-- OR (R258). -/
def execOr (f : L3) (s : State) : Out := issue s 0x0E 8 f.g (logicBody 1 0x0E f none)
/-- XOR (R258). -/
def execXor (f : L3) (s : State) : Out := issue s 0x0F 8 f.g (logicBody 2 0x0F f none)
/-- ANDN (R258). -/
def execAndn (f : L3) (s : State) : Out := issue s 0x10 8 f.g (logicBody 3 0x10 f none)
/-- NOT (R258). -/
def execNot (f : L3) (s : State) : Out := issue s 0x11 8 f.g (notBody f)
/-- SHL (R259). -/
def execShl (f : L3) (s : State) : Out := issue s 0x12 8 f.g (shiftBody 0 0x12 f none)
/-- SHR (R259). -/
def execShr (f : L3) (s : State) : Out := issue s 0x13 8 f.g (shiftBody 1 0x13 f none)
/-- SAR (R259). -/
def execSar (f : L3) (s : State) : Out := issue s 0x14 8 f.g (shiftBody 2 0x14 f none)
/-- ROL (R259). -/
def execRol (f : L3) (s : State) : Out := issue s 0x15 8 f.g (shiftBody 3 0x15 f none)
/-- FUNSH (R260). -/
def execFunsh (f : L3) (s : State) : Out := issue s 0x16 8 f.g (funshBody f)
/-- POPC (R261). -/
def execPopc (f : L3) (s : State) : Out := issue s 0x17 8 f.g (popcBody f)
/-- CLZ (R261). -/
def execClz (f : L3) (s : State) : Out := issue s 0x18 8 f.g (clzBody f)
/-- CTZ (R261). -/
def execCtz (f : L3) (s : State) : Out := issue s 0x19 8 f.g (ctzBody f)
/-- BREV (R261). -/
def execBrev (f : L3) (s : State) : Out := issue s 0x1A 8 f.g (brevBody f)
/-- BFE (R262). -/
def execBfe (f : L3) (s : State) : Out := issue s 0x1B 8 f.g (bfeBody f)
/-- BFI (R262). -/
def execBfi (f : L3) (s : State) : Out := issue s 0x1C 8 f.g (bfiBody f)
/-- PRMB (R263). -/
def execPrmb (f : L3) (s : State) : Out := issue s 0x1D 8 f.g (prmbBody f)
/-- LEA (R264). -/
def execLea (f : L3) (s : State) : Out := issue s 0x1E 8 f.g (leaBody f)
/-- SEL (R255). -/
def execSel (f : L3) (s : State) : Out := issue s 0x1F 8 f.g (selBody f)
/-- ICMP (R254). -/
def execIcmp (f : L3) (s : State) : Out := issue s 0x20 8 f.g (icmpBody f)
/-- PLOP (R256). -/
def execPlop (f : L3) (s : State) : Out := issue s 0x21 8 f.g (plopBody f)
/-- PMOV (R257). -/
def execPmov (f : L3) (s : State) : Out := issue s 0x22 8 f.g (pmovBody f)
/-- IDOT4 (R265). -/
def execIdot4 (f : L3) (s : State) : Out := issue s 0x23 8 f.g (idot4Body f)
/-- Compact entry of opcode 0x00 (R39, R266). -/
def execC3IaddI32 (f : C3) (s : State) : Out :=
  issue s 0x00 4 f.g (addBody false 0x00 (f.toL3 0) none)
/-- Compact entry of opcode 0x01 (R39, R266). -/
def execC3IsubI32 (f : C3) (s : State) : Out :=
  issue s 0x01 4 f.g (addBody true 0x01 (f.toL3 0) none)
/-- Compact entry of opcode 0x04 (R39, R266). -/
def execC3ImulI32 (f : C3) (s : State) : Out :=
  issue s 0x04 4 f.g (mulBody (f.toL3 0) none)
/-- Compact entry of opcode 0x05 (R39, R266). -/
def execC3ImulhI32 (f : C3) (s : State) : Out :=
  issue s 0x05 4 f.g (mulhBody (f.toL3 0))
/-- Compact entry of opcode 0x05 (R39, R266). -/
def execC3ImulhN32 (f : C3) (s : State) : Out :=
  issue s 0x05 4 f.g (mulhBody (f.toL3 1))
/-- Compact entry of opcode 0x07 (R39, R266). -/
def execC3IdivI32 (f : C3) (s : State) : Out :=
  issue s 0x07 4 f.g (divBody false 0x07 (f.toL3 0))
/-- Compact entry of opcode 0x07 (R39, R266). -/
def execC3IdivN32 (f : C3) (s : State) : Out :=
  issue s 0x07 4 f.g (divBody false 0x07 (f.toL3 1))
/-- Compact entry of opcode 0x08 (R39, R266). -/
def execC3IremI32 (f : C3) (s : State) : Out :=
  issue s 0x08 4 f.g (divBody true 0x08 (f.toL3 0))
/-- Compact entry of opcode 0x08 (R39, R266). -/
def execC3IremN32 (f : C3) (s : State) : Out :=
  issue s 0x08 4 f.g (divBody true 0x08 (f.toL3 1))
/-- Compact entry of opcode 0x0B (R39, R266). -/
def execC3IminI32 (f : C3) (s : State) : Out :=
  issue s 0x0B 4 f.g (minmaxBody false 0x0B (f.toL3 0) none)
/-- Compact entry of opcode 0x0B (R39, R266). -/
def execC3IminN32 (f : C3) (s : State) : Out :=
  issue s 0x0B 4 f.g (minmaxBody false 0x0B (f.toL3 1) none)
/-- Compact entry of opcode 0x0C (R39, R266). -/
def execC3ImaxI32 (f : C3) (s : State) : Out :=
  issue s 0x0C 4 f.g (minmaxBody true 0x0C (f.toL3 0) none)
/-- Compact entry of opcode 0x0C (R39, R266). -/
def execC3ImaxN32 (f : C3) (s : State) : Out :=
  issue s 0x0C 4 f.g (minmaxBody true 0x0C (f.toL3 1) none)
/-- Compact entry of opcode 0x0D (R39, R266). -/
def execC3AndB32 (f : C3) (s : State) : Out :=
  issue s 0x0D 4 f.g (logicBody 0 0x0D (f.toL3 0) none)
/-- Compact entry of opcode 0x0E (R39, R266). -/
def execC3OrB32 (f : C3) (s : State) : Out :=
  issue s 0x0E 4 f.g (logicBody 1 0x0E (f.toL3 0) none)
/-- Compact entry of opcode 0x0F (R39, R266). -/
def execC3XorB32 (f : C3) (s : State) : Out :=
  issue s 0x0F 4 f.g (logicBody 2 0x0F (f.toL3 0) none)
/-- Compact entry of opcode 0x10 (R39, R266). -/
def execC3AndnB32 (f : C3) (s : State) : Out :=
  issue s 0x10 4 f.g (logicBody 3 0x10 (f.toL3 0) none)
/-- Compact entry of opcode 0x12 (R39, R266). -/
def execC3ShlB32 (f : C3) (s : State) : Out :=
  issue s 0x12 4 f.g (shiftBody 0 0x12 (f.toL3 0) none)
/-- Compact entry of opcode 0x13 (R39, R266). -/
def execC3ShrB32 (f : C3) (s : State) : Out :=
  issue s 0x13 4 f.g (shiftBody 1 0x13 (f.toL3 0) none)
/-- Compact entry of opcode 0x14 (R39, R266). -/
def execC3SarB32 (f : C3) (s : State) : Out :=
  issue s 0x14 4 f.g (shiftBody 2 0x14 (f.toL3 0) none)
/-- Compact entry of opcode 0x15 (R39, R266). -/
def execC3RolB32 (f : C3) (s : State) : Out :=
  issue s 0x15 4 f.g (shiftBody 3 0x15 (f.toL3 0) none)
/-- Compact entry of opcode 0x1D (R39, R266). -/
def execC3PrmbB32 (f : C3) (s : State) : Out :=
  issue s 0x1D 4 f.g (prmbBody (f.toL3 0))
/-- Compact entry of opcode 0x09 (R39, R266). -/
def execC3InegI32 (f : C3) (s : State) : Out :=
  issue s 0x09 4 f.g (negBody (f.toL3u 0))
/-- Compact entry of opcode 0x0A (R39, R266). -/
def execC3IabsI32 (f : C3) (s : State) : Out :=
  issue s 0x0A 4 f.g (absBody (f.toL3u 0))
/-- Compact entry of opcode 0x11 (R39, R266). -/
def execC3NotB32 (f : C3) (s : State) : Out :=
  issue s 0x11 4 f.g (notBody (f.toL3u 0))
/-- Compact entry of opcode 0x17 (R39, R266). -/
def execC3PopcB32 (f : C3) (s : State) : Out :=
  issue s 0x17 4 f.g (popcBody (f.toL3u 0))
/-- Compact entry of opcode 0x18 (R39, R266). -/
def execC3ClzB32 (f : C3) (s : State) : Out :=
  issue s 0x18 4 f.g (clzBody (f.toL3u 0))
/-- Compact entry of opcode 0x19 (R39, R266). -/
def execC3CtzB32 (f : C3) (s : State) : Out :=
  issue s 0x19 4 f.g (ctzBody (f.toL3u 0))
/-- Compact entry of opcode 0x1A (R39, R266). -/
def execC3BrevB32 (f : C3) (s : State) : Out :=
  issue s 0x1A 4 f.g (brevBody (f.toL3u 0))
/-- Compact entry of opcode 0x00 (R39, R266). -/
def execC3IaddSatI32 (f : C3) (s : State) : Out :=
  issue s 0x00 4 f.g (addBody false 0x00 (f.toL3 4) none)
/-- Compact entry of opcode 0x01 (R39, R266). -/
def execC3IsubSatI32 (f : C3) (s : State) : Out :=
  issue s 0x01 4 f.g (addBody true 0x01 (f.toL3 4) none)
/-- Compact entry of opcode 0x1B (R39, R266). -/
def execC3BfeN32 (f : C3) (s : State) : Out :=
  issue s 0x1B 4 f.g (bfeBody (f.toL3 1))
/-- Compact entry of opcode 0x1B (R39, R266). -/
def execC3BfeI32 (f : C3) (s : State) : Out :=
  issue s 0x1B 4 f.g (bfeBody (f.toL3 0))
/-- Compact entry of opcode 0x1E (R39, R266). -/
def execC3LeaS1 (f : C3) (s : State) : Out :=
  issue s 0x1E 4 f.g (leaBody (f.toL3 8))
/-- Compact entry of opcode 0x1E (R39, R266). -/
def execC3LeaS2 (f : C3) (s : State) : Out :=
  issue s 0x1E 4 f.g (leaBody (f.toL3 16))
/-- Compact entry of opcode 0x1E (R39, R266). -/
def execC3LeaS3 (f : C3) (s : State) : Out :=
  issue s 0x1E 4 f.g (leaBody (f.toL3 24))
/-- Compact entry of opcode 0x1E (R39, R266). -/
def execC3LeaS4 (f : C3) (s : State) : Out :=
  issue s 0x1E 4 f.g (leaBody (f.toL3 32))
/-- CI entry of opcode 0x00 (R39, R267). -/
def execCiIaddI32 (f : CI) (s : State) : Out :=
  issue s 0x00 4 f.g (addBody false 0x00 (f.toL3 0) (some f.immWord))
/-- CI entry of opcode 0x04 (R39, R267). -/
def execCiImulI32 (f : CI) (s : State) : Out :=
  issue s 0x04 4 f.g (mulBody (f.toL3 0) (some f.immWord))
/-- CI entry of opcode 0x0D (R39, R267). -/
def execCiAndB32 (f : CI) (s : State) : Out :=
  issue s 0x0D 4 f.g (logicBody 0 0x0D (f.toL3 0) (some f.immWord))
/-- CI entry of opcode 0x0E (R39, R267). -/
def execCiOrB32 (f : CI) (s : State) : Out :=
  issue s 0x0E 4 f.g (logicBody 1 0x0E (f.toL3 0) (some f.immWord))
/-- CI entry of opcode 0x0F (R39, R267). -/
def execCiXorB32 (f : CI) (s : State) : Out :=
  issue s 0x0F 4 f.g (logicBody 2 0x0F (f.toL3 0) (some f.immWord))
/-- CI entry of opcode 0x12 (R39, R267). -/
def execCiShlB32 (f : CI) (s : State) : Out :=
  issue s 0x12 4 f.g (shiftBody 0 0x12 (f.toL3 0) (some (f.immWord &&& 31)))
/-- CI entry of opcode 0x13 (R39, R267). -/
def execCiShrB32 (f : CI) (s : State) : Out :=
  issue s 0x13 4 f.g (shiftBody 1 0x13 (f.toL3 0) (some (f.immWord &&& 31)))
/-- CI entry of opcode 0x14 (R39, R267). -/
def execCiSarB32 (f : CI) (s : State) : Out :=
  issue s 0x14 4 f.g (shiftBody 2 0x14 (f.toL3 0) (some (f.immWord &&& 31)))
/-- CI entry of opcode 0x0B (R39, R267). -/
def execCiIminI32 (f : CI) (s : State) : Out :=
  issue s 0x0B 4 f.g (minmaxBody false 0x0B (f.toL3 0) (some f.immWord))
/-- CI entry of opcode 0x0C (R39, R267). -/
def execCiImaxI32 (f : CI) (s : State) : Out :=
  issue s 0x0C 4 f.g (minmaxBody true 0x0C (f.toL3 0) (some f.immWord))
/-- S16 form of opcode 0x00 (R41). -/
def execS16Iadd (f : S16) (s : State) : Out :=
  issue s 0x00 2 Guard.always (addBody false 0x00 (f.toC3.toL3 0) none)
/-- S16 form of opcode 0x01 (R41). -/
def execS16Isub (f : S16) (s : State) : Out :=
  issue s 0x01 2 Guard.always (addBody true 0x01 (f.toC3.toL3 0) none)
/-- S16 form of opcode 0x0B (R41). -/
def execS16Imin (f : S16) (s : State) : Out :=
  issue s 0x0B 2 Guard.always (minmaxBody false 0x0B (f.toC3.toL3 0) none)
/-- S16 form of opcode 0x0C (R41). -/
def execS16Imax (f : S16) (s : State) : Out :=
  issue s 0x0C 2 Guard.always (minmaxBody true 0x0C (f.toC3.toL3 0) none)
/-- S16 form of opcode 0x0D (R41). -/
def execS16And (f : S16) (s : State) : Out :=
  issue s 0x0D 2 Guard.always (logicBody 0 0x0D (f.toC3.toL3 0) none)
/-- S16 form of opcode 0x0E (R41). -/
def execS16Or (f : S16) (s : State) : Out :=
  issue s 0x0E 2 Guard.always (logicBody 1 0x0E (f.toC3.toL3 0) none)
/-- S16 form of opcode 0x0F (R41). -/
def execS16Xor (f : S16) (s : State) : Out :=
  issue s 0x0F 2 Guard.always (logicBody 2 0x0F (f.toC3.toL3 0) none)
/-- S16 form of opcode 0x12 (R41). -/
def execS16Shl (f : S16) (s : State) : Out :=
  issue s 0x12 2 Guard.always (shiftBody 0 0x12 (f.toC3.toL3 0) none)
/-- S16 form of opcode 0x13 (R41). -/
def execS16Shr (f : S16) (s : State) : Out :=
  issue s 0x13 2 Guard.always (shiftBody 1 0x13 (f.toC3.toL3 0) none)
/-- S16 form of opcode 0x14 (R41). -/
def execS16Sar (f : S16) (s : State) : Out :=
  issue s 0x14 2 Guard.always (shiftBody 2 0x14 (f.toC3.toL3 0) none)

end Sys2Proof.Machine
end

