-- ==== Sys2Proof/Machine/Float.lean ====
section
/-!
DEFINITION. Floating point, conversion and special functions: opcodes 0x30 to 0x43 and 0x50 to 0x58 (R268 to R292), and
their compact and short forms (R293).
-/

namespace Sys2Proof.Machine

/-- T[i] of R286: the integer nearest to 2^(30 + i/64). -/
def exp2T : List Nat :=
  [0x40000000, 0x40b268fa, 0x4166c34c, 0x421d1462, 0x42d561b4, 0x438fb0cb, 0x444c0740, 0x450a6abb,
   0x45cae0f2, 0x468d6fae, 0x47521cc6, 0x4818ee22, 0x48e1e9ba, 0x49ad1598, 0x4a7a77d4, 0x4b4a169c,
   0x4c1bf829, 0x4cf022ca, 0x4dc69cdd, 0x4e9f6cd4, 0x4f7a9930, 0x50582888, 0x51382182, 0x521a8ad7,
   0x52ff6b55, 0x53e6c9da, 0x54d0ad5a, 0x55bd1cdb, 0x56ac1f75, 0x579dbc57, 0x5891fac1, 0x5988e209,
   0x5a82799a, 0x5b7ec8f2, 0x5c7dd7a4, 0x5d7fad59, 0x5e8451d0, 0x5f8bccdb, 0x60962665, 0x61a3666d,
   0x62b39509, 0x63c6ba64, 0x64dcdec3, 0x65f60a7f, 0x6712460b, 0x683199ed, 0x69540ec9, 0x6a79ad56,
   0x6ba27e65, 0x6cce8ae1, 0x6dfddbcc, 0x6f307a41, 0x70666f76, 0x719fc4b9, 0x72dc8374, 0x741cb528,
   0x75606374, 0x76a7980f, 0x77f25cce, 0x7940bb9e, 0x7a92be8b, 0x7be86fba, 0x7d41d96e, 0x7e9f0606]

/-- L[j] of R287: the integer nearest to −2^40 × log2(R[j] × 2^−32). -/
def log2L : List Nat :=
  [0x0, 0x5b9e5a188, 0xb5d69ba99, 0x10eb389eea, 0x1663f6fab2, 0x1bc842405d, 0x2118b119cc, 0x2655d3c520,
   0x2b8034733f, 0x309857a075, 0x359ebc5b81, 0x3a93dc98d2, 0x3f782d721c, 0x444c1f6bdc, 0x49101eac4f, 0x4dc49339b2,
   0x5269e12ed8, 0x570068e76b, 0x5b8887363a, 0x6002958d0b, 0x646eea2493, 0x68cdd82984, 0x6d1fafdcb4, 0x7164beb432,
   0x759d4f809d, 0x79c9aa8856, 0x7dea15a343, 0x81fed45cd4, 0x860828076a, 0x8a064fd48a, 0x8df988f3d3, 0x91e20ea150,
   0x95c01a3943, 0x9993e355d9, 0x9d5d9fd60a, 0xa11d83f3d7, 0xa4d3c25f67, 0xa8808c3879, 0xac241133ea, 0xafbe7fa147,
   0xb350047127, 0xb6d8cb53c8, 0xba58feb34c, 0xbdd0c7ca7e, 0xc1404eae0b, 0xc4a7ba584f, 0xc80730b051, 0xcb5ed6957d,
   0xceaecfeb39, 0xd1f73f9c99, 0xd53847ac18, 0xd87209361a, 0xdba4a47a36, 0xded038e64b, 0xe1f4e51626, 0xe512c6e46e,
   0xe829fb67ed, 0xeb3a9f0228, 0xee44cd59ba, 0xf148a17123, 0xf446359b41, 0xf73da38c5a, 0xfa2f045e8f, 0xfd1a708bec]


/-- What FT names (R268): the format, the elements of a register, the registers of an operand. -/
structure FTy where
  fmt : Fmt
  n   : Nat
  k   : Nat
deriving DecidableEq, Repr

def ftOf (ft : Nat) : FTy :=
  match ft with
  | 0 => ⟨f32, 1, 1⟩
  | 1 => ⟨f64, 1, 2⟩
  | 2 => ⟨f16, 1, 1⟩
  | 3 => ⟨bf16, 1, 1⟩
  | 4 => ⟨f16, 2, 1⟩
  | _ => ⟨bf16, 2, 1⟩

/-- The bits of an operand as numbers of the width of its registers. -/
def FTy.w (t : FTy) : Nat := 32 * t.k

/-- Element e of a value (R52, R56). -/
def FTy.el (t : FTy) (v e : Nat) : Nat := v >>> (16 * e) % 2 ^ t.fmt.w

/-- An element-wise result and the flags of its elements. -/
def FTy.map2 (t : FTy) (g : Nat → Nat → Nat × Fl) (a b : Nat) : Nat × Fl :=
  (List.range t.n).foldl (fun r e =>
    let o := g (t.el a e) (t.el b e)
    (r.1 + o.1 * 2 ^ (16 * e), r.2 ||| o.2)) (0, 0)

def FTy.map3 (t : FTy) (g : Nat → Nat → Nat → Nat × Fl) (a b c : Nat) : Nat × Fl :=
  (List.range t.n).foldl (fun r e =>
    let o := g (t.el a e) (t.el b e) (t.el c e)
    (r.1 + o.1 * 2 ^ (16 * e), r.2 ||| o.2)) (0, 0)

/-- The mode an RM field names (R268): .dyn takes FPCTL.RM. -/
def rmOf (c : Crew) (rm : Nat) : Nat := if rm = 5 then wbits c.fpctl 0 3 else rm

/-- The flags that can trap: all for 0x30 to 0x43, NV and DZ for 0x50 to 0x54 (R274). -/
def canAll : Fl := 31
def canNvDz : Fl := 24

/-- A floating-point register instruction: legality, operands, flags and trap, result of kd registers; win is its
lookahead window where it is long-latency (R26, R273, R274). fn gives a lane's value and flags. -/
def fpBody (legal : Bool) (dst : Desig) (kd : Nat) (ocw : BitVec 4) (latch : Nat) (srcs : List Src) (can : Fl)
    (win : Option Nat) (fn : Cx → List (List Opd) → Nat → Nat × Fl) (x : Cx) : Iss Rsl := do
  needInsn legal
  dstCheck x.c dst kd true
  let r ← x.fetch srcs
  let all ← x.arith (fun l => (fn x r l).2) can
  let shs := laneShapes x r.flatten kd (fun l => (fn x r l).1)
  match win with
  | none =>
    let o := x.writeResult dst ocw (some latch) srcs shs
    return { o with c := o.c.orFlags all }
  | some n => return x.pendResult dst ocw (some latch) srcs shs n all

/-- Sources A and B of k registers each, an immediate in place of B (R293 entry 107). -/
def srcsF (f : L3) (ka kb : Nat) (imm : Option Word) : List Src := srcsAB f ka kb imm

/-- The two-operand arithmetic of R276. -/
def f2Body (opc : Nat) (f : L3) (op : Fmt → Nat → Nat → Nat → Nat × Fl) : Cx → Iss Rsl :=
  let t := ftOf (f.mod6.toNat % 8)
  fpBody (floatLegal opc f.mod6 f.sb) f.dst t.k f.ocw 1 (srcsAB f t.k t.k none) canAll none (fun x r l =>
    t.map2 (op t.fmt (rmOf x.c (f.mod6.toNat / 8))) (laneVal (nthRun r 0) t.w l) (laneVal (nthRun r 1) t.w l))

/-- The one-operand instructions of R276, R277, R281 and R285; kd registers of result. -/
def f1Body (opc : Nat) (f : L3) (kd latch : Nat) (can : Fl) (win : Option Nat)
    (op : Fmt → Nat → Nat → Nat × Fl) : Cx → Iss Rsl :=
  let t := ftOf (f.mod6.toNat % 8)
  fpBody (floatLegal opc f.mod6 f.sb) f.dst kd f.ocw latch [{ f.srcA with k := t.k }] can win (fun x r l =>
    t.map2 (fun a _ => op t.fmt (rmOf x.c (f.mod6.toNat / 8)) a) (laneVal (nthRun r 0) t.w l) 0)

/-- FABS, FNEG and FCOPYS on codes (R276): a NaN gives the canonical NaN. -/
def Fmt.setSign (t : Fmt) (a : Nat) (neg : Bool) : Nat × Fl :=
  if (t.value a).isNan then (t.nan, 0) else (t.code neg (a % t.top), 0)

def fabsOp (t : Fmt) (_ a : Nat) : Nat × Fl := t.setSign a false
def fnegOp (t : Fmt) (_ a : Nat) : Nat × Fl := t.setSign a (!a.testBit (t.e + t.m))
def fcopysOp (t : Fmt) (_ a b : Nat) : Nat × Fl := t.setSign a (b.testBit (t.e + t.m))

/-- The result registers of a type. -/
def fk (f : L3) : Nat := (ftOf (f.mod6.toNat % 8)).k

def fabsBody (f : L3) : Cx → Iss Rsl := f1Body 0x38 f (fk f) 1 canAll none fabsOp
def fnegBody (f : L3) : Cx → Iss Rsl := f1Body 0x39 f (fk f) 1 canAll none fnegOp
def frndBody (f : L3) : Cx → Iss Rsl := f1Body 0x3D f (fk f) 1 canAll none (fun t m a => t.rndC m a)
def fgeteBody (f : L3) : Cx → Iss Rsl := f1Body 0x42 f 1 1 canAll none (fun t _ a => t.geteC a)
def fclassBody (f : L3) : Cx → Iss Rsl := f1Body 0x3C f 1 1 canAll none (fun t _ a => (t.classC a, 0))

/-- FSCALE (R276): n is one register read as i32. -/
def fscaleBody (f : L3) (imm : Option Word) : Cx → Iss Rsl :=
  let t := ftOf (f.mod6.toNat % 8)
  fpBody (floatLegal 0x41 f.mod6 f.sb) f.dst t.k f.ocw 1 (srcsAB f t.k 1 imm) canAll none (fun x r l =>
    let o := ab r imm
    t.fmt.scaleC (rmOf x.c (f.mod6.toNat / 8)) (t.el (laneVal o.1 t.w l) 0) (signed 32 (laneVal o.2 32 l)))

/-- A three-source floating-point instruction (R32). -/
def fp3Body (legal : Bool) (f : L3) (k : Nat) (can : Fl) (raises : Bool) (fn : Nat → Nat → Nat → Nat × Fl) (x : Cx) :
    Iss Rsl := do
  needInsn legal
  dstCheck x.c f.dst k true
  match f.srcC with
  | none => illOpnd 0 3
  | some c =>
    needOpnd (k == 1 || f.mod6.toNat / 4 == 0) 0 3
    let srcs := [{ f.srcA with k := k }, { f.srcB with k := k }, { c with k := k }]
    let r ← x.fetch srcs
    let v := fun l => fn (laneVal (nthRun r 0) (32 * k) l) (laneVal (nthRun r 1) (32 * k) l)
      (laneVal (nthRun r 2) (32 * k) l)
    let all ← x.arith (fun l => (v l).2) can
    let o := x.writeResult f.dst f.ocw (some 1) srcs (laneShapes x r.flatten k (fun l => (v l).1))
    return { o with c := if raises then o.c.orFlags all else o.c }

/-- FFMA (R278): every form rounds RNE. -/
def ffmaBody (f : L3) : Cx → Iss Rsl :=
  let t := ftOf (match f.mod6.toNat % 4 with | 0 => 0 | 1 => 1 | 2 => 4 | _ => 5)
  fp3Body (floatLegal 0x33 f.mod6 f.sb) f t.k canAll true (fun a b c => t.map3 (fun p q r => t.fmt.fmaC 0 p q r) a b c)

/-- floor(log2 |p|) of a finite nonzero product, and its truncation toward zero to a multiple of 2^u, as an integer. -/
def truncAt (m : Nat) (e u : Int) : Nat := if u ≤ e then m <<< (e - u).toNat else m >>> (u - e).toNat

/-- One block of the dot rule (R65): the sum of the products as an exact value, or NaN or an infinity. -/
def dotBlock (ps : List Fv) : Fv :=
  let nan := ps.any (·.isNan)
  let pinf := ps.any (fun p => p == .inf false)
  let ninf := ps.any (fun p => p == .inf true)
  if nan || (pinf && ninf) then .nan false
  else if pinf then .inf false
  else if ninf then .inf true
  else
    let fins := ps.filterMap (fun p => match p with | .fin n m e => if m = 0 then none else some (n, m, e) | _ => none)
    match fins with
    | [] => .fin false 0 0
    | (_, m0, e0) :: _ =>
      let emax := fins.foldl (fun k p => max k ((p.2.1.log2 : Int) + p.2.2)) ((m0.log2 : Int) + e0)
      let u := emax - 40
      let t := fins.foldl (fun (acc : Int) p =>
        let v : Int := truncAt p.2.1 p.2.2 u
        if p.1 then acc - v else acc + v) 0
      ofInt t u false

/-- acc + block sum, each rounded once to f32 (R65); flags are not raised (R62). -/
def dotAcc (acc : Nat) (ps : List Fv) : Nat :=
  let s := (f32.ofFv 0 false (dotBlock ps)).1
  (f32.addC 0 acc s).1

/-- An exact product of two values (R65): a zero times an infinity is NaN. -/
def dotProd (a b : Fv) : Fv := (a.mul b).1

/-- FDOT2 (R279). -/
def fdot2Body (f : L3) : Cx → Iss Rsl :=
  let t := ftOf (if f.mod6.toNat % 4 = 0 then 5 else 4)
  fp3Body (floatLegal 0x43 f.mod6 f.sb) f 1 0 false (fun a b c =>
    (dotAcc c ((List.range 2).map (fun e => dotProd (t.fmt.value (t.el a e)) (t.fmt.value (t.el b e)))), 0))

/-- FCMP (R280). -/
def fcmpBody (f : L3) (x : Cx) : Iss Rsl := do
  let t := ftOf (f.mod6.toNat % 8)
  let cond := fun (r : List (List Opd)) l =>
    t.fmt.cmpC (f.mod6.toNat / 8) (t.el (laneVal (nthRun r 0) t.w l) 0) (t.el (laneVal (nthRun r 1) t.w l) 0)
  needInsn (floatLegal 0x3B f.mod6 f.sb)
  match predOf f.dst with
  | none => dstCheck x.c f.dst 1 true
  | some _ => .ok ()
  let srcs := srcsAB f t.k t.k none
  let r ← x.fetch srcs
  let all ← x.arith (fun l => (cond r l).2) canAll
  let uni := r.flatten.all (·.isU)
  let o := match predOf f.dst with
    | some n => x.writePredResult n 1 srcs uni (fun l => (cond r l).1)
    | none => x.writeResult f.dst f.ocw (some 1) srcs [uniIf x uni (fun l => if (cond r l).1 then 0xFFFFFFFF else 0)]
  return { o with c := o.c.orFlags all }

/-- The formats of FCVT's FMT codes (R282). -/
def cvtFmt (c : Nat) : Fmt :=
  match c with
  | 0 => f32
  | 1 => f64
  | 2 => f16
  | 3 => bf16
  | 4 => e5m2
  | 5 => e4m3
  | _ => e2m1

/-- A conversion's value and flags (R282, R283). Equal formats leave the value, but for a NaN. -/
def fcvtVal (sf df : Fmt) (rm : Nat) (sat : Bool) (a : Nat) : Nat × Fl :=
  if sf = df ∧ sat = false then (if (sf.value a).isNan then (sf.nan, if (sf.value a).isSig then flNV else 0) else (a, 0))
  else sf.cvtC df rm sat a

/-- FCVT (R282, R283). -/
def fcvtBody (f : L3) : Cx → Iss Rsl :=
  let form := f.mod6.toNat % 8
  let rm := f.mod6.toNat / 8
  let legal := floatLegal 0x3E f.mod6 f.sb
  if form < 2 then
    let sf := cvtFmt (f.sb.toNat % 8)
    let df := cvtFmt (f.sb.toNat / 8 % 8)
    let k := fun (t : Fmt) => if t = f64 then 2 else 1
    fpBody legal f.dst (k df) f.ocw 1 [{ f.srcA with k := k sf }] canAll none (fun x r l =>
      fcvtVal sf df (rmOf x.c rm) (form == 1) (laneVal (nthRun r 0) (32 * k sf) l % 2 ^ sf.w))
  else
    let t := if form = 2 then f16 else bf16
    fpBody legal f.dst 1 f.ocw 1 (srcsAB f 1 1 none) canAll none (fun x r l =>
      let p := f32.cvtC t (rmOf x.c rm) false (laneVal (nthRun r 0) 32 l)
      let q := f32.cvtC t (rmOf x.c rm) false (laneVal (nthRun r 1) 32 l)
      (p.1 + q.1 * 2 ^ 16, p.2 ||| q.2))

/-- F2I and I2F (R284). -/
def f2iBody (f : L3) : Cx → Iss Rsl :=
  let t := ftOf (f.mod6.toNat % 4)
  let it := f.mod6.toNat / 4 % 4
  let w := if it < 2 then 32 else 64
  fpBody (floatLegal 0x3F f.mod6 f.sb) f.dst (w / 32) f.ocw 1 [{ f.srcA with k := t.k }] canAll none (fun _ r l =>
    t.fmt.toIntC (f.mod6.toNat / 16) w (it % 2 == 0) (t.el (laneVal (nthRun r 0) t.w l) 0))

def i2fBody (f : L3) : Cx → Iss Rsl :=
  let t := ftOf (f.mod6.toNat % 4)
  let it := f.mod6.toNat / 4 % 4
  let w := if it < 2 then 32 else 64
  fpBody (floatLegal 0x40 f.mod6 f.sb) f.dst t.k f.ocw 1 [{ f.srcA with k := w / 32 }] canAll none (fun _ r l =>
    t.fmt.ofIntC (f.mod6.toNat / 16) (intOf w (it % 2 == 0) (laneVal (nthRun r 0) w l)))

/-- RCP, SQRT, RSQ (R285). -/
def funBody (op : Nat) (f : L3) : Cx → Iss Rsl :=
  f1Body (0x50 + op) f (fk f) 2 canNvDz (some f.la.toNat) (fun t m a => t.funC op m a)

/-- EXP2 (R286). -/
def exp2C (a : Nat) : Nat × Fl :=
  match f32.value a with
  | .nan s => (f32.nan, if s then flNV else 0)
  | .inf n => if n then (0, 0) else (f32.code false f32.infMag, 0)
  | .fin n m e =>
    let s := (-(min e 0)).toNat
    let xs : Int := atExp n m (e + s) 0
    let p2 : Int := (2 : Int) ^ s
    let k := (128 * xs + p2) / (2 * p2)
    let i := k % 64
    let fr : Int := ((64 * xs - k * p2) * (2 : Int) ^ 34).tdiv p2
    let p : Int := (2 : Int) ^ 110 + 0x2C5C85FE * fr * (2 : Int) ^ 40 + 0x0F5FDF00 * fr * fr
    f32.round 0 false false (exp2T.getD i.toNat 0 * p.toNat) ((k - i) / 64 - 140) false

/-- LOG2 (R287). -/
def log2C (a : Nat) : Nat × Fl :=
  match f32.value a with
  | .nan s => (f32.nan, if s then flNV else 0)
  | .inf n => if n then (f32.nan, flNV) else (f32.code false f32.infMag, 0)
  | .fin n m e =>
    if m = 0 then (f32.code true f32.infMag, flDZ)
    else if n then (f32.nan, flNV)
    else
      let lg := m.log2
      let j := (m - 2 ^ lg) * 64 / 2 ^ lg
      let rj := (2 * 2 ^ 38 + (64 + j)) / (2 * (64 + j))
      let r : Int := (((m * rj : Nat) : Int) - (2 : Int) ^ (32 + lg)) * 256 / (2 : Int) ^ lg
      let y : Int := ((lg : Int) + e) * (2 : Int) ^ 150 + (log2L.getD j 0 : Nat) * (2 : Int) ^ 110 +
        r * (0x5C551D95 * (2 : Int) ^ 80 - 0x2E2A8ECA * r * (2 : Int) ^ 40 + 0x1EC709DC * r * r)
      f32.ofFv 0 false (ofInt y (-150) false)

def exp2Body (f : L3) : Cx → Iss Rsl := f1Body 0x53 f 1 2 canNvDz (some f.la.toNat) (fun _ _ a => exp2C a)
def log2Body (f : L3) : Cx → Iss Rsl := f1Body 0x54 f 1 2 canNvDz (some f.la.toNat) (fun _ _ a => log2C a)

/-- Whether the lane that holds a source's element for a lane is launched and has not exited (R227). -/
def Cx.held (x : Cx) (s : Src) (l : Nat) : Bool := x.c.live.getLsbD (xmap x.c s.xc l)

/-- The elements of a lane's block of 32 lanes (R289): what its lanes receive through XA, 0 of a lane that is not there
(R227). -/
def blockOf (x : Cx) (s : Src) (o : Opd) (l : Nat) : List Nat :=
  (List.range 32).map (fun t => if x.held s (l / 32 * 32 + t) then (o.at (l / 32 * 32 + t)).toNat else 0)

/-- An instruction on blocks as its reads see it: every lane of a block in which it acts reads its element (R218, R289). -/
def Cx.blocks (x : Cx) (s : Src) : Cx :=
  { x with act := lanesWhere x.c.w (fun l => x.held s l && x.lanes.any (fun a => a / 32 == l / 32)) }

/-- A poisoned element is consumed by every acting lane of its block (R289). -/
def blockPoison (o : Opd) : Lanes :=
  lanesWhere 64 (fun l => (List.range 32).any (fun t => o.poison.getLsbD (l / 32 * 32 + t)))

/-- One stage of the transform (R289). -/
def hadStage (half : Bool) (s : Nat) (h : List Nat) : List Nat :=
  let g := fun (v : Fv) => (f32.ofFv 0 false (match half, v with | true, .fin n m e => .fin n m (e - 1) | _, v => v)).1
  (List.range 32).map (fun t =>
    let u := f32.value (h.getD (if t.testBit s then t - 2 ^ s else t) 0)
    let v := f32.value (h.getD (if t.testBit s then t else t + 2 ^ s) 0)
    g (if t.testBit s then (u.add 0 v.neg).1 else (u.add 0 v).1))

/-- HAD32 of a block (R289). -/
def had32Block (mode : Nat) (h : List Nat) : List Nat :=
  let r := (List.range 5).foldl (fun h s => hadStage (mode == 1) s h) h
  if mode = 2 then r.map (fun v => (f32.mulC 0 v 0x3E3504F3).1) else r

/-- The poison of a block instruction and its result under a window. -/
def blockBody (legal : Cx → Bool) (f : L3) (res : Cx → Opd → Shape) (x : Cx) : Iss Rsl := do
  needInsn (legal x)
  dstCheck x.c f.dst 1 true
  let srcs := [f.srcA]
  let r ← (x.blocks f.srcA).fetchRaw srcs
  let o := nthOpd r 0
  x.poisonCheck [{ o with poison := blockPoison o }]
  return x.pendResult f.dst f.ocw (some 2) srcs [res x o] f.la.toNat 0

def had32Body (f : L3) : Cx → Iss Rsl :=
  blockBody (fun x => floatLegal 0x55 f.mod6 f.sb && decide (32 ≤ x.c.w)) f (fun x o =>
    let lo := had32Block f.mod6.toNat (blockOf x f.srcA o 0)
    let hi := if x.c.w = 64 then had32Block f.mod6.toNat (blockOf x f.srcA o 32) else []
    .g ((List.range x.c.w).map (fun l => BitVec.ofNat 32 ((if l < 32 then lo else hi).getD (l % 32) 0))))

/-- BMAX of a block (R290). -/
def bmaxBlock (form : Nat) (h : List Nat) : Nat :=
  let vs := h.map (fun v => f32.value (v % 2 ^ 31))
  let nan := vs.any (·.isNan)
  let m := h.foldl (fun k v => max k (v % 2 ^ 31)) 0
  if form = 3 then (if nan then f32.nan else m)
  else if nan || decide (f32.infMag ≤ m) then 0xFF
  else if m = 0 then 0
  else
    let emax : Int := match form with | 0 => 8 | 1 => 15 | _ => 2
    match f32.value m with
    | .fin _ k e => (max 0 (min 0xFE ((k.log2 : Int) + e - emax + 127))).toNat
    | _ => 0xFF

def bmaxBody (f : L3) : Cx → Iss Rsl :=
  blockBody (fun x => floatLegal 0x56 f.mod6 f.sb && decide (32 ≤ x.c.w)) f (fun x o =>
    let lo := BitVec.ofNat 32 (bmaxBlock f.mod6.toNat (blockOf x f.srcA o 0))
    if x.c.w = 32 then .u lo
    else
      let hi := BitVec.ofNat 32 (bmaxBlock f.mod6.toNat (blockOf x f.srcA o 32))
      gen x.c.w (fun l => if l < 32 then lo else hi))

/-- The formats of QNT and DQNT (R291). -/
def qFmt (c : Nat) : Fmt := match c with | 0 => e4m3 | 1 => e5m2 | _ => e2m1

/-- QNT of one element (R291): the value times 2^(127 − S), saturated. -/
def qntC (t : Fmt) (x s : Nat) : Nat :=
  let v := f32.value x
  if s = 0xFF ∨ v.isNan then t.nan
  else
    match v with
    | .inf n => if t.ieee then t.code n t.infMag else t.code n t.big
    | .fin n m e => (t.ofFv 0 true (.fin n m (e + 127 - s))).1
    | .nan _ => t.nan

/-- The destination of QNT as a source (R291). -/
def qntDst (f : L3) : Src := { d := f.dst, xc := 0, dead := false, k := 1, fld := 0, upper := false, zero := true }

def qntBody (f : L3) (x : Cx) : Iss Rsl := do
  needInsn (floatLegal 0x57 f.mod6 f.sb)
  dstCheck x.c f.dst 1 true
  let t := qFmt (f.mod6.toNat % 4)
  let lo := t.w * (f.mod6.toNat / 4)
  let srcs := [f.srcA, f.srcB, qntDst f]
  let r ← x.fetch srcs
  let sh := laneShapes x r.flatten 1 (fun l =>
    let old := laneVal (nthRun r 2) 32 l
    old - (old >>> lo % 2 ^ t.w) * 2 ^ lo + qntC t (laneVal (nthRun r 0) 32 l) (laneVal (nthRun r 1) 32 l % 256) * 2 ^ lo)
  return x.pendResult f.dst f.ocw (some 2) srcs sh f.la.toNat 0

/-- DQNT (R292). -/
def dqntC (t : Fmt) (c s : Nat) : Nat :=
  match t.value c with
  | .fin n m e => if s = 0xFF then f32.nan else (f32.ofFv 0 false (.fin n m (e + (s : Int) - 127))).1
  | .inf n => if s = 0xFF then f32.nan else f32.code n f32.infMag
  | .nan _ => f32.nan

def dqntBody (f : L3) (x : Cx) : Iss Rsl := do
  needInsn (floatLegal 0x58 f.mod6 f.sb)
  dstCheck x.c f.dst 1 true
  let t := qFmt (f.mod6.toNat % 4)
  let lo := t.w * (f.mod6.toNat / 4)
  let srcs := srcsAB f 1 1 none
  let r ← x.fetch srcs
  let sh := laneShapes x r.flatten 1 (fun l =>
    dqntC t (laneVal (nthRun r 0) 32 l >>> lo % 2 ^ t.w) (laneVal (nthRun r 1) 32 l % 256))
  return x.pendResult f.dst f.ocw (some 2) srcs sh f.la.toNat 0

/-! The meanings. -/

/-- FADD (R276). -/
def execFadd (f : L3) (s : State) : Out := issue s 0x30 8 f.g (f2Body 0x30 f (fun t m a b => t.addC m a b))
/-- FSUB (R276). -/
def execFsub (f : L3) (s : State) : Out := issue s 0x31 8 f.g (f2Body 0x31 f (fun t m a b => t.subC m a b))
/-- FMUL (R276). -/
def execFmul (f : L3) (s : State) : Out := issue s 0x32 8 f.g (f2Body 0x32 f (fun t m a b => t.mulC m a b))
/-- FFMA (R278). -/
def execFfma (f : L3) (s : State) : Out := issue s 0x33 8 f.g (ffmaBody f)
/-- FMIN (R276). -/
def execFmin (f : L3) (s : State) : Out := issue s 0x34 8 f.g (f2Body 0x34 f (fun t _ a b => t.minC false a b))
/-- FMAX (R276). -/
def execFmax (f : L3) (s : State) : Out := issue s 0x35 8 f.g (f2Body 0x35 f (fun t _ a b => t.minC true a b))
/-- FMINM (R276). -/
def execFminm (f : L3) (s : State) : Out := issue s 0x36 8 f.g (f2Body 0x36 f (fun t _ a b => t.minmC false a b))
/-- FMAXM (R276). -/
def execFmaxm (f : L3) (s : State) : Out := issue s 0x37 8 f.g (f2Body 0x37 f (fun t _ a b => t.minmC true a b))
/-- FABS (R276). -/
def execFabs (f : L3) (s : State) : Out := issue s 0x38 8 f.g (fabsBody f)
/-- FNEG (R276). -/
def execFneg (f : L3) (s : State) : Out := issue s 0x39 8 f.g (fnegBody f)
/-- FCOPYS (R276). -/
def execFcopys (f : L3) (s : State) : Out := issue s 0x3A 8 f.g (f2Body 0x3A f fcopysOp)
/-- FCMP (R280). -/
def execFcmp (f : L3) (s : State) : Out := issue s 0x3B 8 f.g (fcmpBody f)
/-- FCLASS (R281). -/
def execFclass (f : L3) (s : State) : Out := issue s 0x3C 8 f.g (fclassBody f)
/-- FRND (R276). -/
def execFrnd (f : L3) (s : State) : Out := issue s 0x3D 8 f.g (frndBody f)
/-- FCVT (R283). -/
def execFcvt (f : L3) (s : State) : Out := issue s 0x3E 8 f.g (fcvtBody f)
/-- F2I (R284). -/
def execF2i (f : L3) (s : State) : Out := issue s 0x3F 8 f.g (f2iBody f)
/-- I2F (R284). -/
def execI2f (f : L3) (s : State) : Out := issue s 0x40 8 f.g (i2fBody f)
/-- FSCALE (R276). -/
def execFscale (f : L3) (s : State) : Out := issue s 0x41 8 f.g (fscaleBody f none)
/-- FGETE (R277). -/
def execFgete (f : L3) (s : State) : Out := issue s 0x42 8 f.g (fgeteBody f)
/-- FDOT2 (R279). -/
def execFdot2 (f : L3) (s : State) : Out := issue s 0x43 8 f.g (fdot2Body f)
/-- RCP (R285). -/
def execRcp (f : L3) (s : State) : Out := issue s 0x50 8 f.g (funBody 0 f)
/-- SQRT (R285). -/
def execSqrt (f : L3) (s : State) : Out := issue s 0x51 8 f.g (funBody 1 f)
/-- RSQ (R285). -/
def execRsq (f : L3) (s : State) : Out := issue s 0x52 8 f.g (funBody 2 f)
/-- EXP2 (R286). -/
def execExp2 (f : L3) (s : State) : Out := issue s 0x53 8 f.g (exp2Body f)
/-- LOG2 (R287). -/
def execLog2 (f : L3) (s : State) : Out := issue s 0x54 8 f.g (log2Body f)
/-- HAD32 (R289). -/
def execHad32 (f : L3) (s : State) : Out := issue s 0x55 8 f.g (had32Body f)
/-- BMAX (R290). -/
def execBmax (f : L3) (s : State) : Out := issue s 0x56 8 f.g (bmaxBody f)
/-- QNT (R291). -/
def execQnt (f : L3) (s : State) : Out := issue s 0x57 8 f.g (qntBody f)
/-- DQNT (R292). -/
def execDqnt (f : L3) (s : State) : Out := issue s 0x58 8 f.g (dqntBody f)
/-- Compact entry of opcode 0x30 (R39, R293). -/
def execC3FaddF32 (f : C3) (s : State) : Out :=
  issue s 0x30 4 f.g (f2Body 0x30 (f.toL3 0) (fun t m a b => t.addC m a b))
/-- Compact entry of opcode 0x31 (R39, R293). -/
def execC3FsubF32 (f : C3) (s : State) : Out :=
  issue s 0x31 4 f.g (f2Body 0x31 (f.toL3 0) (fun t m a b => t.subC m a b))
/-- Compact entry of opcode 0x32 (R39, R293). -/
def execC3FmulF32 (f : C3) (s : State) : Out :=
  issue s 0x32 4 f.g (f2Body 0x32 (f.toL3 0) (fun t m a b => t.mulC m a b))
/-- Compact entry of opcode 0x34 (R39, R293). -/
def execC3FminF32 (f : C3) (s : State) : Out :=
  issue s 0x34 4 f.g (f2Body 0x34 (f.toL3 0) (fun t _ a b => t.minC false a b))
/-- Compact entry of opcode 0x35 (R39, R293). -/
def execC3FmaxF32 (f : C3) (s : State) : Out :=
  issue s 0x35 4 f.g (f2Body 0x35 (f.toL3 0) (fun t _ a b => t.minC true a b))
/-- Compact entry of opcode 0x36 (R39, R293). -/
def execC3FminmF32 (f : C3) (s : State) : Out :=
  issue s 0x36 4 f.g (f2Body 0x36 (f.toL3 0) (fun t _ a b => t.minmC false a b))
/-- Compact entry of opcode 0x37 (R39, R293). -/
def execC3FmaxmF32 (f : C3) (s : State) : Out :=
  issue s 0x37 4 f.g (f2Body 0x37 (f.toL3 0) (fun t _ a b => t.minmC true a b))
/-- Compact entry of opcode 0x3A (R39, R293). -/
def execC3FcopysF32 (f : C3) (s : State) : Out :=
  issue s 0x3A 4 f.g (f2Body 0x3A (f.toL3 0) fcopysOp)
/-- Compact entry of opcode 0x38 (R39, R293). -/
def execC3FabsF32 (f : C3) (s : State) : Out :=
  issue s 0x38 4 f.g (fabsBody (f.toL3u 0))
/-- Compact entry of opcode 0x39 (R39, R293). -/
def execC3FnegF32 (f : C3) (s : State) : Out :=
  issue s 0x39 4 f.g (fnegBody (f.toL3u 0))
/-- Compact entry of opcode 0x41 (R39, R293). -/
def execC3FscaleF32 (f : C3) (s : State) : Out :=
  issue s 0x41 4 f.g (fscaleBody (f.toL3 0) none)
/-- Compact entry of opcode 0x42 (R39, R293). -/
def execC3FgeteF32 (f : C3) (s : State) : Out :=
  issue s 0x42 4 f.g (fgeteBody (f.toL3u 0))
/-- Compact entry of opcode 0x3D (R39, R293). -/
def execC3FrndRneF32 (f : C3) (s : State) : Out :=
  issue s 0x3D 4 f.g (frndBody (f.toL3u 0))
/-- Compact entry of opcode 0x3D (R39, R293). -/
def execC3FrndRtzF32 (f : C3) (s : State) : Out :=
  issue s 0x3D 4 f.g (frndBody (f.toL3u 8))
/-- Compact entry of opcode 0x3D (R39, R293). -/
def execC3FrndRupF32 (f : C3) (s : State) : Out :=
  issue s 0x3D 4 f.g (frndBody (f.toL3u 16))
/-- Compact entry of opcode 0x3D (R39, R293). -/
def execC3FrndRdnF32 (f : C3) (s : State) : Out :=
  issue s 0x3D 4 f.g (frndBody (f.toL3u 24))
/-- Compact entry of opcode 0x3F (R39, R293). -/
def execC3F2iRtzI32F32 (f : C3) (s : State) : Out :=
  issue s 0x3F 4 f.g (f2iBody (f.toL3u 16))
/-- Compact entry of opcode 0x3F (R39, R293). -/
def execC3F2iRtzN32F32 (f : C3) (s : State) : Out :=
  issue s 0x3F 4 f.g (f2iBody (f.toL3u 20))
/-- Compact entry of opcode 0x3F (R39, R293). -/
def execC3F2iRneI32F32 (f : C3) (s : State) : Out :=
  issue s 0x3F 4 f.g (f2iBody (f.toL3u 0))
/-- Compact entry of opcode 0x3F (R39, R293). -/
def execC3F2iRneN32F32 (f : C3) (s : State) : Out :=
  issue s 0x3F 4 f.g (f2iBody (f.toL3u 4))
/-- Compact entry of opcode 0x40 (R39, R293). -/
def execC3I2fRneF32I32 (f : C3) (s : State) : Out :=
  issue s 0x40 4 f.g (i2fBody (f.toL3u 0))
/-- Compact entry of opcode 0x40 (R39, R293). -/
def execC3I2fRneF32N32 (f : C3) (s : State) : Out :=
  issue s 0x40 4 f.g (i2fBody (f.toL3u 4))
/-- Compact entry of opcode 0x3E (R39, R293). -/
def execC3FcvtRneBf16F32 (f : C3) (s : State) : Out :=
  issue s 0x3E 4 f.g (fcvtBody { f.toL3 0 with sb := 0x18 })
/-- Compact entry of opcode 0x3E (R39, R293). -/
def execC3FcvtRneF16F32 (f : C3) (s : State) : Out :=
  issue s 0x3E 4 f.g (fcvtBody { f.toL3 0 with sb := 0x10 })
/-- Compact entry of opcode 0x3E (R39, R293). -/
def execC3FcvtF32Bf16 (f : C3) (s : State) : Out :=
  issue s 0x3E 4 f.g (fcvtBody { f.toL3 0 with sb := 0x03 })
/-- Compact entry of opcode 0x3E (R39, R293). -/
def execC3FcvtF32F16 (f : C3) (s : State) : Out :=
  issue s 0x3E 4 f.g (fcvtBody { f.toL3 0 with sb := 0x02 })
/-- Compact entry of opcode 0x3C (R39, R293). -/
def execC3FclassF32 (f : C3) (s : State) : Out :=
  issue s 0x3C 4 f.g (fclassBody (f.toL3u 0))
/-- Compact entry of opcode 0x50 (R39, R293). -/
def execC3RcpF32 (f : C3) (s : State) : Out :=
  issue s 0x50 4 f.g (funBody 0 (f.toL3u 0))
/-- Compact entry of opcode 0x51 (R39, R293). -/
def execC3SqrtF32 (f : C3) (s : State) : Out :=
  issue s 0x51 4 f.g (funBody 1 (f.toL3u 0))
/-- Compact entry of opcode 0x52 (R39, R293). -/
def execC3RsqF32 (f : C3) (s : State) : Out :=
  issue s 0x52 4 f.g (funBody 2 (f.toL3u 0))
/-- Compact entry of opcode 0x53 (R39, R293). -/
def execC3Exp2F32 (f : C3) (s : State) : Out :=
  issue s 0x53 4 f.g (exp2Body (f.toL3u 0))
/-- Compact entry of opcode 0x54 (R39, R293). -/
def execC3Log2F32 (f : C3) (s : State) : Out :=
  issue s 0x54 4 f.g (log2Body (f.toL3u 0))
/-- Compact entry of opcode 0x30 (R39, R293). -/
def execC3FaddF16x2 (f : C3) (s : State) : Out :=
  issue s 0x30 4 f.g (f2Body 0x30 (f.toL3 4) (fun t m a b => t.addC m a b))
/-- Compact entry of opcode 0x31 (R39, R293). -/
def execC3FsubF16x2 (f : C3) (s : State) : Out :=
  issue s 0x31 4 f.g (f2Body 0x31 (f.toL3 4) (fun t m a b => t.subC m a b))
/-- Compact entry of opcode 0x32 (R39, R293). -/
def execC3FmulF16x2 (f : C3) (s : State) : Out :=
  issue s 0x32 4 f.g (f2Body 0x32 (f.toL3 4) (fun t m a b => t.mulC m a b))
/-- Compact entry of opcode 0x34 (R39, R293). -/
def execC3FminF16x2 (f : C3) (s : State) : Out :=
  issue s 0x34 4 f.g (f2Body 0x34 (f.toL3 4) (fun t _ a b => t.minC false a b))
/-- Compact entry of opcode 0x35 (R39, R293). -/
def execC3FmaxF16x2 (f : C3) (s : State) : Out :=
  issue s 0x35 4 f.g (f2Body 0x35 (f.toL3 4) (fun t _ a b => t.minC true a b))
/-- Compact entry of opcode 0x38 (R39, R293). -/
def execC3FabsF16x2 (f : C3) (s : State) : Out :=
  issue s 0x38 4 f.g (fabsBody (f.toL3u 4))
/-- Compact entry of opcode 0x39 (R39, R293). -/
def execC3FnegF16x2 (f : C3) (s : State) : Out :=
  issue s 0x39 4 f.g (fnegBody (f.toL3u 4))
/-- Compact entry of opcode 0x30 (R39, R293). -/
def execC3FaddBf16x2 (f : C3) (s : State) : Out :=
  issue s 0x30 4 f.g (f2Body 0x30 (f.toL3 5) (fun t m a b => t.addC m a b))
/-- Compact entry of opcode 0x31 (R39, R293). -/
def execC3FsubBf16x2 (f : C3) (s : State) : Out :=
  issue s 0x31 4 f.g (f2Body 0x31 (f.toL3 5) (fun t m a b => t.subC m a b))
/-- Compact entry of opcode 0x32 (R39, R293). -/
def execC3FmulBf16x2 (f : C3) (s : State) : Out :=
  issue s 0x32 4 f.g (f2Body 0x32 (f.toL3 5) (fun t m a b => t.mulC m a b))
/-- Compact entry of opcode 0x34 (R39, R293). -/
def execC3FminBf16x2 (f : C3) (s : State) : Out :=
  issue s 0x34 4 f.g (f2Body 0x34 (f.toL3 5) (fun t _ a b => t.minC false a b))
/-- Compact entry of opcode 0x35 (R39, R293). -/
def execC3FmaxBf16x2 (f : C3) (s : State) : Out :=
  issue s 0x35 4 f.g (f2Body 0x35 (f.toL3 5) (fun t _ a b => t.minC true a b))
/-- Compact entry of opcode 0x38 (R39, R293). -/
def execC3FabsBf16x2 (f : C3) (s : State) : Out :=
  issue s 0x38 4 f.g (fabsBody (f.toL3u 5))
/-- Compact entry of opcode 0x39 (R39, R293). -/
def execC3FnegBf16x2 (f : C3) (s : State) : Out :=
  issue s 0x39 4 f.g (fnegBody (f.toL3u 5))
/-- Compact entry of opcode 0x3E (R39, R293). -/
def execC3FcvtRneF16x2F32 (f : C3) (s : State) : Out :=
  issue s 0x3E 4 f.g (fcvtBody (f.toL3 2))
/-- Compact entry of opcode 0x3E (R39, R293). -/
def execC3FcvtRneBf16x2F32 (f : C3) (s : State) : Out :=
  issue s 0x3E 4 f.g (fcvtBody (f.toL3 3))
/-- CI entry 107, FSCALE.f32 by sext(IMM12) (R293). -/
def execCiFscaleF32 (f : CI) (s : State) : Out :=
  issue s 0x41 4 f.g (fscaleBody (f.toL3 0) (some f.immWord))
/-- S16 form of opcode 0x30 (R41). -/
def execS16Fadd (f : S16) (s : State) : Out :=
  issue s 0x30 2 Guard.always (f2Body 0x30 (f.toC3.toL3 0) (fun t m a b => t.addC m a b))
/-- S16 form of opcode 0x31 (R41). -/
def execS16Fsub (f : S16) (s : State) : Out :=
  issue s 0x31 2 Guard.always (f2Body 0x31 (f.toC3.toL3 0) (fun t m a b => t.subC m a b))
/-- S16 form of opcode 0x32 (R41). -/
def execS16Fmul (f : S16) (s : State) : Out :=
  issue s 0x32 2 Guard.always (f2Body 0x32 (f.toC3.toL3 0) (fun t m a b => t.mulC m a b))
/-- S16 form of opcode 0x34 (R41). -/
def execS16Fmin (f : S16) (s : State) : Out :=
  issue s 0x34 2 Guard.always (f2Body 0x34 (f.toC3.toL3 0) (fun t _ a b => t.minC false a b))
/-- S16 form of opcode 0x35 (R41). -/
def execS16Fmax (f : S16) (s : State) : Out :=
  issue s 0x35 2 Guard.always (f2Body 0x35 (f.toC3.toL3 0) (fun t _ a b => t.minC true a b))

end Sys2Proof.Machine
end

