-- ==== Sys2Proof/Machine/Matrix.lean ====
section
/-!
DEFINITION. The matrix engine (R314 to R339): MMA, MMAS, MMAG, MMAX, ACCZ, ACCRD, ACCFREE, MSTAT; tokens and the dependency
table: TTOK, TASK, TDONE and dispatch; and the steps of plotter, quadrants and deferred completions.
-/

namespace Sys2Proof.Machine

/-! Clusters. -/

/-- A cluster's engine when its context is created (R315, R329). -/
def Cluster.empty : Cluster :=
  { tiles := [], tokens := [], dep := [], decl := 0, mq := [], mqIn := [], mqResv := [], mstat := 0, quads := [], obuf := [],
    task := 0, taskOp := 0, running := none, root := none, defer := [], accfree := [] }

/-- The key of a context's engine of a cluster. -/
def clKey (ctx cl : Nat) : Nat := ctx * 64 + cl

def State.clus (s : State) (key : Nat) : Cluster := mgetD s.clusters key Cluster.empty
def State.setClus (s : State) (key : Nat) (k : Cluster) : State := { s with clusters := mput s.clusters key k }
def State.modClus (s : State) (key : Nat) (f : Cluster → Cluster) : State := s.setClus key (f (s.clus key))

/-- The key of a crew's cluster. -/
def Crew.clus (c : Crew) : Nat := clKey c.ctx (clusterOf c.core)

/-- The bits of MSTAT (R338). -/
def stGRPERR : Word := 1
def stSPERR : Word := 2
def stFREERD : Word := 4
def stTOKSAT : Word := 8
def stGRPEN : Word := 0x100

/-- Adds to NANEL, saturating (R338). -/
def addNanel (m : Word) (n : Nat) : Word :=
  (m &&& 0xFFFF) ||| BitVec.ofNat 32 (min 0xFFFF (m.toNat / 65536 + n) * 65536)

/-- Posts a token to a cluster (R329). -/
def State.postToken (s : State) (key tok : Nat) : State :=
  if tok = 0xFFFF then s
  else
    s.modClus key (fun k =>
      let n := mgetD k.tokens tok 0
      if n < 255 then { k with tokens := mput k.tokens tok (n + 1) } else { k with mstat := k.mstat ||| stTOKSAT })

/-- A token and the cluster of a token word on a die (R329). -/
def tokOf (w : Word) : Nat := w.toNat % 65536
def tokClus (die : Nat) (w : Word) : Nat := 32 * die + wbits w 16 5

/-- A token word an instruction may supply (R329): 0xFFFF names no token and no cluster. -/
def State.tokOk (s : State) (die : Nat) (w : Word) : Bool :=
  tokOf w == 0xFFFF || (decide (tokOf w < 0x1000) && s.clusterUp (tokClus die w))

/-! Matrix instructions at issue. -/

/-- The element types of R38 by opcode. -/
def textLegal (opc : Nat) (t : BitVec 4) : Bool :=
  if opc = 0xC3 then decide (2 ≤ t.toNat ∧ t.toNat ≤ 5) else decide (t.toNat ≤ 6)

/-- An LX operand of k registers (R37): no crossbar, no dead bit; every source of R27 is legal but where a rule bars it. -/
def lxSrc (d : BitVec 9) (k fld : Nat) : Src := { d := d, xc := 0, dead := false, k := k, fld := fld, upper := true, zero := true }

/-- A descriptor's designator (R321). -/
def tileDesig (d : BitVec 9) : Bool :=
  match place d with
  | some (.reg n) => decide (n ≤ 252)
  | some (.ix _) => true
  | _ => false

/-- A tile descriptor from its registers (R320). -/
def tileDesc (os : List Opd) (l : Nat) : TileDesc :=
  let w := fun i => (os.getD i ⟨.u 0, 0⟩).at l
  { base := pairWord (w 0) (w 1), stride := w 2, rows := wbits (w 3) 16 8, klen := wbits (w 3) 0 16 }

/-- R321's checks on the values of one descriptor. -/
def TileDesc.ok (t : TileDesc) : Bool :=
  decide (1 ≤ t.rows ∧ t.rows ≤ 96 ∧ 1 ≤ t.klen ∧ t.klen ≤ 16384 ∧ t.base.toNat % 64 = 0 ∧ t.stride.toNat % 64 = 0)

/-- R321's checks on the logical K. -/
def klenOk (opc text gran k : Nat) : Bool :=
  !(text == 5 && k % 2 == 1) && !(opc == 0xC1 && k % 4 != 0) && !(opc == 0xC3 && gran == 1 && k % 32 != 0) &&
  !(opc == 0xC3 && gran == 2 && k % 16 != 0)

/-- The registers an instruction reads through SC (R327, R328). -/
def scRegs (opc gran : Nat) : Nat := if opc = 0xC2 then 1 else if opc = 0xC3 then (if gran = 0 then 1 else 4) else 0

/-- offset[g] of an MMAG's registers (R327). -/
def mmagOff (sc : List Word) (g : Nat) : Nat := (sc.getD (g + 1) 0).toNat
def mmagG (sc : List Word) : Nat := wbits (sc.getD 0 0) 0 8

/-- The rows of group g (R327): from offset[g] up to the e of the rule. -/
def mmagRows (sc : List Word) (m g : Nat) : Nat × Nat :=
  (mmagOff sc g, min (max (mmagOff sc (g + 1)) (mmagOff sc g)) m)

/-- The lowest empty or reversed group (R327). -/
def mmagBad (sc : List Word) (m : Nat) : Option Nat :=
  (List.range (mmagG sc)).find? (fun g => decide ((mmagRows sc m g).2 ≤ (mmagRows sc m g).1))

/-- Whether a quadrant's queue has room (R316). -/
def Cluster.room (k : Cluster) (q : Nat) : Bool := decide ((mgetD k.quads q []).length < 8)

/-- Puts an instruction into its quadrant's queue. -/
def Cluster.push (k : Cluster) (o : QOp) : Cluster :=
  { k with quads := mput k.quads (o.tile / 8) (mgetD k.quads (o.tile / 8) [] ++ [o]) }

/-- MMA, MMAS, MMAG and MMAX (R321, R324 to R328). DESIGN CHOICE: where the two KLENs differ, or the KLEN they share is no legal
multiple, BADTILE names the operand SB; the spec does not say which. Log entry 26. -/
def matrixBody (opc : Nat) (ins : Instr) (f : LX) (x : Cx) : Iss Rsl := do
  let gran := f.q.toNat
  needInsn (textLegal opc f.text)
  needOpnd (tileDesig f.sa) 6 1
  needOpnd (tileDesig f.sb) 6 2
  let ds := [lxSrc f.sa 4 1, lxSrc f.sb 4 2]
  let n0 := scRegs opc gran
  let s0 := if n0 = 0 then [] else [lxSrc f.sc n0 3]
  let r ← x.peek (ds ++ s0)
  if x.act = 0 then return { s := x.s, c := x.c, adv := true }
  else
    let l := x.lane
    let da := tileDesc (nthRun r 0) l
    let db := tileDesc (nthRun r 1) l
    let g := wbits ((nthOpd r 2).at l) 0 8
    needOpnd (opc != 0xC2 || decide (1 ≤ g ∧ g ≤ 15)) 0 3
    let s1 := if opc = 0xC2 then [lxSrc f.sc (g + 2) 3] else s0
    let q ← x.peek (ds ++ s1)
    let k := x.s.clus x.c.clus
    needOpnd (mget k.tiles f.tile.toNat).isSome 7 4
    needOpnd da.ok 6 1
    needOpnd (db.ok && da.klen == db.klen && klenOk opc f.text.toNat gran da.klen) 6 2
    x.deadReads (ds ++ s1)
    x.poisonCheck q.flatten
    let sc := (nthRun q 2).map (fun o => o.at l)
    let bad := if opc = 0xC2 then mmagBad sc da.rows else none
    if bad.isSome && (k.mstat &&& stGRPEN) != 0 then
      .error (.trap { cls := 9, sub := 1, arg := 0, lmask := 0, aux0 := BitVec.ofNat 64 (bad.getD 0), aux1 := 0, tm := none })
    else
      needIssue (k.room (f.tile.toNat / 8))
      let start := mgetD k.mqResv gran 0
      needIssue (opc != 0xC1 || decide (start < mgetD k.mqIn gran 0))
      let o : QOp := { id := x.op, pc := x.p.pc, ins := ins, raw := x.c.iword, tile := f.tile.toNat, da := da, db := db, sc := sc, task := k.task,
                       resv := start, block := 0, group := 0, nans := [] }
      let k1 := k.push o
      let k2 : Cluster := if opc = 0xC1 then { k1 with mqResv := mput k1.mqResv gran (start + da.klen / 4) } else k1
      let k3 : Cluster := if bad.isSome then { k2 with mstat := k2.mstat ||| stGRPERR } else k2
      return { s := x.s.setClus x.c.clus k3, c := x.c, adv := true }

/-! What a quadrant reads. -/

/-- The LX fields of a queued instruction, its opcode among them; none for ACCZ. -/
def QOp.lx (o : QOp) : Option (Nat × LX) :=
  match o.ins with
  | .mma f => some (0xC0, f)
  | .mmas f => some (0xC1, f)
  | .mmag f => some (0xC2, f)
  | .mmax f => some (0xC3, f)
  | _ => none

/-- Bits of an element in memory (R56). -/
def textBits (t : Nat) : Nat := if t < 2 then 16 else if t = 5 then 4 else 8

/-- The format of an element of A or B (R38); I8 has none. -/
def textFmt (t : Nat) (isB : Bool) : Fmt :=
  match t with
  | 0 => bf16
  | 1 => f16
  | 2 => e4m3
  | 3 => e5m2
  | 4 => if isB then e5m2 else e4m3
  | _ => e2m1

/-- The address of row r of a tile (R320). -/
def TileDesc.row (t : TileDesc) (r : Nat) : Nat := (t.base + BitVec.ofInt 64 (t.stride.toInt * (r : Int))).toNat

/-- B of group g of an MMAG (R327). -/
def QOp.bDesc (o : QOp) (opc g : Nat) : TileDesc :=
  if opc = 0xC2 then { o.db with base := o.db.base + BitVec.ofNat 64 (g * (wbits (o.sc.getD 0 0) 8 24) * 128) } else o.db

/-- The groups an instruction works through: one, or the G of an MMAG. -/
def QOp.groups (o : QOp) (opc : Nat) : Nat := if opc = 0xC2 then mmagG o.sc else 1

/-- The rows of A that take part in group g. -/
def QOp.rowsOf (o : QOp) (opc g : Nat) : List Nat :=
  if opc = 0xC2 then
    let r := mmagRows o.sc o.da.rows g
    (List.range r.2).filter (fun i => decide (r.1 ≤ i))
  else List.range o.da.rows

/-- The lines that n bits of a row from element k on touch. -/
def rowLines (row tb k n : Nat) : List Nat :=
  if n = 0 then [] else
    let a := (row + k * tb / 8) / 128
    let b := (row + ((k + n) * tb + 7) / 8 - 1) / 128
    (List.range (b - a + 1)).map (fun i => a + i)

/-- The byte of a scale array that row i uses at position k, by granularity (R328). -/
def scaleIx (gran klen i k : Nat) : Nat :=
  match gran with
  | 1 => i * (klen / 32) + k / 32
  | 2 => i * (klen / 16) + k / 16
  | _ => i

/-- The addresses of the A and B scale arrays (R328). -/
def QOp.scaleBase (o : QOp) (isB : Bool) : Nat :=
  if isB then (pairWord (o.sc.getD 2 0) (o.sc.getD 3 0)).toNat else (pairWord (o.sc.getD 0 0) (o.sc.getD 1 0)).toNat

/-- The stored elements of A in a run of logical positions: half of them for MMAS (R320). -/
def aSpan (opc k n : Nat) : Nat × Nat := if opc = 0xC1 then (k / 2, n / 2) else (k, n)

/-- The lines that one block of one group reads (R322). -/
def QOp.blockLines (o : QOp) (opc : Nat) (f : LX) (g blk : Nat) : List Nat :=
  let lo := 32 * blk
  let n := min 32 (o.da.klen - lo)
  let tb := textBits f.text.toNat
  let a := aSpan opc lo n
  let b := o.bDesc opc g
  let rows := o.rowsOf opc g
  let cols := List.range o.db.rows
  let sc := fun (isB : Bool) i => if opc = 0xC3 ∧ f.q.toNat ≠ 0 then
      [(o.scaleBase isB + scaleIx f.q.toNat o.da.klen i lo) / 128, (o.scaleBase isB + scaleIx f.q.toNat o.da.klen i (lo + n - 1)) / 128]
    else []
  ((rows.map (fun i => rowLines (o.da.row i) tb a.1 a.2 ++ sc false i)).flatten ++
   (cols.map (fun j => rowLines (b.row j) tb lo n ++ sc true j)).flatten).eraseDups

/-- Whether an instruction reads a line at all; a group without rows reads nothing (R327). -/
def QOp.reads (o : QOp) (vln : Nat) : Bool :=
  match o.lx with
  | none => false
  | some (opc, f) =>
    let tb := textBits f.text.toNat
    let a := aSpan opc 0 o.da.klen
    let within := fun (row k n : Nat) => n != 0 && decide (row / 128 ≤ vln ∧ vln ≤ (row + ((k + n) * tb + 7) / 8 - 1) / 128)
    let sc := fun (isB : Bool) i => opc == 0xC3 && f.q.toNat != 0 &&
      decide ((o.scaleBase isB + scaleIx f.q.toNat o.da.klen i 0) / 128 ≤ vln ∧
        vln ≤ (o.scaleBase isB + scaleIx f.q.toNat o.da.klen i (o.da.klen - 1)) / 128)
    (List.range (o.groups opc)).any (fun g => !(o.rowsOf opc g).isEmpty && (
      (o.rowsOf opc g).any (fun i => within (o.da.row i) a.1 a.2 || sc false i) ||
      (List.range o.db.rows).any (fun j => within ((o.bDesc opc g).row j) 0 o.da.klen || sc true j)))

/-- A held line of a task. -/
def Cluster.line (k : Cluster) (task vln : Nat) : Option OLine := k.obuf.find? (fun l => l.task == task && l.vln == vln)

/-- A byte the plotter has fetched for a task. -/
def Cluster.obyte (k : Cluster) (task va : Nat) : Nat :=
  ((k.line task (va / 128)).map (fun l => (l.data.getD (va % 128) 0).toNat)).getD 0

/-- Whether a fetched byte is marked. -/
def Cluster.omark (k : Cluster) (task va : Nat) : Bool :=
  ((k.line task (va / 128)).map (fun l => l.poison.getLsbD (va % 128 / 32))).getD false

/-- The code of element k of a row (R56). -/
def Cluster.elem (k : Cluster) (task row tb i : Nat) : Nat :=
  if tb = 16 then k.obyte task (row + 2 * i) + 256 * k.obyte task (row + 2 * i + 1)
  else if tb = 8 then k.obyte task (row + i)
  else k.obyte task (row + i / 2) / 16 ^ (i % 2) % 16

/-! One block (R65 to R68, R325). -/

/-- A word of a tile. -/
def AccTile.word (t : AccTile) (p : Nat) : Word := mgetD t.words p 0

/-- Writes a word of a tile, words of zero leaving the map. -/
def AccTile.put (t : AccTile) (p : Nat) (v : Word) : AccTile :=
  { words := if v = 0 then t.words.filter (fun e => e.1 != p) else mput t.words p v, poison := t.poison.filter (fun q => q != p) }

/-- The metadata queue's entry for a K step of an MMAS. -/
def Cluster.meta? (k : Cluster) (q n : Nat) : Option (List Byte) := mget (mgetD k.mq q []) n

/-- Row i's code in a metadata entry (R326). -/
def spCode (e : List Byte) (i : Nat) : Nat := (e.getD (i / 2) 0).toNat / 16 ^ (i % 2) % 16

/-- An invalid sparsity code (R326). -/
def spBad (c : Nat) : Bool := decide (c / 4 ≤ c % 4)

/-- The pairs of stored A element and logical position of a block of row i (R326): dense rows pair each position with
itself. -/
def Cluster.positions (k : Cluster) (o : QOp) (opc : Nat) (f : LX) (i blk : Nat) : List (Nat × Nat) :=
  let lo := 32 * blk
  let n := min 32 (o.da.klen - lo)
  if opc = 0xC1 then
    ((List.range (n / 4)).map (fun t =>
      let st := lo / 4 + t
      let c := spCode ((k.meta? f.q.toNat (o.resv + st)).getD []) i
      if spBad c then [] else [(2 * st, 4 * st + c % 4), (2 * st + 1, 4 * st + c / 4)])).flatten
  else (List.range n).map (fun t => (lo + t, lo + t))

/-- The scale of a product (R67, R328): the exponent, or none for a NaN scale. -/
def Cluster.scale (k : Cluster) (o : QOp) (opc : Nat) (f : LX) (i j p : Nat) : Option Int :=
  if opc ≠ 0xC3 then some 0
  else
    let gran := f.q.toNat
    let a := if gran = 0 then wbits (o.sc.getD 0 0) 0 8 else k.obyte o.task (o.scaleBase false + scaleIx gran o.da.klen i p)
    let b := if gran = 0 then wbits (o.sc.getD 0 0) 8 8 else k.obyte o.task (o.scaleBase true + scaleIx gran o.da.klen j p)
    if a = 255 ∨ b = 255 then none else some ((a : Int) + b - 254)

/-- The value of one element after a block (R65, R66). -/
def Cluster.blockElem (k : Cluster) (o : QOp) (opc : Nat) (f : LX) (g blk i j : Nat) (acc : Word) : Word :=
  let t := f.text.toNat
  let tb := textBits t
  let ps := k.positions o opc f i blk
  let ra := o.da.row i
  let rb := (o.bDesc opc g).row j
  if t = 6 then
    wordI (ps.foldl (fun (s : Int) p =>
      s + signed 8 (k.elem o.task ra tb p.1) * signed 8 (k.elem o.task rb tb p.2)) acc.toInt)
  else
    let prods := ps.map (fun p =>
      let v := dotProd ((textFmt t false).value (k.elem o.task ra tb p.1)) ((textFmt t true).value (k.elem o.task rb tb p.2))
      match k.scale o opc f i j p.2 with
      | none => Fv.nan false
      | some e => (v.mul (.fin false 1 e)).1)
    BitVec.ofNat 32 (dotAcc acc.toNat prods)

/-- The addresses of the elements and scales that a block consumes: those of A's rows, then of B's. -/
def Cluster.blockBytes (k : Cluster) (o : QOp) (opc : Nat) (f : LX) (g blk : Nat) : List Nat :=
  let tb := textBits f.text.toNat
  let lo := 32 * blk
  let ks := (List.range (min 32 (o.da.klen - lo))).map (fun t => lo + t)
  let sc := fun (isB : Bool) i =>
    if opc == 0xC3 && f.q.toNat != 0 then ks.map (fun p => o.scaleBase isB + scaleIx f.q.toNat o.da.klen i p) else []
  ((o.rowsOf opc g).map (fun i => (k.positions o opc f i blk).map (fun p => o.da.row i + p.1 * tb / 8) ++ sc false i)).flatten ++
  ((List.range o.db.rows).map (fun j => ks.map (fun p => (o.bDesc opc g).row j + p * tb / 8) ++ sc true j)).flatten

/-- The address of the first marked byte that a block consumes (R323). -/
def Cluster.blockMark (k : Cluster) (o : QOp) (opc : Nat) (f : LX) (g blk : Nat) : Option Nat :=
  (k.blockBytes o opc f g blk).find? (k.omark o.task)

/-- Whether a block consumes a marked byte (R323). -/
def Cluster.blockMarked (k : Cluster) (o : QOp) (opc : Nat) (f : LX) (g blk : Nat) : Bool := (k.blockMark o opc f g blk).isSome

/-- The positions of a tile that an instruction can write. -/
def QOp.cells (o : QOp) : List Nat :=
  ((List.range o.da.rows).map (fun i => (List.range o.db.rows).map (fun j => 96 * i + j))).flatten

/-- The positions that a group of an instruction adds to (R327). -/
def QOp.groupCells (o : QOp) (opc g : Nat) : List Nat :=
  ((o.rowsOf opc g).map (fun i => (List.range o.db.rows).map (fun j => 96 * i + j))).flatten

/-- Whether a word is an f32 NaN. -/
def nanWord (w : Word) : Bool := (f32.value w.toNat).isNan

/-- The next group from g on that has rows (R327). -/
def QOp.nextGroup (o : QOp) (opc g : Nat) : Option Nat :=
  (List.range (o.groups opc)).find? (fun i => decide (g ≤ i) && !(o.rowsOf opc i).isEmpty)

/-- Adds one block of an instruction to its tile. -/
def Cluster.addBlock (k : Cluster) (o : QOp) (opc : Nat) (f : LX) (g : Nat) (t : AccTile) : AccTile :=
  (o.rowsOf opc g).foldl (fun t i => (List.range o.db.rows).foldl (fun (t : AccTile) j =>
    t.put (96 * i + j) (k.blockElem o opc f g o.block i j (t.word (96 * i + j)))) t) t

/-- Before its first block: the elements that are NaN, and with ZA the zeroing (R325, R327). -/
def QOp.begin (o : QOp) (za int : Bool) (t : AccTile) : QOp × AccTile :=
  if o.block ≠ 0 ∨ o.group ≠ 0 then (o, t)
  else
    ({ o with nans := if int then [] else o.cells.filter (fun p => nanWord (t.word p)) },
     if za then o.cells.foldl (fun (t : AccTile) p => t.put p 0) t else t)

/-- The surveyor of a cluster of a context, where it is there. -/
def State.surveyor (s : State) (key : Nat) : Option Nat :=
  (mget s.crews (survSlot (key % 64))).bind (fun c => if c.ctx = key / 64 then some (survSlot (key % 64)) else none)

/-- A fault of a plotter or a quadrant (R339): recorded with its surveyor, and the quadrant of its instruction. -/
def State.matrixFault (s0 : State) (key : Nat) (q : Option Nat) (f : FaultRec) : State :=
  let s := s0.modClus key (fun k => { k with fquad := q })
  match s.surveyor key with
  | some id => s.crewFault id f
  | none => s.raiseLine (key / 64) (Cause.none.add causeFault f.xlc) none

/-- Whether the dies are released (R483): boot step 7 is done, or was before a failover (R480). -/
def Rot.released (r : Rot) : Bool := r.warm || r.boot == 7

/-- Whether a context runs: it exists and its halt line is low. -/
def State.ctxRuns (s : State) (ctx : Nat) : Bool := match mget s.ctxs ctx with | some x => !x.halted | none => false

/-- The head of a quadrant's queue leaves: the lines no queued instruction of its task reads go. -/
def Cluster.pop (k : Cluster) (q : Nat) : Cluster :=
  let rest := (mgetD k.quads q []).drop 1
  let quads := mput k.quads q rest
  let all := (quads.map (·.2)).flatten
  { k with quads := quads, obuf := k.obuf.filter (fun l => all.any (fun o => o.task == l.task && o.reads l.vln)) }

/-- An instruction has added its last block (R325): NANEL counts. -/
def Cluster.finish (k : Cluster) (q : Nat) (o : QOp) (int : Bool) (t : AccTile) : Cluster :=
  let n := if int then 0 else (o.cells.filter (fun p => nanWord (t.word p) && !o.nans.contains p)).length
  let k1 : Cluster := { k with tiles := mput k.tiles o.tile t, mstat := if int then k.mstat else addNanel k.mstat n }
  k1.pop q

/-- A quadrant adds one block of its first instruction (R325, R326). -/
def State.blockAdd (s : State) (key q : Nat) : State :=
  let k := s.clus key
  match (mgetD k.quads q []).head? with
  | none => s
  | some o =>
    match o.lx, mget k.tiles o.tile with
    | some (opc, f), some t0 =>
      let int := f.text == 6
      let b := o.begin f.za int t0
      match o.nextGroup opc o.group with
      | none => s.setClus key (k.finish q b.1 int b.2)
      | some g =>
        let steps := if opc = 0xC1 then (List.range (min 8 ((o.da.klen - 32 * o.block) / 4))).map (fun t => o.resv + 8 * o.block + t) else []
        if !(o.blockLines opc f g o.block).all (fun l => (k.line o.task l).isSome) ||
           !steps.all (fun n => (k.meta? f.q.toNat n).isSome) then s
        else if k.blockMarked o opc f g o.block then
          let va : Dword := BitVec.ofNat 64 ((k.blockMark o opc f g o.block).getD 0)
          let leaf := match (s.translate (256 + key % 64) (key / 64) va .plotter).2 with
            | .ok t => (t.leaf, t.level)
            | .error x => (x.ent, x.level)
          s.matrixFault key (some q) { xlc := 10, pc := o.pc, va := va, fent := leaf.1, aclass := 6, level := leaf.2, flane := 0 }
        else if !f.za && (o.groupCells opc g).any (fun p => t0.poison.contains p) then
          s.matrixFault key (some q) { xlc := 10, pc := o.pc, va := 0, fent := 0, aclass := 9, level := 0, flane := 0 }
        else
          let t := k.addBlock b.1 opc f g b.2
          let sp := opc == 0xC1 && steps.any (fun n => (List.range o.da.rows).any (fun i =>
            spBad (spCode ((k.meta? f.q.toNat n).getD []) i)))
          let k1 : Cluster := { k with
            mstat := if sp then k.mstat ||| stSPERR else k.mstat
            mq := mput k.mq f.q.toNat (steps.foldl (fun m n => mdel m n) (mgetD k.mq f.q.toNat [])) }
          let last := decide (o.da.klen ≤ 32 * (o.block + 1))
          let next : Option (Nat × Nat) :=
            if last then (o.nextGroup opc (g + 1)).map (fun h => (h, 0)) else some (g, o.block + 1)
          match next with
          | none => s.setClus key (k1.finish q b.1 int t)
          | some (h, n) =>
            let o1 : QOp := { b.1 with group := h, block := n }
            s.setClus key { k1 with tiles := mput k1.tiles o.tile t
                                    quads := mput k1.quads q (o1 :: (mgetD k1.quads q []).drop 1) }
    | _, _ => s

/-- The lines that operand buffers pin at their homes (R322). -/
def State.pinned (s : State) : List Nat :=
  ((s.clusters.map (fun e => e.2.obuf.filterMap (fun l => match l.tgt with
    | .hbm pa => some (pa / 128)
    | _ => none))).flatten).eraseDups

/-- Pinned lines of a slice (R322). -/
def State.pins (s : State) (slice : Nat) : Nat := (s.pinned.filter (fun l => homeSlice (128 * l) == slice)).length

/-- Whether a slice can pin a line: it is pinned already, or the slice pins fewer than 4,096 (R322). -/
def State.canPin (s : State) (pa : Nat) : Bool := s.pinned.contains (pa / 128) || decide (s.pins (homeSlice pa) < 4096)

/-- The number that a cluster's plotter and its completions carry as the requester of a peer. -/
def clusEngine (key : Nat) : Nat := 393216 + key

/-- The lines of an operand buffer that are taken: those it holds, and those on their way from peers. -/
def State.bufferUse (s : State) (key : Nat) : Nat :=
  (((s.clus key).obuf.map (fun l => (l.task, l.tgt))).eraseDups).length + (s.peerReqs.filter (fun r => r.crew == clusEngine key && (match r.what with | .read _ => true | _ => false))).length

/-- The plotter puts a line into the operand buffer. -/
def Cluster.hold (k : Cluster) (l : OLine) : Cluster := { k with obuf := k.obuf ++ [l] }

/-- The plotter fetches a line that a queued instruction reads (R322, R323). -/
def State.plot (s : State) (key q pos vln : Nat) : State :=
  let k := s.clus key
  match (mgetD k.quads q [])[pos]? with
  | none => s
  | some o =>
    if !o.reads vln || (k.line o.task vln).isSome || decide (8192 ≤ s.bufferUse key) ||
       s.peerReqs.any (fun r => r.crew == clusEngine key && r.op == vln && r.lane == o.task) then s
    else
      let va : Dword := BitVec.ofNat 64 (128 * vln)
      let fault := fun (s : State) xlc (lvl : Nat) ent cls =>
        s.matrixFault key (some q) { xlc := xlc, pc := o.pc, va := va, fent := ent, aclass := cls, level := lvl, flane := 0 }
      match s.translate (256 + key % 64) (key / 64) va .plotter with
      | (s1, .error e) => fault s1 e.xlc e.level e.ent (e.cls 6)
      | (s1, .ok t) =>
        match k.obuf.find? (fun l => l.task == o.task && l.tgt == t.tgt && l.owner == t.owner) with
        | some l => s1.modClus key (fun k => k.hold { l with vln := vln })
        | none =>
          match t.tgt with
          | .hbm pa =>
            if !s1.reach (key % 64 / 32) pa then fault s1 17 t.level t.leaf 6
            else if !s1.canPin pa then s1
            else
              match s1.homeEngine t.owner pa 128 with
              | .error e => fault s1 e t.level t.leaf 6
              | .ok (s2, bs, _) =>
                s2.modClus key (fun k => k.hold { task := o.task, vln := vln, tgt := t.tgt, owner := t.owner, data := bs,
                                                  poison := s2.linePoison (pa / 128) })
          | .peer dev pa =>
            if !s1.peerPath dev then fault s1 17 t.level t.leaf 6
            else (s1.askPeer (engTag (clusEngine key) (key / 64) va t.leaf t.level) vln o.task dev pa t.owner (.read 128)).1
          | _ => s1

/-- ACCZ's zeroing at the head of its queue (R335); a tile that has been freed since stays FREE. -/
def State.zeroTile (s : State) (key q : Nat) : State :=
  let k := s.clus key
  match (mgetD k.quads q []).head? with
  | some o =>
    if o.lx.isNone then s.setClus key ({ k with tiles := mmod k.tiles o.tile (fun _ => { words := [], poison := [] }) }.pop q) else s
  | none => s

/-! Tiles and crews. -/

/-- ACCZ makes a FREE tile ACTIVE and queues its zeroing (R335). -/
def State.activate (s : State) (key tile id : Nat) (pc : Dword) (ins : Instr) (raw : Dword) : State :=
  s.modClus key (fun k =>
    let z : TileDesc := { base := 0, stride := 0, rows := 0, klen := 0 }
    let k1 := k.push { id := id, pc := pc, ins := ins, raw := raw, tile := tile, da := z, db := z, sc := [], task := k.task, resv := 0,
                       block := 0, group := 0, nans := [] }
    { k1 with tiles := mput k1.tiles tile { words := [], poison := [] } })

/-- The tile number of an instruction (R335 to R337). -/
def tileNum (r : List (List Opd)) (x : Cx) : Iss Nat := do
  let t := ((nthOpd r 0).at x.lane).toNat
  needOpnd (x.act == 0 || decide (t < 32)) 0 1
  return t

/-- ACCZ (R335). -/
def acczBody (f : LE) (x : Cx) : Iss Rsl := do
  let srcs := [f.srcA 1]
  let r ← x.once.peek srcs
  let t ← tileNum r x
  x.once.deadReads srcs
  x.once.poisonCheck r.flatten
  let c0 := x.c.emptySrcs srcs
  if x.act = 0 then return { s := x.s, c := c0, adv := true }
  else
    needIssue ((x.s.clus x.c.clus).room (t / 8))
    return { s := x.s, c := c0.waitAt (x.waitFor 8 0xC4 0 (BitVec.ofNat 64 t) 0x110 8 (.accz t f)), adv := true }

/-- An ACCZ that waits looks at its tile (R335); it takes effect once. -/
def State.tryAccz (s : State) (id : Nat) : State :=
  match mget s.crews id with
  | none => s
  | some c =>
    match c.wait with
    | none => s
    | some w =>
      match w.op with
      | .accz t f =>
        if (mget (s.clus c.clus).tiles t).isSome || w.owed.isSome then s
        else (s.activate c.clus t w.num w.pc (.accz f) c.iword).endWait id none
      | _ => s

/-- ACCRD (R336). -/
def accrdBody (f : LE) (x : Cx) : Iss Rsl := do
  let n := f.md.toNat % 8 + 1
  dstCheck x.c f.dst n false
  let srcs := [f.srcA 1, f.srcB 1]
  let r ← x.once.peek srcs
  x.counterRoom cM
  let c0 := x.c.emptySrcs srcs
  if x.act = 0 then return x.idle c0 cM
  else
    let t ← tileNum r x
    let p := ((nthOpd r 1).at x.lane).toNat
    needOpnd (decide (p + n * x.c.w ≤ 9216)) 0 2
    x.once.deadReads srcs
    x.once.poisonCheck r.flatten
    let c1 := c0.raise cM x.op
    let c2 := c1.pendDests x.op f.la.toNat false
      ((List.range n).map (fun i => regDests c1 f.dst i x.act (.u (BitVec.ofNat 32 i)) 0)).flatten
    return { s := x.s, adv := true
             c := { c2 with accReads := c2.accReads ++ [{ op := x.op, pc := x.p.pc, tile := t, pos := p, n := n, lanes := x.act }] } }

/-- The words of an ACCRD are written (R336): M falls in turn. -/
def State.accReturn (s : State) (id op : Nat) : State :=
  match mget s.crews id with
  | none => s
  | some c =>
    match c.accReads.find? (fun a => a.op == op) with
    | none => s
    | some a =>
      let k := s.clus c.clus
      let t := mget k.tiles a.tile
      let at_ := fun (w i l : Nat) => a.pos + i * w + l
      let word := fun (w i : Nat) =>
        (normShape w (gen w (fun l => if a.lanes.getLsbD l then (t.map (fun t => t.word (at_ w i l))).getD 0 else 0)),
         lanesWhere w (fun l => a.lanes.getLsbD l && ((t.map (fun t => t.poison.contains (at_ w i l))).getD false)))
      let s1 := if t.isSome then s else s.setClus c.clus { k with mstat := k.mstat ||| stFREERD }
      ((s1.both id (fun d => d.fillPend op (word d.w))).modCrew id (fun d =>
        { d with accReads := d.accReads.filter (fun b => b.op != op) })).lowerOp id cM op

/-- Whether an ACCFREE can take effect (R337). -/
def State.accfreeReady (s : State) (k : Cluster) (a : AccFree) : Bool :=
  let busy := ((mget s.crews a.crew).map (fun c => c.accReads.any (fun r => a.ops.contains r.op))).getD false
  !busy && !(mgetD k.quads (a.tile / 8) []).any (fun o => a.qids.contains o.id)

/-- ACCFREE takes effect (R315). -/
def Cluster.freeTile (k : Cluster) (t : Nat) : Cluster := { k with tiles := mdel k.tiles t }

/-- ACCFREE (R337). -/
def accfreeBody (f : LE) (x : Cx) : Iss Rsl := do
  let srcs := [f.srcA 1]
  let r ← x.once.peek srcs
  let t ← tileNum r x
  x.once.deadReads srcs
  x.once.poisonCheck r.flatten
  let c0 := x.c.emptySrcs srcs
  if x.act = 0 then return { s := x.s, c := c0, adv := true }
  else
    let k := x.s.clus x.c.clus
    let a : AccFree := { crew := x.id, ops := x.c.accReads.map (·.op), tile := t,
                         qids := ((mgetD k.quads (t / 8) []).filter (fun o => o.tile == t)).map (·.id) }
    let k1 : Cluster := if x.s.accfreeReady k a then k.freeTile t else { k with accfree := k.accfree ++ [a] }
    return { s := x.s.setClus x.c.clus k1, c := c0, adv := true }

/-- The i-th ACCFREE of a cluster takes effect. -/
def State.accfreeGo (s : State) (key i : Nat) : State :=
  let k := s.clus key
  match k.accfree[i]? with
  | none => s
  | some a => if s.accfreeReady k a then s.setClus key ({ k with accfree := k.accfree.eraseIdx i }.freeTile a.tile) else s

/-- MSTAT (R338): 0 read, 1 .clr, 2 .ctl. -/
def mstatBody (op : Nat) (f : LE) (x : Cx) : Iss Rsl := do
  needInsn (op != 0 || f.md == 0)
  dstCheck x.c f.dst 1 true
  let srcs := if op = 0 then [] else [f.srcA 1]
  let r ← x.once.fetch srcs
  let c0 := x.c.emptySrcs srcs
  if x.act = 0 then return { s := x.s, c := c0, adv := true }
  else
    let k := x.s.clus x.c.clus
    let m := (nthOpd r 0).at x.lane
    let v := match op with
      | 0 => k.mstat
      | 1 => if m.getLsbD 16 then (k.mstat &&& ~~~(m &&& 0xF)) &&& 0xFFFF else k.mstat &&& ~~~(m &&& 0xF)
      | _ => if m.getLsbD 8 then k.mstat ||| stGRPEN else k.mstat &&& ~~~stGRPEN
    return { s := x.s.setClus x.c.clus { k with mstat := v }, c := x.writeWord c0 f.dst k.mstat, adv := true }

/-! Tokens and tasks. -/

/-- TTOK (R330). -/
def ttokBody (f : LE) (x : Cx) : Iss Rsl := do
  needInsn (decide (orderScope f < 7))
  let srcs := [f.srcA 1]
  let r ← x.once.peek srcs
  x.counterRoom cS
  x.queueRoom
  let c0 := x.c.emptySrcs srcs
  if x.act = 0 then return x.idle c0 cS
  else
    let w := (nthOpd r 0).at x.lane
    needOpnd (x.s.tokOk (x.c.core / 128) w) 0 1
    x.once.deadReads srcs
    x.once.poisonCheck r.flatten
    return { s := x.s, c := (c0.raise cS x.op).enqueue x.op x.p.pc (.ttok w) [] true (orderScope f), adv := true }

/-- TTOK at the head of the queue, released. -/
def State.ttokHead (s : State) (id : Nat) (c : Crew) (e : SqEntry) (w : Word) : State :=
  (s.postToken (clKey c.ctx (tokClus (c.core / 128) w)) (tokOf w)).leave id e.op cS []

/-- The four tokens of a pair of registers (R331). -/
def taskToks (v : Dword) : List Nat := (List.range 4).map (fun i => bits v (16 * i) 16)

/-- TASK (R331). -/
def taskBody (f : LE) (x : Cx) : Iss Rsl := do
  dstCheck x.c f.dst 1 true
  let srcs := [f.srcA 1, f.srcB 2]
  let r ← x.once.peek srcs
  let c0 := x.c.emptySrcs srcs
  if x.act = 0 then return { s := x.s, c := c0, adv := true }
  else
    let toks := taskToks (pairAt (nthRun r 1) x.lane)
    needOpnd (toks.all (fun t => decide (t < 0x1000) || t == 0xFFFF)) 0 2
    x.once.deadReads srcs
    x.once.poisonCheck r.flatten
    let k := x.s.clus x.c.clus
    match mfree k.dep 64 with
    | none => return { s := x.s, c := x.writeWord c0 f.dst 0xFFFFFFFF, adv := true }
    | some i =>
      let e : Dep := { entry := x.p.pc + BitVec.ofInt 64 (((nthOpd r 0).at x.lane).toInt * 2)
                       toks := toks.filter (fun t => t != 0xFFFF), decl := k.decl, state := 0 }
      return { s := x.s.setClus x.c.clus { k with dep := mput k.dep i e, decl := k.decl + 1 }
               c := x.writeWord c0 f.dst (BitVec.ofNat 32 i), adv := true }

/-- Whether a declared task's tokens are held (R333). -/
def Cluster.ready (k : Cluster) (d : Dep) : Bool :=
  d.state == 0 && d.toks.all (fun t => decide (d.toks.count t ≤ mgetD k.tokens t 0))

/-- The ready entry of the lowest declaration number. -/
def Cluster.oldest (k : Cluster) : Option (Nat × Dep) :=
  (k.dep.filter (fun e => k.ready e.2)).foldl (fun best e =>
    match best with
    | none => some e
    | some b => if e.2.decl < b.2.decl then some e else some b) none

/-- One pass of dispatch (R333): a task starts, or the root stream goes on; none where it waits. -/
def State.dispatch (s : State) (c : Crew) : Option (State × Crew) :=
  let k := s.clus c.clus
  match k.oldest with
  | some (i, d) =>
    let k1 : Cluster := { k with
      tokens := d.toks.eraseDups.foldl (fun m t => mput m t (mgetD m t 0 - d.toks.count t)) k.tokens
      dep := mput k.dep i { d with state := 1 }
      running := some i, task := k.task + 1, taskOp := s.opSeq }
    let c1 := (c.putDests [{ dst := .reg 255, lanes := allLanes c.w, sh := .u (BitVec.ofNat 32 i), poison := 0 }]).dropLatches
    some (s.setClus c.clus k1, c1.setPc d.entry)
  | none =>
    if k.dep.isEmpty then
      some (s.setClus c.clus { k with running := none, root := none, task := k.task + 1, taskOp := s.opSeq },
            c.setPc (k.root.getD c.pc))
    else none

/-- A surveyor that waits in dispatch looks again (R333), once its registers are back. -/
def State.tryDispatch (s : State) (id : Nat) : State :=
  match mget s.crews id with
  | none => s
  | some c =>
    match c.waitOp with
    | some .dispatch =>
      if c.evicted then s
      else
      match s.dispatch c with
      | some (s1, c1) => s1.setCrew id { c1 with wait := none }
      | none => s
    | _ => s

/-- Dispatch as TDONE enters it. -/
def Cx.enterDispatch (x : Cx) (s : State) (c : Crew) : Rsl :=
  match s.dispatch c with
  | some (s1, c1) => { s := s1, c := c1, adv := false }
  | none => { s := s, c := c.waitAt (x.waitFor 10 0 0 0 0x110 8 .dispatch), adv := false }

/-- TDONE.run (R332), and MOD 2 to 15, which are illegal. -/
def tdoneRunBody (f : LE) (x : Cx) : Iss Rsl := do
  let k := x.s.clus x.c.clus
  needInsn (f.md == 0 && k.running.isNone)
  if x.act = 0 then return { s := x.s, c := x.c, adv := true }
  else
    return x.enterDispatch (x.s.setClus x.c.clus { k with root := some (x.p.pc + 8) }) x.c

/-- TDONE (R332). -/
def tdoneBody (f : LE) (x : Cx) : Iss Rsl := do
  let k := x.s.clus x.c.clus
  needInsn k.running.isSome
  let none_ := f.sb == 0x110
  let srcs := if none_ then [f.srcA 1] else [f.srcA 1, f.srcB 2]
  let r ← x.once.peek srcs
  let c0 := x.c.emptySrcs srcs
  if x.act = 0 then return { s := x.s, c := c0, adv := true }
  else
    let w := (nthOpd r 0).at x.lane
    let va := pairAt (nthRun r 1) x.lane
    needOpnd (x.s.tokOk (x.c.core / 128) w) 0 1
    if none_ then .ok () else x.once.aligned 16 (fun _ => va)
    x.once.deadReads srcs
    x.once.poisonCheck r.flatten
    let i := k.running.getD 0
    let d : Deferred := { dep := i, token := w, bar := if none_ then none else some va, pc := x.p.pc, task := k.task
                          sqOps := (x.c.sq.map (·.op) ++ x.c.unacked.map (·.1)).filter (fun o => decide (k.taskOp ≤ o))
                          stage := 0, ids := [] }
    let k1 : Cluster := { k with running := none, defer := k.defer ++ [d], dep := mmod k.dep i (fun e => { e with state := 2 }) }
    return x.enterDispatch (x.s.setClus x.c.clus k1) c0

/-- Whether a deferred completion's work is done (R334). -/
def State.deferReady (s : State) (key : Nat) (k : Cluster) (d : Deferred) : Bool :=
  let sq := ((s.surveyor key).bind (fun id => mget s.crews id)).map (fun c => c.sq.map (·.op) ++ c.unacked.map (·.1))
  !k.quads.any (fun e => e.2.any (fun o => o.task == d.task)) && !d.sqOps.any (fun o => (sq.getD []).contains o)

/-- A deferred completion's barrier arrival (R334, step 1). -/
def State.deferArrive (s : State) (key i : Nat) (d : Deferred) (va : Dword) : State :=
  let mod := fun (s : State) (f : Deferred → Deferred) =>
    s.modClus key (fun k => { k with defer := k.defer.set i (f d) })
  let fault := fun (s : State) xlc (lvl : Nat) ent cls =>
    s.matrixFault key none { xlc := xlc, pc := d.pc, va := va, fent := ent, aclass := cls, level := lvl, flane := 0 }
  match s.translate (256 + key % 64) (key / 64) va .atomic with
  | (s1, .error e) => fault s1 e.xlc e.level e.ent (e.cls 3)
  | (s1, .ok t) =>
    match t.tgt with
    | .hbm pa =>
      if !s1.reach (key % 64 / 32) pa then fault s1 17 t.level t.leaf 3
      else
        match s1.homeArrive t.owner pa 1 with
        | .error e => fault s1 e t.level t.leaf 3
        | .ok s2 => mod s2 (fun d => { d with stage := 2 })
    | .peer dev pa =>
      if !s1.peerPath dev then fault s1 17 t.level t.leaf 3
      else
        let q := s1.askPeer (engTag (clusEngine key) (key / 64) va t.leaf t.level) 0 0 dev pa t.owner (.arrive 1)
        mod q.1 (fun d => { d with stage := 1, ids := [q.2] })
    | _ => s1

/-- Moves a deferred completion on (R334). -/
def State.deferGo (s : State) (key i : Nat) : State :=
  let k := s.clus key
  match k.defer[i]? with
  | none => s
  | some d =>
    if !s.deferReady key k d then s
    else
      let s1 := match d.stage, d.bar with
        | 0, some va => s.deferArrive key i d va
        | _, _ => s
      match (s1.clus key).defer[i]? with
      | none => s1
      | some d =>
        if d.stage = 2 ∨ d.bar.isNone ∨ (d.stage = 1 ∧ d.ids.isEmpty) then
          let s2 := s1.modClus key (fun k => { k with defer := k.defer.eraseIdx i, dep := mdel k.dep d.dep })
          s2.postToken (clKey (key / 64) (tokClus (key % 64 / 32) d.token)) (tokOf d.token)
        else s1

/-! The meanings. -/

/-- MMA (R325). -/
def execMma (f : LX) (s : State) : Out := issue s 0xC0 8 f.g (matrixBody 0xC0 (.mma f) f)
/-- MMAS (R326). -/
def execMmas (f : LX) (s : State) : Out := issue s 0xC1 8 f.g (matrixBody 0xC1 (.mmas f) f)
/-- MMAG (R327). -/
def execMmag (f : LX) (s : State) : Out := issue s 0xC2 8 f.g (matrixBody 0xC2 (.mmag f) f)
/-- MMAX (R328). -/
def execMmax (f : LX) (s : State) : Out := issue s 0xC3 8 f.g (matrixBody 0xC3 (.mmax f) f)
/-- ACCZ (R335). -/
def execAccz (f : LE) (s : State) : Out := issueW s 0xC4 8 f.g (acczBody f) State.tryAccz
/-- TASK (R331). -/
def execTask (f : LE) (s : State) : Out := issue s 0xC5 8 f.g (taskBody f)
/-- TDONE.run (R332, R333). -/
def execTdoneRun (f : LE) (s : State) : Out := issue s 0xC6 8 f.g (tdoneRunBody f)
/-- TDONE (R332 to R334). -/
def execTdone (f : LE) (s : State) : Out := issue s 0xC6 8 f.g (tdoneBody f)
/-- TTOK (R330). -/
def execTtok (f : LE) (s : State) : Out := issue s 0xC7 8 f.g (ttokBody f)
/-- ACCRD (R336). -/
def execAccrd (f : LE) (s : State) : Out := issue s 0xC8 8 f.g (accrdBody f)
/-- ACCFREE (R337). -/
def execAccfree (f : LE) (s : State) : Out := issue s 0xC9 8 f.g (accfreeBody f)
/-- MSTAT (R338), and MOD 3 to 15, which are illegal. -/
def execMstat (f : LE) (s : State) : Out := issue s 0xCA 8 f.g (mstatBody 0 f)
/-- MSTAT.clr (R338). -/
def execMstatClr (f : LE) (s : State) : Out := issue s 0xCA 8 f.g (mstatBody 1 f)
/-- MSTAT.ctl (R338). -/
def execMstatCtl (f : LE) (s : State) : Out := issue s 0xCA 8 f.g (mstatBody 2 f)

/-- PLOTTER_FETCH (R322): the cluster is named by the key of its context's engine; line is a virtual line number. -/
def execPlotterFetch (key q pos line : Nat) (s : State) : Out :=
  .next (if s.ctxRuns (key / 64) then s.plot key q pos line else s)
/-- QUADRANT_BLOCK_ADD (R325). -/
def execQuadrantBlockAdd (key q : Nat) (s : State) : Out := .next (if s.ctxRuns (key / 64) then s.blockAdd key q else s)
/-- ACCZ_ZERO (R335). -/
def execAcczZero (key q : Nat) (s : State) : Out := .next (if s.ctxRuns (key / 64) then s.zeroTile key q else s)
/-- ACCRD_RETURN (R336). -/
def execAccrdReturn (crew op : Nat) (s : State) : Out := .next (s.accReturn crew op)
/-- ACCFREE_EFFECT (R337). -/
def execAccfreeEffect (key i : Nat) (s : State) : Out := .next (if s.ctxRuns (key / 64) then s.accfreeGo key i else s)
/-- TASK_DISPATCH (R333). -/
def execTaskDispatch (key : Nat) (s : State) : Out :=
  .next (match s.surveyor key with
    | some id => if s.ctxRuns (key / 64) && ((mget s.crews id).map (fun c => !c.evicted)).getD false then s.tryDispatch id else s
    | none => s)
/-- DEFERRED_COMPLETION (R334). -/
def execDeferredCompletion (key i : Nat) (s : State) : Out := .next (if s.ctxRuns (key / 64) then s.deferGo key i else s)

end Sys2Proof.Machine
end

