-- ==== Sys2Proof/Machine/Fabric.lean ====
section
/-!
DEFINITION. Reads that a device unit makes at homes, piece by piece; groups (R352 to R356): GRPDEF, CLSTAT; the states of
the links and ports (R343, R344, R346).
-/

namespace Sys2Proof.Machine

/-! Reads by device units. -/

/-- What a unit's read gives: bytes with their mark, nothing yet, or a fault. -/
inductive Got where
  | data (bs : List Byte) (poison : Bool)
  | wait
  | fail (x : XFail) (va : Dword)
deriving DecidableEq, Repr

/-- Where a unit's read stands: the device, what has been read by address, and the outcome. -/
structure Reading where
  s   : State
  buf : List (Nat × List Byte × Bool)
  got : Got
deriving DecidableEq, Repr

/-- Who reads: its die, translation unit and context, and the requester and number its requests carry. -/
structure Reader where
  die  : Nat
  unit : Nat
  ctx  : Nat
  who  : Nat
  num  : Nat
deriving DecidableEq, Repr

/-- Reads bytes that lie in one line, or takes them from what has been read (R82, R149, R473). -/
def State.bufPiece (s : State) (w : Reader) (acc : Acc) (buf : List (Nat × List Byte × Bool)) (va : Dword) (n : Nat) :
    Reading :=
  match buf.find? (fun b => b.1 == va.toNat && b.2.1.length == n) with
  | some b => { s := s, buf := buf, got := .data b.2.1 b.2.2 }
  | none =>
    match s.translate w.unit w.ctx va acc with
    | (s1, .error x) => { s := s1, buf := buf, got := .fail x va }
    | (s1, .ok t) =>
      let bad := fun (s : State) xlc => ({ s := s, buf := buf, got := .fail { xlc := xlc, level := t.level, ent := t.leaf } va } : Reading)
      match t.tgt with
      | .hbm pa =>
        if !s1.reach w.die pa then bad s1 17
        else
          match s1.homeEngine t.owner pa n with
          | .error x => bad s1 x
          | .ok (s2, bs, p) => { s := s2, buf := buf ++ [(va.toNat, bs, p)], got := .data bs p }
      | .gaz off => { s := s1, buf := buf ++ [(va.toNat, s1.gazRead off n, false)], got := .data (s1.gazRead off n) false }
      | .peer dev pa =>
        if !s1.peerPath dev then bad s1 17
        else if s1.peerReqs.any (fun r => r.crew == w.who && r.op == w.num && r.lane == va.toNat) then
          { s := s1, buf := buf, got := .wait }
        else { s := (s1.askPeer (engTag w.who w.ctx va t.leaf t.level) w.num va.toNat dev pa t.owner (.read n)).1, buf := buf, got := .wait }
      | .host off =>
        let subs := (List.range ((n + 15) / 16)).map (fun i => (va.toNat + 16 * i, off + 16 * i, min 16 (n - 16 * i)))
        let have_ := fun (p : Nat × Nat × Nat) => (buf.find? (fun b => b.1 == p.1 && b.2.1.length == p.2.2)).map (·.2)
        let got := subs.map have_
        if got.all (·.isSome) then
          { s := s1, buf := buf, got := .data ((got.map (fun g => (g.getD ([], false)).1)).flatten) false }
        else
          let s2 := subs.foldl (fun (s : State) p =>
            if (have_ p).isSome || s.hostReqs.any (fun r => r.crew == w.who && r.op == w.num && r.lane == p.1) then s
            else (s.askHost (engTag w.who w.ctx (BitVec.ofNat 64 p.1) t.leaf t.level) w.num p.1 p.2.1 p.2.2 false []).1) s1
          { s := s2, buf := buf, got := .wait }

/-- The fault of a read whose bytes are marked, or cannot go where they should: POISON, with the leaf that maps the address (R93). -/
def State.poisonFail (s : State) (w : Reader) (acc : Acc) (va : Dword) : XFail :=
  match (s.translate w.unit w.ctx va acc).2 with
  | .ok t => { xlc := 10, level := t.level, ent := t.leaf }
  | .error x => { xlc := 10, level := x.level, ent := x.ent }

/-- Reads bytes of a scale-out endpoint's tile, at the address its record forms (R347, R353): endpoint i is device 1,024 + i
of the model's requests, and what it reads is kept apart from the addresses of this device. -/
def State.soPiece (s : State) (w : Reader) (dev : Nat) (buf : List (Nat × List Byte × Bool)) (va : Dword) (n : Nat) : Reading :=
  let key := 2 ^ 64 * dev + va.toNat
  match buf.find? (fun b => b.1 == key && b.2.1.length == n) with
  | some b => { s := s, buf := buf, got := .data b.2.1 b.2.2 }
  | none =>
    if !s.peerPath dev then { s := s, buf := buf, got := .fail { xlc := 17, level := 0, ent := 0 } va }
    else if s.peerReqs.any (fun r => r.crew == w.who && r.op == w.num && r.lane == key) then { s := s, buf := buf, got := .wait }
    else { s := (s.askPeer (engTag w.who w.ctx va) w.num key dev va.toNat 0 (.read n)).1, buf := buf, got := .wait }

/-- Splits bytes from an address at the lines; fuel bounds the pieces. -/
def linePieces (fuel : Nat) (va : Dword) (n : Nat) : List (Dword × Nat) :=
  match fuel with
  | 0 => []
  | k + 1 =>
    if n = 0 then []
    else
      let m := min n (128 - va.toNat % 128)
      (va, m) :: linePieces k (va + BitVec.ofNat 64 m) (n - m)

/-- Two reads one after the other as one. -/
def Got.join (a b : Got) : Got :=
  match a, b with
  | .fail x v, _ => .fail x v
  | _, .fail x v => .fail x v
  | .wait, _ | _, .wait => .wait
  | .data u p, .data v q => .data (u ++ v) (p || q)

/-- Reads bytes from an address on, here or at a scale-out endpoint. -/
def State.bufRead (s : State) (w : Reader) (acc : Acc) (buf : List (Nat × List Byte × Bool)) (va : Dword) (n : Nat)
    (so : Option Nat := none) : Reading :=
  (linePieces (n / 128 + 2) va n).foldl (fun (r : Reading) p =>
    match r.got with
    | .fail _ _ => r
    | g =>
      let o := match so with
        | some i => r.s.soPiece w (1024 + i) r.buf p.1 p.2
        | none => r.s.bufPiece w acc r.buf p.1 p.2
      { o with got := g.join o.got }) { s := s, buf := buf, got := .data [] false }

/-! Groups. -/

/-- One bit of the CRC-32 of IEEE 802.3 (R355). -/
def crcBit (c : Nat) (bit : Bool) : Nat :=
  let x := c % 2 == (if bit then 0 else 1)
  if x then (c / 2) ^^^ 0xEDB88320 else c / 2

/-- The CRC-32 of a byte string (R355). -/
def crc32 (bs : List Byte) : Nat :=
  (bs.foldl (fun c b => (List.range 8).foldl (fun c i => crcBit c (b.getLsbD i)) c) 0xFFFFFFFF) ^^^ 0xFFFFFFFF

/-- A group of a context. -/
def State.group (s : State) (ctx g : Nat) : Option Group := (mget s.ctxs ctx).bind (fun x => mget x.groups g)

/-- Changes a context. -/
def State.modCtx (s : State) (ctx : Nat) (f : Ctx → Ctx) : State := { s with ctxs := mmod s.ctxs ctx f }

/-- Sets or removes a group of a context. -/
def State.setGroup (s : State) (ctx g : Nat) (r : Option Group) : State :=
  s.modCtx ctx (fun x => { x with groups := match r with | some r => mput x.groups g r | none => mdel x.groups g })

/-- The number of members of a group (R353). -/
def Group.size (g : Group) : Nat := g.map.length

/-- A map entry names a scale-out endpoint (R353). -/
def mapSo (e : Nat) : Bool := e.testBit 15
def mapNode (e : Nat) : Nat := e % 4096

/-- Whether a chain holds a published entry with COLL = 1 that has not completed (R354), as its slots read at their homes: a
slot on a peer's or the host's page is asked for, and the outcome waits for the reply. -/
def State.collHeld (s : State) (h : Nat) (buf : List (Nat × List Byte × Bool)) (who num : Nat) : Reading :=
  match mget s.chains h with
  | none => { s := s, buf := buf, got := .data [0] false }
  | some ch =>
    let rd : Reader := { die := h / 256, unit := 320 + h / 16, ctx := ch.ctx, who := who, num := num }
    let r := (ch.ready.filter (fun n => !ch.nops.contains n)).foldl (fun (r : State × List (Nat × List Byte × Bool) × Bool × Bool) n =>
      let o := r.1.bufRead rd .txeRead r.2.1 (ch.slot (BitVec.ofNat 32 n)) 8
      match o.got with
      | .data bs _ => (o.s, o.buf, r.2.2.1 || (BitVec.ofNat 64 (leNat bs)).getLsbD 11, r.2.2.2)
      | .wait => (o.s, o.buf, r.2.2.1, true)
      | .fail _ _ => (o.s, o.buf, r.2.2)) (s, buf, (ch.cur.map (·.coll)).getD false, false)
    { s := r.1, buf := r.2.1, got := if r.2.2.1 then .data [1] false else if r.2.2.2 then .wait else .data [0] false }

/-- The bytes of a record as dwords. -/
def recDw (bs : List Byte) (i : Nat) : Dword := BitVec.ofNat 64 (leNat ((bs.drop (8 * i)).take 8))

/-- The used extents of a group record. -/
def recExts (bs : List Byte) : List Nat := (List.range (bits (recDw bs 2) 0 3)).map (fun g => bits (recDw bs 1) (16 * g) 16)

/-- REASON 2 (R354). -/
def grpBadSize (bs : List Byte) : Bool :=
  let ngd := bits (recDw bs 2) 0 3
  decide (ngd = 0 ∨ 4 < ngd) || (recExts bs).any (fun e => decide (e = 0 ∨ 1024 < e)) || decide (1024 < (recExts bs).foldl (· * ·) 1)

/-- The entries of a rank map. -/
def mapOf (bs : List Byte) : List Nat := (List.range (bs.length / 2)).map (fun i => leNat ((bs.drop (2 * i)).take 2))

/-- REASON 3 (R353, R354). -/
def State.grpBadMap (s : State) (m : List Nat) : Bool :=
  let devs := m.filter (fun e => !mapSo e)
  m.any (fun e => e / 4096 % 8 != 0) ||
  devs.any (fun e => decide (1024 ≤ mapNode e ∨ s.podsize ≤ mapNode e)) ||
  devs.length != devs.eraseDups.length ||
  m.any (fun e => mapSo e && (mget s.endpoints (mapNode e)).isNone)

/-- Whether every page of a range is KIND 00 with W (R354, REASON 5); fuel bounds the pages. -/
def State.plainPages (s : State) (unit ctx fuel : Nat) (va : Dword) (n : Nat) : State × Bool :=
  match fuel with
  | 0 => (s, decide (n = 0))
  | k + 1 =>
    if n = 0 then (s, true)
    else
      match s.translate unit ctx va .store with
      | (s1, .error _) => (s1, false)
      | (s1, .ok t) =>
        if pteKind t.leaf ≠ 0 then (s1, false)
        else s1.plainPages unit ctx k (va + 65536) (n - 65536)

/-- REASON 5 (R353, R354). -/
def State.grpBadArea (s : State) (unit ctx : Nat) (bs : List Byte) : State × Bool :=
  let cr := recDw bs 4
  let ca := recDw bs 5
  let n := (recDw bs 6).toNat
  if cr.toNat % 4096 ≠ 0 ∨ ca.toNat % 65536 ≠ 0 ∨ n % 65536 ≠ 0 ∨ n = 0 ∨ 2 ^ 57 < n then (s, true)
  else
    let a := s.plainPages unit ctx 1 cr 4096
    let b := a.1.plainPages unit ctx (n / 65536) ca n
    (b.1, !(a.2 && b.2))

/-- GRPDEF's status word (R354). -/
def grpStatus (reason : Nat) (rank : Option Nat) : Word :=
  BitVec.ofNat 32 ((if reason = 0 then 0 else 2 ^ 31 + reason * 2 ^ 24) + (if reason = 0 then rank.getD 0xFFFF else 0xFFFF))

/-- A group from its record and map (R353 to R355). -/
def State.groupOf (s : State) (bs map : List Byte) : Group :=
  let m := mapOf map
  { rstride := recDw bs 0, exts := recExts bs, timeout := bits (recDw bs 2) 48 16, chain := bits (recDw bs 2) 32 9,
    ngd := bits (recDw bs 2) 0 3, map := m, crbase := recDw bs 4, carea := recDw bs 5, casize := recDw bs 6,
    rank := m.findIdx? (fun e => e == s.devnum), gsig := BitVec.ofNat 32 (crc32 (bs.take 24 ++ map)), cstep := 0, steps := 0 }

/-- What a new group finds of its steps: the beats of members that were earlier, offered until now (R359 to R361), and the
notices that came before it (R363); what an earlier group under its number left goes. -/
def State.collNew (s : State) (ctx g : Nat) (n : Group) : State :=
  let fresh := (s.group ctx g).isNone
  { s with colls := s.colls.filterMap (fun c =>
      if c.ctx = ctx ∧ c.group = g then
        let mine := fun (b : CollBeat) => b.hdr.gsig == n.gsig
        let r := if fresh then c.record else none
        let copies := c.copies.filter mine
        let parts := c.parts.filter mine
        if copies.isEmpty && parts.isEmpty && r.isNone then none
        else some { ctx := ctx, group := g, step := c.step, hdr := none, shape := none, fly := [], own := [], copies := copies,
                    parts := parts, passed := [], mute := none, late := [], lapsed := [], result := [], waits := [], dmiss := [],
                    record := r }
      else some c) }

/-- The reads and checks of a definition (R354): the group or its REASON. -/
def State.grpRead (s : State) (id : Nat) (c : Crew) (w : Wait) (g : Nat) (rec : Dword) (buf : List (Nat × List Byte × Bool)) :
    State :=
  let rd : Reader := { die := c.core / 128, unit := c.unit, ctx := c.ctx, who := id, num := w.num }
  let keep := fun (r : Reading) => r.s.setWaitOp id (.grpdef g false rec r.buf)
  let bad := fun (s : State) (x : XFail) va => s.waitFault id (x.record w.pc va .load ((lowest w.lanes).getD 0))
  let r := s.bufRead rd .load buf rec 64
  match r.got with
  | .fail x va => bad r.s x va
  | .wait => keep r
  | .data bs p =>
    if p then bad r.s (r.s.poisonFail rd .load rec) rec
    else if grpBadSize bs then r.s.endWait id (some (grpStatus 2 none))
    else
      let q := r.s.bufRead rd .load r.buf (recDw bs 3) (2 * (recExts bs).foldl (· * ·) 1)
      match q.got with
      | .fail x va => bad q.s x va
      | .wait => keep q
      | .data map p =>
        if p then bad q.s (q.s.poisonFail rd .load (recDw bs 3)) (recDw bs 3)
        else if q.s.grpBadMap (mapOf map) then q.s.endWait id (some (grpStatus 3 none))
        else if (q.s.chainOf c.ctx (bits (recDw bs 2) 32 9)).isNone then q.s.endWait id (some (grpStatus 4 none))
        else
          let a := q.s.grpBadArea c.unit c.ctx bs
          if a.2 then a.1.endWait id (some (grpStatus 5 none))
          else
            let n := a.1.groupOf bs map
            ((a.1.collNew c.ctx g n).setGroup c.ctx g (some n)).endWait id (some (grpStatus 0 n.rank))

/-- A GRPDEF that waits goes on once the crew's earlier stores have been acknowledged (R354). -/
def State.tryGrpdef (s : State) (id : Nat) : State :=
  match mget s.crews id with
  | none => s
  | some c =>
    match c.wait with
    | none => s
    | some w =>
      match w.op with
      | .grpdef g del rec buf =>
        if !c.storesDone then s
        else
          let busy : Reading := match s.group c.ctx g with
            | some k => s.collHeld k.chain buf id w.num
            | none => { s := s, buf := buf, got := .data [0] false }
          match busy.got with
          | .data [1] _ => busy.s.endWait id (some (grpStatus 1 none))
          | .data _ _ =>
            if del then (busy.s.setGroup c.ctx g none).endWait id (some (grpStatus 0 none))
            else busy.s.grpRead id c w g rec busy.buf
          | _ => busy.s.setWaitOp id (.grpdef g del rec busy.buf)
      | _ => s

/-- GRPDEF and GRPDEF.del (R354). -/
def grpdefBody (del : Bool) (f : LE) (x : Cx) : Iss Rsl := do
  dstCheck x.c f.dst 1 true
  let srcs := if del then [f.srcB 1] else [f.srcB 1, f.srcA 2]
  let r ← x.once.peek srcs
  let c0 := x.c.emptySrcs srcs
  if x.act = 0 then return { s := x.s, c := c0, adv := true }
  else
    let g := ((nthOpd r 0).at x.lane).toNat
    let va := pairAt (nthRun r 1) x.lane
    needOpnd (decide (g < 256)) 0 2
    if del then .ok () else x.once.aligned 64 (fun _ => va)
    x.once.deadReads srcs
    x.once.poisonCheck r.flatten
    return { s := x.s, c := c0.waitAt (x.waitFor 8 0xB7 0 0 f.dst 8 (.grpdef g del va [])), adv := true }

/-- CLSTAT.ports (R356). -/
def State.portWord (s : State) : Word :=
  BitVec.ofNat 32 (
    ((List.range 16).map (fun p => if s.ualUp p then 2 ^ p else 0)).foldl (· + ·) 0 +
    ((List.range 4).map (fun p => if mgetD s.ueLanes p 4 ≠ 0 then 2 ^ (16 + p) else 0)).foldl (· + ·) 0 +
    s.hostUp % 4 * 2 ^ 20 + (if s.d2dUp then 2 ^ 22 else 0))

/-- A word of CLSTAT about a group (R356). -/
def clstatWord (f : Nat) (g : Option Group) : Word :=
  match f, g with
  | 0, some g => g.cstep
  | 1, some g => match g.rank with | some r => BitVec.ofNat 32 r | none => 0xFFFFFFFF
  | 1, none => 0xFFFFFFFF
  | 2, some g => BitVec.ofNat 32 g.size
  | 3, some g => g.gsig
  | _, _ => 0

/-- CLSTAT (R356). -/
def clstatBody (f : LE) (x : Cx) : Iss Rsl := do
  needInsn (decide (f.md.toNat < 5))
  dstCheck x.c f.dst 1 true
  let srcs := if f.md = 4 then [] else [f.srcA 1]
  let r ← x.once.peek srcs
  let c0 := x.c.emptySrcs srcs
  if x.act = 0 then return { s := x.s, c := c0, adv := true }
  else if f.md = 4 then return { s := x.s, c := x.writeWord c0 f.dst x.s.portWord, adv := true }
  else
    let g := ((nthOpd r 0).at x.lane).toNat
    needOpnd (decide (g < 256)) 0 1
    x.once.deadReads srcs
    x.once.poisonCheck r.flatten
    return { s := x.s, c := x.writeWord c0 f.dst (clstatWord f.md.toNat (x.s.group x.c.ctx g)), adv := true }

/-- GRPDEF (R354). -/
def execGrpdef (f : LE) (s : State) : Out := issueW s 0xB7 8 f.g (grpdefBody false f) State.tryGrpdef
/-- GRPDEF.del (R354). -/
def execGrpdefDel (f : LE) (s : State) : Out := issueW s 0xB7 8 f.g (grpdefBody true f) State.tryGrpdef
/-- CLSTAT (R356). -/
def execClstat (f : LE) (s : State) : Out := issue s 0xB8 8 f.g (clstatBody f)

/-! Links and ports. -/

/-- The die-to-die link goes down (R343): what is in flight on it, and what needs it later, faults; the event is logged. -/
def State.dropLink (s : State) : State :=
  if s.d2dUp && decide (16 ≤ s.crcFails) then ({ s with d2dUp := false }).logEvent 0 8 0 0 else s

/-- FLIT_CRC_RESEND (R343): a resent flit changes no result; the sixteenth failure in a row takes the link down. -/
def State.resendFlit (s : State) (good : Bool) : State :=
  if !s.d2dUp then s
  else if good then { s with crcFails := 0 }
  else ({ s with crcFails := s.crcFails + 1 }).dropLink

/-- The die of a port: 0 to 15 UALink, 16 to 19 Ultra Ethernet (R344, R347). -/
def portDie (p : Nat) : Nat := if p < 16 then p / 8 else (p - 16) / 2

/-- Sets the lanes a port trained to and logs the event where they are fewer than four (R344, R479). -/
def State.setPort (s : State) (p lanes : Nat) : State :=
  let s1 := if p < 16 then { s with ualLanes := mput s.ualLanes p lanes }
    else if p < 20 then { s with ueLanes := mput s.ueLanes (p - 16) lanes } else s
  if p < 20 ∧ lanes < 4 then s1.logEvent (portDie p) 9 (BitVec.ofNat 64 p) (BitVec.ofNat 64 lanes) else s1

/-- FLIT_CRC_RESEND (R343). -/
def execFlitCrcResend (good : Bool) (s : State) : Out := .next (s.resendFlit good)
/-- LINK_DOWN (R343). -/
def execLinkDown (s : State) : Out := .next s.dropLink
/-- PORT_DOWN (R346). -/
def execPortDown (p : Nat) (s : State) : Out := .next (s.setPort p 0)
/-- PORT_TRAINING (R344): to 4, 2 or 1 lanes. -/
def execPortTraining (p lanes : Nat) (s : State) : Out :=
  .next (if lanes = 4 ∨ lanes = 2 ∨ lanes = 1 then s.setPort p lanes else s)

end Sys2Proof.Machine
end

