-- ==== Sys2Proof/Machine/Chains.lean ====
section
/-!
DEFINITION. The tile transfer engines' own steps: chain entries and shape records (R161 to R169), beats (R186), completion
(R163), joins (R178), metadata fill (R185), engine faults (R187).
-/

namespace Sys2Proof.Machine

/-! Chain faults and reads. -/

/-- The number that a chain's requests carry as their requester. -/
def chainEngine (h : Nat) : Nat := 262144 + h

/-- The engine causes of R454. -/
def ceBADKIND : Nat := 0x81
def ceBADSHAPE : Nat := 0x82
def ceGRID : Nat := 0x83
def ceBADCHAIN : Nat := 0x84

def State.modChain (s : State) (h : Nat) (f : Chain → Chain) : State := { s with chains := mmod s.chains h f }

/-- An engine fault (R187): the chain stops and its context's halt line rises. -/
def State.chainFault (s : State) (h : Nat) (f : FaultRec) : State :=
  match mget s.chains h with
  | none => s
  | some ch => (s.modChain h (fun c => { c with stopped := some f })).raiseLine ch.ctx (Cause.none.add causeFault f.xlc) none

/-- An engine fault's record. -/
def chainRec (xlc cls : Nat) (va ent : Dword) (lvl : Nat) : FaultRec :=
  { xlc := xlc, pc := 0, va := va, fent := ent, aclass := cls, level := lvl, flane := 0 }

def State.chainCause (s : State) (h cause : Nat) (va : Dword) : State := s.chainFault h (chainRec cause 8 va 0 0)

/-- The address that a chain's record gives (R187): the line of a poisoned or frozen byte, else the address itself. -/
def recVa (xlc : Nat) (va : Dword) : Dword := if xlc = 10 ∨ xlc = 11 then va - BitVec.ofNat 64 (va.toNat % 128) else va

/-- Who reads for a chain. -/
def Chain.reader (ch : Chain) (h : Nat) : Reader :=
  { die := h / 256, unit := 320 + h / 16, ctx := ch.ctx, who := chainEngine h, num := 0 }

/-- Reads for a chain's current entry; what was read stays in its buffer. -/
def State.chainRead (s : State) (h : Nat) (ch : Chain) (va : Dword) (n : Nat) (so : Option Nat := none) :
    State × Option (List Byte × Bool) :=
  let r := s.bufRead (ch.reader h) .txeRead ((((mget s.chains h).map (·.buf)).getD [])) va n so
  let s1 := r.s.modChain h (fun c => { c with buf := r.buf })
  match r.got with
  | .data bs p => (s1, some (bs, p))
  | .wait => (s1, none)
  | .fail x v => (s1.chainFault h (chainRec x.xlc (x.cls 7) v x.ent x.level), none)

/-- Whether a chain's engine works: its context runs and it has not stopped (R187, R188). -/
def State.chainRuns (s : State) (ch : Chain) : Bool := s.ctxRuns ch.ctx && ch.stopped.isNone

/-! Shape records (R164 to R167). -/

/-- Bytes of an element type (R165). -/
def etBytes (e : Nat) : Nat :=
  match e with
  | 0 | 8 | 9 | 10 | 11 => 1
  | 1 | 4 | 5 => 2
  | 3 => 8
  | _ => 4

def etMx (e : Nat) : Bool := e == 10 || e == 11

/-- A shape record's fields (R164). -/
def shapeOf (bs : List Byte) : ShapeRec :=
  let d1 := recDw bs 1
  let nd := bits d1 8 3
  { base := recDw bs 0, repmask := bits d1 32 4, group := bits d1 24 8, rop := bits d1 20 4, gdim := bits d1 16 4, ndim := nd,
    etype := bits d1 0 8, dims := (List.range (min nd 5)).map (fun i => (bits (recDw bs (2 + i)) 0 32,
      signed 32 (bits (recDw bs (2 + i)) 32 32))), scale := recDw bs 6, coord := recDw bs 7 }

/-- Elements of a tile. -/
def ShapeRec.count (r : ShapeRec) : Nat := r.dims.foldl (fun n d => n * d.1) 1

/-- The offset of element k (R166). -/
def dimOff (dims : List (Nat × Int)) (k : Nat) : Int :=
  match dims with
  | [] => 0
  | d :: r => (k % d.1 : Nat) * d.2 + dimOff r (k / d.1)

/-- COORD of grid dimension g. -/
def ShapeRec.coordAt (r : ShapeRec) (g : Nat) : Nat := bits r.coord (16 * g) 16

/-- A record's own form (R164 to R166). DESIGN CHOICE: a BASE whose bits 63:57, which must be zero, are not is BADSHAPE; no rule names
the cause. Log entry 133. -/
def ShapeRec.formOk (r : ShapeRec) : Bool :=
  decide (r.etype < 12 ∧ 1 ≤ r.ndim ∧ r.ndim ≤ (if etMx r.etype then 4 else 5)) && r.dims.all (fun d => d.1 != 0) &&
  (r.dims.head?.map (·.2)) == some (etBytes r.etype : Int) && (!etMx r.etype || ((r.dims.head?.map (·.1)).getD 0) % 32 == 0) &&
  decide (r.base.toNat < 2 ^ 57)

/-- The grid fields (R167): the group where GDIM is above 0. -/
def ShapeRec.gridOk (r : ShapeRec) (dst : Bool) (g : Option Group) : Bool :=
  if r.gdim = 0 then r.repmask == 0
  else
    match g with
    | none => false
    | some g =>
      decide (r.gdim ≤ g.ngd) && (List.range r.gdim).all (fun i => decide (r.coordAt i < g.exts.getD i 0)) &&
      (r.repmask == 0 || (dst && decide (r.repmask < 2 ^ r.gdim)))

/-- A rank's coordinate along a dimension. -/
def Group.coord (g : Group) (rank i : Nat) : Nat := rank / (g.exts.take i).foldl (· * ·) 1 % g.exts.getD i 1

/-- The ranks a record names (R167), ascending; rank 0 of no group where GDIM is 0. -/
def ShapeRec.ranks (r : ShapeRec) (g : Option Group) : List Nat :=
  if r.gdim = 0 then [0]
  else
    match g with
    | none => []
    | some g => (List.range g.size).filter (fun k => (List.range g.ngd).all (fun i =>
        if r.gdim ≤ i then g.coord k i == 0 else r.repmask.testBit i || g.coord k i == r.coordAt i))

/-- The displacement of a rank's tile (R167). -/
def ShapeRec.shift (r : ShapeRec) (g : Option Group) (rank : Nat) : Dword :=
  if r.gdim = 0 then 0
  else match g with | some g => BitVec.ofNat 64 rank * g.rstride | none => 0

/-- The address of element k of a rank's tile. -/
def ShapeRec.addr (r : ShapeRec) (sh : Dword) (k : Nat) : Dword := r.base + sh + BitVec.ofInt 64 (dimOff r.dims k)

/-- Whether no element is misaligned (R166). -/
def ShapeRec.alignedAt (r : ShapeRec) (sh : Dword) : Bool :=
  let n := etBytes r.etype
  (r.base + sh).toNat % n == 0 && r.dims.all (fun d => d.1 == 1 || d.2 % (n : Int) == 0)

/-- The group of a record. -/
def State.groupFor (s : State) (ctx : Nat) (r : ShapeRec) : Option Group := if r.gdim = 0 then none else s.group ctx r.group

/-- ROP and ETYPE pairs without COLL and with it (R168). -/
def ropOk (coll : Bool) (rop et : Nat) : Bool :=
  match rop with
  | 0 => !coll
  | 1 => et == 4 || et == 6 || et == 7 || (coll && etMx et)
  | 2 | 3 => et == 6
  | _ => false

/-- One record's checks: none, or an engine cause (R166, R167). DESIGN CHOICE: ROP, which is for destinations only, is ignored in a
source record, whatever it holds (R164). Log entry 133. -/
def State.shapeCheck (s : State) (ctx : Nat) (r : ShapeRec) (dst : Bool) : Option Nat :=
  let g := s.groupFor ctx r
  if !r.formOk then some ceBADSHAPE
  else if !r.gridOk dst g then some ceGRID
  else if !(r.ranks g).all (fun k => r.alignedAt (r.shift g k)) then some ceBADSHAPE
  else none

/-! Entries begin (R161, R162, R176). -/

/-- An entry's header (R161). -/
def entryOf (bs : List Byte) : Entry :=
  let d := recDw bs 0
  { kind := bits d 0 8, token := bits d 48 16, tclu := bits d 43 5, bbsig := d.getLsbD 10, bbaddr := recDw bs 7,
    coll := d.getLsbD 11, dws := (List.range 8).map (recDw bs), src := none, dst := none, ranks := [], prog := [],
    done := false, count := 0, phase := 1 }

/-- The entry that R160 makes of an unpublished slot. -/
def nopEntry : Entry := { (entryOf []) with token := 0xFFFF, done := true }

/-- R162's and R329's checks of a header. -/
def State.entryOk (s : State) (h : Nat) (e : Entry) : Bool :=
  decide (e.kind ≤ 5) && !(e.bbsig && e.bbaddr.toNat % 16 != 0) && !(e.kind == 5 && !e.bbsig) &&
  !(e.kind == 5 && decide (2 ^ 48 ≤ (e.dws.getD 1 0).toNat)) && !(e.coll && e.kind != 1) &&
  (e.token == 0xFFFF || (decide (e.token < 0x1000) && s.clusterUp (32 * (h / 256) + e.tclu)))

/-- The sequence number of the entry a chain performs next. -/
def Chain.next (ch : Chain) : Word := ch.compseq + 1

/-- Makes an entry the current one. One that a resume reads again goes on at the step of its completion that it had reached
(R163, R188). -/
def State.setEntry (s : State) (h : Nat) (e : Entry) : State :=
  s.modChain h (fun c => { c with cur := some (if 1 < c.backPhase then { e with phase := c.backPhase } else e) })

/-- Reads a shape record of an entry: the record or nothing yet (R162: 64-byte aligned). DESIGN CHOICE: an address that is not
64-byte aligned is BADSHAPE (log entry 113), and a poisoned record stops the chain with XLC 10, class 7 (log entry 114). -/
def State.readShape (s : State) (h : Nat) (ch : Chain) (va : Dword) (dst : Bool) : State × Option ShapeRec :=
  if va.toNat % 64 ≠ 0 then (s.chainCause h ceBADSHAPE va, none)
  else
    match s.chainRead h ch va 64 with
    | (s1, some (bs, p)) =>
      if p then (s1.chainFault h (chainRec 10 7 va 0 0), none)
      else
        match s1.shapeCheck ch.ctx (shapeOf bs) dst with
        | some c => (s1.chainCause h c va, none)
        | none => (s1, some (shapeOf bs))
    | (s1, none) => (s1, none)

/-- Begins a FILL (R162) or a COPY that is no collective contribution (R166 to R168). -/
def State.beginTile (s : State) (h : Nat) (ch : Chain) (e : Entry) (src : Option ShapeRec) (dst : ShapeRec) (dva : Dword) : State :=
  let g := s.groupFor ch.ctx dst
  let ranks := dst.ranks g
  let same := match src with | some r => r.etype == dst.etype && r.count == dst.count | none => true
  if !same || (src.isSome && decide (2 ^ 32 < dst.count * etBytes dst.etype)) || !ropOk false dst.rop dst.etype then s.chainCause h ceBADSHAPE dva
  else
    s.setEntry h { e with src := src, dst := some dst, ranks := ranks, prog := if ch.back.length = ranks.length then ch.back else ranks.map (fun _ => 0)
                          count := dst.count * etBytes dst.etype * ranks.length }

/-- R357's conditions on a contribution: none, or an engine cause. -/
def collCheck (h : Nat) (src dst : ShapeRec) (g : Option Group) : Option Nat :=
  match g with
  | none => some ceGRID
  | some g =>
    if dst.gdim = 0 ∨ !ropOk true dst.rop dst.etype ∨ src.gdim ≠ 0 ∨ g.rank.isNone ∨ g.map.any mapSo then some ceGRID
    else if src.etype ≠ dst.etype ∨ src.count ≠ dst.count ∨ 2 ^ 32 < dst.count * etBytes dst.etype then some ceBADSHAPE
    else if g.chain ≠ h then some ceBADCHAIN
    else none

/-- The header of a contribution (R358). -/
def collHdr (g : Group) (step : Word) (d : ShapeRec) : CollHdr :=
  { gsig := g.gsig, step := step, etype := d.etype, rop := d.rop, count := d.count, base := d.base, group := d.group,
    gdim := d.gdim, repmask := d.repmask, coord := d.coord }

/-- A fresh share of a step. -/
def Coll.fresh (ctx group : Nat) (step : Word) : Coll :=
  { ctx := ctx, group := group, step := step, hdr := none, shape := none, fly := [], own := [], copies := [], parts := [],
    passed := [], mute := none, late := [], lapsed := [], result := [], waits := [], dmiss := [], record := none }

/-- This device's share of a step, and its place. -/
def State.coll (s : State) (ctx group : Nat) (step : Word) : Option Coll :=
  s.colls.find? (fun c => c.ctx == ctx && c.group == group && c.step == step)

/-- Changes a step's share, made where it is not there. -/
def State.modColl (s : State) (ctx group : Nat) (step : Word) (f : Coll → Coll) : State :=
  let hit := fun (c : Coll) => c.ctx == ctx && c.group == group && c.step == step
  if s.colls.any hit then { s with colls := s.colls.map (fun c => if hit c then f c else c) }
  else { s with colls := s.colls ++ [f (Coll.fresh ctx group step)] }

/-- Begins a collective contribution (R357, R358): it is the next step of its group. One whose record was written before a halt goes
on with its completion (R188). -/
def State.beginColl (s : State) (h : Nat) (ch : Chain) (e : Entry) (src dst : ShapeRec) (dva : Dword) : State :=
  let g := s.groupFor ch.ctx dst
  match collCheck h src dst g, g with
  | some c, _ => s.chainCause h c dva
  | none, none => s
  | none, some g =>
    let step := ch.step.getD (g.steps + 1)
    let s1 := s.setGroup ch.ctx dst.group (some { g with steps := step })
    let s2 := s1.modChain h (fun c => { c with step := some step })
    let ended := ((s2.coll ch.ctx dst.group step).bind (·.record)).isSome
    let go := { e with src := some src, dst := some dst, ranks := dst.ranks (some g) }
    if 1 ≤ ch.backPhase ∧ ch.backPhase < 7 then s2.setEntry h { go with phase := 1, done := true, count := ch.backCount }
    else
    let s3 := s2.modColl ch.ctx dst.group step (fun c => { c with hdr := some (collHdr g step dst), shape := some dst })
    s3.setEntry h { go with phase := 0, done := ended }

/-- Begins an entry of a kind where one is due (R176): it reads the header and the records it names. DESIGN CHOICE: a poisoned
entry stops the chain with XLC 10, class 7. Log entry 114. -/
def State.beginEntry (s : State) (h kind : Nat) : State :=
  match mget s.chains h with
  | none => s
  | some ch =>
    if !s.chainRuns ch || ch.cur.isSome || !ch.ready.contains ch.next.toNat then s
    else if ch.nops.contains ch.next.toNat then (if kind = 0 then s.setEntry h nopEntry else s)
    else
      match s.chainRead h ch (ch.slot ch.next) 64 with
      | (s1, none) => s1
      | (s1, some (bs, p)) =>
        let e := entryOf bs
        if p then s1.chainFault h (chainRec 10 7 (ch.slot ch.next) 0 0)
        else if !s1.entryOk h e then s1.chainCause h ceBADKIND (ch.slot ch.next)
        else if e.kind ≠ kind then s1
        else
          match kind with
          | 0 => s1.setEntry h { e with done := true }
          | 1 =>
            match s1.readShape h ch (e.dws.getD 1 0) false with
            | (s2, none) => s2
            | (s2, some src) =>
              match s2.readShape h ch (e.dws.getD 2 0) true with
              | (s3, none) => s3
              | (s3, some dst) =>
                if e.coll then s3.beginColl h ch e src dst (e.dws.getD 2 0) else s3.beginTile h ch e (some src) dst (e.dws.getD 2 0)
          | 2 =>
            match s1.readShape h ch (e.dws.getD 1 0) true with
            | (s2, none) => s2
            | (s2, some dst) => s2.beginTile h ch e none dst (e.dws.getD 1 0)
          | 5 => s1.setEntry h { e with done := true, count := (e.dws.getD 1 0).toNat }
          | _ => s1.setEntry h e

/-! Beats (R166, R168, R186). -/

/-- A unit of a beat's writes: a destination address, the address that its bytes came from, the bytes, whether they are marked,
and whether it is one element that combines (R168). -/
structure WUnit where
  va     : Dword
  src    : Dword
  bytes  : List (Option Byte)
  poison : Bool
  rop    : Bool
deriving DecidableEq, Repr

/-- The elements of a beat of one rank (R186): from element k on, those that follow one another in one aligned 256-byte block
of the destination; fuel bounds them. -/
def beatElems (d : ShapeRec) (sh : Dword) (n fuel k : Nat) : List Nat :=
  match fuel with
  | 0 => []
  | f + 1 =>
    if n ≤ k then []
    else
      k :: (if k + 1 < n ∧ (d.addr sh (k + 1)).toNat / 256 = (d.addr sh k).toNat / 256 then beatElems d sh n f (k + 1) else [])

/-- Puts bytes at an address into the units of sectors. -/
def unitPut (us : List WUnit) (va : Dword) (bs : List Byte) (p : Bool) : List WUnit :=
  let sec : Dword := va - BitVec.ofNat 64 (va.toNat % 32)
  let off := va.toNat % 32
  let put := fun (old : List (Option Byte)) => old.zipIdx.map (fun e =>
    if off ≤ e.2 ∧ e.2 < off + bs.length then some (bs.getD (e.2 - off) 0) else e.1)
  if us.any (fun u => u.va == sec) then
    us.map (fun u => if u.va == sec then { u with bytes := put u.bytes, poison := u.poison || p } else u)
  else us ++ [{ va := sec, src := 0, bytes := put (List.replicate 32 none), poison := p, rop := false }]

/-- The rank whose next element is the lowest: its index and that element (R351). -/
def nextRank (prog : List Nat) (n : Nat) : Option (Nat × Nat) :=
  (prog.zipIdx.filter (fun e => decide (e.1 < n))).foldl (fun best e =>
    match best with
    | none => some (e.2, e.1)
    | some b => if e.1 < b.2 then some (e.2, e.1) else some b) none

/-- Reads the source bytes of elements: the device, and each element's bytes and mark, or nothing yet. Elements that follow
one another in one sector are read together: a mark belongs to a sector (R91). -/
def State.readElems (s : State) (h : Nat) (ch : Chain) (r : ShapeRec) (sh : Dword) (so : Option Nat) (ks : List Nat) :
    State × Option (List (List Byte × Bool)) :=
  let n := etBytes r.etype
  let runs := ks.foldl (fun (rs : List (Dword × Nat)) k =>
    let a := r.addr sh k
    match rs with
    | (b, m) :: t => if a = b + BitVec.ofNat 64 m ∧ a.toNat / 32 = b.toNat / 32 then (b, m + n) :: t else (a, n) :: rs
    | [] => [(a, n)]) []
  let got := runs.reverse.foldl (fun (g : State × List (Option (List Byte × Bool)) × Nat) q =>
    let o := g.1.chainRead h ch q.1 q.2 so
    (o.1, g.2.1 ++ [o.2], g.2.2)) (s, [], 0)
  if got.2.1.all (·.isSome) then
    let all := (got.2.1.map (fun o =>
      match o with
      | some (bs, p) => (List.range (bs.length / n)).map (fun i => ((bs.drop (n * i)).take n, p))
      | none => [])).flatten
    (got.1, some all)
  else (got.1, none)

/-- The units of a beat: elements, and for an MX tile that moves whole blocks their scales (R165). -/
def beatUnits (d : ShapeRec) (sh : Dword) (from_ : Nat → Dword) (es : List (Nat × List Byte × Bool))
    (scales : List (Nat × List Byte × Bool)) : List WUnit :=
  let el := if d.rop ≠ 0 then
      es.map (fun e => ({ va := d.addr sh e.1, src := from_ e.1, bytes := e.2.1.map some, poison := e.2.2, rop := true } : WUnit))
    else es.foldl (fun us e => unitPut us (d.addr sh e.1) e.2.1 e.2.2) []
  el ++ scales.foldl (fun us e => unitPut us (d.scale + sh + BitVec.ofNat 64 (e.1 / 32)) e.2.1 e.2.2) []

/-- The scale bytes that go with a run of elements. -/
def State.readScales (s : State) (h : Nat) (ch : Chain) (r : ShapeRec) (sh : Dword) (so : Option Nat) (ks : List Nat) :
    State × Option (List (Nat × List Byte × Bool)) :=
  (ks.filter (fun k => k % 32 == 0)).foldl (fun (g : State × Option (List (Nat × List Byte × Bool))) k =>
    let o := g.1.chainRead h ch (r.scale + sh + BitVec.ofNat 64 (k / 32)) 1 so
    match g.2, o.2 with
    | some l, some (bs, p) => (o.1, some (l ++ [(k, bs, p)]))
    | _, _ => (o.1, none)) (s, some [])

/-- The atomic code and width that combines an element (R146, R168). -/
def ropAtom (rop et : Nat) : BitVec 4 × BitVec 3 :=
  match rop, et with
  | 1, 4 => (10, 2)
  | 1, 6 => (10, 4)
  | 1, _ => (0, 4)
  | 2, _ => (13, 4)
  | _, _ => (12, 4)

/-- Performs one unit: it is acknowledged at once at a local home, or asked of a peer, an endpoint or the host. -/
def State.performUnit (s : State) (h : Nat) (ch : Chain) (d : ShapeRec) (i : Nat) (u : WUnit) (t : Xlate) : State :=
  let line : Dword := u.va - BitVec.ofNat 64 (u.va.toNat % 128)
  let bad := fun (s : State) xlc => s.chainFault h (chainRec xlc 8 line t.leaf t.level)
  let marked := fun (s : State) => s.chainFault h (chainRec 10 7 (recVa 10 u.src) 0 0)
  let ack := fun (s : State) => s.modChain h (fun c => { c with acked := c.acked ++ [i] })
  let op := ropAtom d.rop d.etype
  let n := u.bytes.length
  let x : Dword := BitVec.ofNat 64 (leNat (u.bytes.map (·.getD 0)))
  match t.tgt with
  | .hbm pa =>
    if !s.reach (h / 256) pa then bad s 17
    else if u.rop then
      if u.poison then marked s
      else
        match s.homeAtom op.1.toNat op.2.toNat [{ lane := 0, owner := t.owner, pa := pa, n := n, x := x, y := 0 }] with
        | .error e => bad s e
        | .ok (s1, _) => ack s1
    else
      match s.homeStore t.owner (maskedCells pa u.bytes) u.poison with
      | .error e => bad s e
      | .ok s1 => ack s1
  | .peer dev pa =>
    if !s.peerPath dev then bad s 17
    else if u.rop && u.poison then marked s
    else
      let q := s.askPeer (engTag (chainEngine h) ch.ctx line t.leaf t.level) i 0 dev pa t.owner (if u.rop then .atom op.1 op.2 0 [(x, 0)] else .write u.bytes u.poison)
      q.1.modChain h (fun c => { c with ids := c.ids ++ [(q.2, i)] })
  | .host off =>
    (byteRuns u.bytes).foldl (fun (s : State) b =>
      let q := s.askHost (engTag (chainEngine h) ch.ctx line t.leaf t.level) i 0 (off + b.1) b.2.length true b.2
      q.1.modChain h (fun c => { c with ids := c.ids ++ [(q.2, i)] })) s
  | .gaz _ => ack s

/-- Ends a beat whose units have all been acknowledged (R186). -/
def Chain.endBeat (ch : Chain) (j k : Nat) : Chain :=
  match ch.cur with
  | none => ch
  | some e =>
    let first := e.prog.getD j 0
    let prog := e.prog.set j k
    let n := (e.dst.map (·.count)).getD 0
    { ch with
      cur := some { e with prog := prog, done := prog.all (fun p => decide (n ≤ p)) }
      buf := if prog.contains first then ch.buf else []
      acked := [], units := [], beats := ch.beats + 1 }

/-- Whether a rank of a record is a scale-out endpoint (R347, R353): its tile has no page here, and its beats go out by the
transport of the Ultra Ethernet ports. -/
def soRank (g : Option Group) (gdim rank : Nat) : Option Nat :=
  if gdim = 0 then none else g.bind (fun g => (g.map[rank]?).bind (fun e => if mapSo e then some (mapNode e) else none))

/-- Translates a unit's address (R186, R83), or names its endpoint: endpoint i is device 1,024 + i of the model's requests. -/
def State.unitXlate (s : State) (h : Nat) (ch : Chain) (so : Option Nat) (acc : Acc) (va : Dword) : State × Except XFail Xlate :=
  match so with
  | some i => (s, .ok { tgt := .peer (1024 + i) va.toNat, owner := 0, leaf := 0, level := 0 })
  | none => s.translate (320 + h / 16) ch.ctx va acc

/-- The rank that a source record names, its displacement and its endpoint (R167, R347). -/
def State.srcShift (s : State) (ch : Chain) (r : ShapeRec) : Dword :=
  let g := s.groupFor ch.ctx r
  r.shift g ((r.ranks g).headD 0)
def State.srcSo (s : State) (ch : Chain) (r : ShapeRec) : Option Nat :=
  let g := s.groupFor ch.ctx r
  soRank g r.gdim ((r.ranks g).headD 0)

/-- Ends the beat that a chain performs where its homes have acknowledged all of it (R186), after a halt too (R188). -/
def State.beatDone (s : State) (h : Nat) : State :=
  match mget s.chains h with
  | none => s
  | some c =>
    match c.cur.bind (fun e => e.dst.map (fun d => (e, d))) with
    | none => s
    | some (e, d) =>
      match nextRank e.prog d.count with
      | none => s
      | some (j, k0) =>
        let sh := d.shift (s.groupFor c.ctx d) (e.ranks.getD j 0)
        if !c.units.isEmpty && c.ids.isEmpty && (List.range c.units.length).all (fun i => c.acked.contains i) then
          s.modChain h (fun c => c.endBeat j (k0 + (beatElems d sh d.count (d.count - k0) k0).length))
        else s

/-- One beat of a COPY or FILL (R186): the source bytes, then every page that the beat has still to write, then the writes; what has
been written or sent is not translated again. DESIGN CHOICE: a destination address that fails is recorded as the base of the 32-byte
sector its bytes lie in, or of the element that combines (R187). Log entry 134. -/
def State.tileBeat (s : State) (h : Nat) (ch : Chain) (e : Entry) (d : ShapeRec) : State :=
  match nextRank e.prog d.count with
  | none => s.setEntry h { e with done := true }
  | some (j, k0) =>
    let g := s.groupFor ch.ctx d
    let rank := e.ranks.getD j 0
    let sh := d.shift g rank
    let ks := beatElems d sh d.count (d.count - k0) k0
    let src : State × Option (List (List Byte × Bool)) := match e.src with
      | none => (s, some (ks.map (fun _ => (leBytes (etBytes d.etype) (e.dws.getD 2 0).toNat, false))))
      | some r => s.readElems h ch r (s.srcShift ch r) (s.srcSo ch r) ks
    let sc : State × Option (List (Nat × List Byte × Bool)) := match e.src with
      | some r =>
        if etMx d.etype ∧ d.rop = 0 then src.1.readScales h ch r (s.srcShift ch r) (s.srcSo ch r) ks
        else (src.1, some [])
      | none => (src.1, some [])
    match src.2, sc.2 with
    | some els, some scs =>
      let from_ := fun k => match e.src with | some r => r.addr (s.srcShift ch r) k | none => 0
      let us := beatUnits d sh from_ (ks.zip els) scs
      let so := soRank g d.gdim rank
      let acc := if d.rop = 0 then Acc.txeWrite else .txeReduce
      let due := us.zipIdx.filter (fun u => !ch.acked.contains u.2 && !ch.ids.any (fun r => r.2 == u.2))
      let tr := due.foldl (fun (r : State × List Xlate × Option FaultRec) u =>
        match r.2.2 with
        | some _ => r
        | none =>
          match r.1.unitXlate h ch so acc u.1.va with
          | (s1, .error x) => (s1, r.2.1, some (chainRec x.xlc (x.cls 8) u.1.va x.ent x.level))
          | (s1, .ok t) => (s1, r.2.1 ++ [t], none)) (sc.1, [], none)
      match tr.2.2 with
      | some f => tr.1.chainFault h f
      | none =>
        let s2 := (due.zip tr.2.1).foldl (fun (s : State) q =>
          if ((mget s.chains h).map (fun c => c.stopped.isSome)).getD true then s else s.performUnit h ch d q.1.2 q.1.1 q.2)
          (tr.1.modChain h (fun c => { c with units := us.map (·.va) }))
        s2.beatDone h
    | _, _ => sc.1

/-- Elements in a beat of a contribution (R359). -/
def collPer (et : Nat) : Nat := 256 / etBytes et

/-- One beat of a collective contribution (R359, R360): read at the home now, sent to the reduction point and to the buddy; a
buddy that no port reaches is LINKERR (R346). DESIGN CHOICE: its record is a TXE write's, at the beat's first source address, with the
leaf that maps it (R350). Log entry 136. -/
def State.collBeat (s : State) (h : Nat) (ch : Chain) (e : Entry) (src dst : ShapeRec) : State :=
  match s.groupFor ch.ctx dst, ch.step with
  | some g, some step =>
    let ended := ((s.coll ch.ctx dst.group step).bind (·.record)).isSome
    let lo := ch.beats * collPer dst.etype
    if ended || decide (dst.count ≤ lo) then s.setEntry h { e with done := true }
    else
      let ks := (List.range (min (collPer dst.etype) (dst.count - lo))).map (fun i => lo + i)
      let els := s.readElems h ch src 0 none ks
      let scs := if etMx dst.etype then els.1.readScales h ch src 0 none ks else (els.1, some [])
      match els.2, scs.2 with
      | some es, some sc =>
        let marked := ((ks.zip es).filter (fun e => e.2.2)).map (fun e => src.addr 0 e.1) ++
          (sc.filter (fun x => x.2.2)).map (fun x => src.scale + BitVec.ofNat 64 (x.1 / 32))
        if !marked.isEmpty then scs.1.chainFault h (chainRec 10 7 (recVa 10 (marked.headD 0)) 0 0)
        else
          let rank := g.rank.getD 0
          let b : CollBeat :=
            { ctx := ch.ctx, group := dst.group, hdr := collHdr g step dst, rank := rank, beat := ch.beats,
              bytes := (es.map (·.1)).flatten, scales := (sc.map (fun x => x.2.1)).flatten, raises := sc.map (fun _ => 0),
              nrank := 1, silent := [], late := [], novf := 0 }
          let buddy := mapNode (g.map.getD ((rank + 1) % g.size) 0)
          if decide (1 < g.size) && !scs.1.peerPath buddy then
            let x := scs.1.poisonFail (ch.reader h) .txeRead (src.addr 0 lo)
            scs.1.chainFault h (chainRec 17 8 (src.addr 0 lo) x.ent x.level)
          else
          let s1 := scs.1.modColl ch.ctx dst.group step (fun c => { c with fly := c.fly ++ [b] })
          let s2 := if g.size ≤ 1 then s1 else s1.send (.copyBeat buddy b)
          s2.modChain h (fun c => { c with beats := c.beats + 1, buf := [], cur := c.cur.map (fun e =>
            { e with done := decide (dst.count ≤ lo + collPer dst.etype) }) })
      | _, _ => scs.1
  | _, _ => s

/-- TXE_BEAT: one beat of the current entry (R157, R186). -/
def State.txeBeat (s : State) (h : Nat) : State :=
  match mget s.chains h with
  | none => s
  | some ch =>
    match ch.cur with
    | none => s
    | some e =>
      if !s.chainRuns ch || e.done then s
      else
        match e.kind, e.src, e.dst with
        | 1, some src, some dst => if e.coll then s.collBeat h ch e src dst else s.tileBeat h ch e dst
        | 2, _, some dst => s.tileBeat h ch e dst
        | _, _, _ => s

/-! Joins and metadata (R178, R185). -/

/-- QFENCE_ENTRY (R178). -/
def State.joinEntry (s : State) (h : Nat) : State :=
  let s1 := s.beginEntry h 3
  match mget s1.chains h with
  | none => s1
  | some ch =>
    match ch.cur with
    | none => s1
    | some e =>
      if !s1.chainRuns ch || e.kind ≠ 3 || e.done then s1
      else
        let pairs := ((e.dws.drop 1).take 4).filter (fun p => p.getLsbD 31 && bits p 0 9 != h)
        let bound := fun (p : Dword) => ((mget s1.chains (bits p 0 9)).map (fun c => c.ctx == ch.ctx)).getD false
        if pairs.any (fun p => bits p 0 9 / 256 != h / 256 || !bound p) then s1.chainCause h ceBADCHAIN (ch.slot ch.next)
        else if pairs.all (fun p => ((mget s1.chains (bits p 0 9)).map (fun c =>
            seqGe c.compseq (BitVec.ofNat 32 (bits p 32 32)))).getD false) then
          s1.setEntry h { e with done := true }
        else s1

/-- MQFILL_ENTRY (R185): one metadata entry, where the queue has room. DESIGN CHOICE: a source address that is not 64-byte
aligned is read as it stands, marked bytes are delivered without their mark, and the cluster need not be available. Log entry
112. -/
def State.mqfillEntry (s : State) (h : Nat) : State :=
  let s1 := s.beginEntry h 4
  match mget s1.chains h with
  | none => s1
  | some ch =>
    match ch.cur with
    | none => s1
    | some e =>
      if !s1.chainRuns ch || e.kind ≠ 4 || e.done then s1
      else
        let d2 := e.dws.getD 2 0
        let key := clKey ch.ctx (32 * (h / 256) + bits d2 16 5)
        let q := bits d2 22 2
        if bits d2 0 16 ≤ ch.mqGot then s1.setEntry h { e with done := true }
        else if 32 ≤ (mgetD (s1.clus key).mq q []).length then s1
        else
          match s1.chainRead h ch (e.dws.getD 1 0 + BitVec.ofNat 64 (64 * ch.mqGot)) 64 with
          | (s2, none) => s2
          | (s2, some (bs, _)) =>
            let s3 := s2.modClus key (fun k =>
              let n := mgetD k.mqIn q 0
              { k with mq := mput k.mq q (mput (mgetD k.mq q []) n bs), mqIn := mput k.mqIn q (n + 1) })
            s3.modChain h (fun c => { c with mqGot := c.mqGot + 1, buf := [], cur := c.cur.map (fun e =>
              { e with done := decide (bits d2 0 16 ≤ c.mqGot + 1) }) })

/-! Completion (R163, R363). -/

/-- The unit number that the requests of a completion carry. -/
def doneUnit : Nat := 1000000

def State.setPhase (s : State) (h n : Nat) : State :=
  s.modChain h (fun c => { c with cur := c.cur.map (fun e => { e with phase := n }) })

/-- The record of a collective step has been written by the member's engine (R363): CSTEP rises. -/
def State.recordDone (s : State) (h : Nat) (ch : Chain) (e : Entry) (d : ShapeRec) (g : Group) (step : Word) (r : List Dword) : State :=
  let status := bits (r.getD 0 0) 24 8
  let n := if status = 1 ∨ status = 2 then 0 else bits (r.getD 4 0) 0 48 * (e.ranks.length - bits (r.getD 3 0) 48 16)
  let s1 := s.setGroup ch.ctx d.group (some { g with cstep := g.cstep + 1 })
  let s2 : State := { s1 with colls := s1.colls.filter (fun c => !(c.ctx == ch.ctx && c.group == d.group && c.step == step)) }
  s2.modChain h (fun c => { c with cur := some { e with count := n, phase := 1, done := true } })

/-- The record of a collective step is written by the member's engine (R363); one that leaves the device is done when it has
been acknowledged. -/
def State.writeRecord (s : State) (h : Nat) (ch : Chain) (e : Entry) (d : ShapeRec) (g : Group) (step : Word) (r : List Dword) : State :=
  let va := g.crbase + BitVec.ofNat 64 (64 * (step.toNat % 64))
  let bs := entryBytes r
  match s.translate (320 + h / 16) ch.ctx va .txeWrite with
  | (s1, .error x) => s1.chainFault h (chainRec x.xlc (x.cls 8) va x.ent x.level)
  | (s1, .ok t) =>
    let bad := fun (s : State) xlc => s.chainFault h (chainRec xlc 8 (recVa xlc va) t.leaf t.level)
    let tag := engTag (chainEngine h) ch.ctx va t.leaf t.level
    let ask := fun (s : State) (ids : List Nat) =>
      s.modChain h (fun c => { c with ids := c.ids ++ ids.map (fun i => (i, doneUnit)), cur := c.cur.map (fun e => { e with phase := 7 }) })
    match t.tgt with
    | .hbm pa =>
      if !s1.reach (h / 256) pa then bad s1 17
      else
        match s1.homeStore t.owner (maskedCells pa (bs.map some)) false with
        | .error x => bad s1 x
        | .ok s2 => s2.recordDone h ch e d g step r
    | .peer dev pa =>
      if !s1.peerPath dev then bad s1 17
      else
        let q := s1.askPeer tag doneUnit 0 dev pa t.owner (.write (bs.map some) false)
        ask q.1 [q.2]
    | .host off =>
      let q := (List.range 4).foldl (fun (r : State × List Nat) i =>
        let o := r.1.askHost tag doneUnit 0 (off + 16 * i) 16 true ((bs.drop (16 * i)).take 16)
        (o.1, r.2 ++ [o.2])) (s1, [])
      ask q.1 q.2
    | .gaz _ => s1.recordDone h ch e d g step r

/-- The arrival of an entry on its barrier (R163, step 2). -/
def State.chainArrive (s : State) (h : Nat) (ch : Chain) (e : Entry) : State :=
  match s.translate (320 + h / 16) ch.ctx e.bbaddr .txeReduce with
  | (s1, .error x) => s1.chainFault h (chainRec x.xlc (x.cls 8) e.bbaddr x.ent x.level)
  | (s1, .ok t) =>
    match t.tgt with
    | .hbm pa =>
      if !s1.reach (h / 256) pa then s1.chainFault h (chainRec 17 8 e.bbaddr t.leaf t.level)
      else
        match s1.homeArrive t.owner pa e.count with
        | .error x => s1.chainFault h (chainRec x 8 (recVa x e.bbaddr) t.leaf t.level)
        | .ok s2 => s2.setPhase h 3
    | .peer dev pa =>
      if !s1.peerPath dev then s1.chainFault h (chainRec 17 8 e.bbaddr t.leaf t.level)
      else
        let q := s1.askPeer (engTag (chainEngine h) ch.ctx e.bbaddr t.leaf t.level) doneUnit 0 dev pa t.owner (.arrive e.count)
        q.1.modChain h (fun c => { c with ids := c.ids ++ [(q.2, doneUnit)], cur := c.cur.map (fun e => { e with phase := 2 }) })
    | _ => s1

/-- X entries whose submission published nothing newer fall, and the chain goes on (R163, step 5; R176). -/
def State.chainNext (s : State) (h : Nat) (ch : Chain) : State :=
  let n := ch.compseq
  let fall := ch.xops.filter (fun x => seqGe n x.2.2)
  let s1 := fall.foldl (fun (s : State) x => s.lowerOp x.1 cX x.2.1) s
  s1.modChain h (fun c => { c with
    xops := c.xops.filter (fun x => !seqGe n x.2.2), cur := none, buf := [], ids := [], acked := [], units := [], beats := 0, mqGot := 0,
    back := [], backPhase := 0, step := none, ready := c.ready.filter (fun k => k != n.toNat), nops := c.nops.filter (fun k => k != n.toNat) })

/-- COMPSEQ rises, and is written to SEQADDR (R163, step 4); one that has risen is only written again. -/
def State.chainSeq (s : State) (h : Nat) (ch : Chain) (risen : Bool) : State :=
  let one : Word := if risen then 0 else 1
  let up := fun (s : State) => s.modChain h (fun c => { c with compseq := c.compseq + one })
  let go := fun (s : State) => match mget s.chains h with | some c => s.chainNext h c | none => s
  if ch.seqaddr = 0 then go (up s)
  else
    let bs := leBytes 4 (ch.compseq + one).toNat
    match s.translate (320 + h / 16) ch.ctx ch.seqaddr .txeWrite with
    | (s1, .error x) => s1.chainFault h (chainRec x.xlc (x.cls 8) ch.seqaddr x.ent x.level)
    | (s1, .ok t) =>
      let ask := fun (q : State × Nat) =>
        (up q.1).modChain h (fun c => { c with ids := c.ids ++ [(q.2, doneUnit)], cur := c.cur.map (fun e => { e with phase := 5 }) })
      match t.tgt with
      | .hbm pa =>
        if !s1.reach (h / 256) pa then s1.chainFault h (chainRec 17 8 ch.seqaddr t.leaf t.level)
        else
          match s1.homeStore t.owner (maskedCells pa (bs.map some)) false with
          | .error x => s1.chainFault h (chainRec x 8 (recVa x ch.seqaddr) t.leaf t.level)
          | .ok s2 => go (up s2)
      | .peer dev pa =>
        if !s1.peerPath dev then s1.chainFault h (chainRec 17 8 ch.seqaddr t.leaf t.level)
        else ask (s1.askPeer (engTag (chainEngine h) ch.ctx ch.seqaddr t.leaf t.level) doneUnit 0 dev pa t.owner (.write (bs.map some) false))
      | .host off => ask (s1.askHost (engTag (chainEngine h) ch.ctx ch.seqaddr t.leaf t.level) doneUnit 0 off 4 true bs)
      | .gaz _ => go (up s1)

/-- One step of an entry's completion (R163). -/
def State.completeStep (s : State) (h : Nat) : State :=
  match mget s.chains h with
  | none => s
  | some ch =>
    match ch.cur with
    | none => s
    | some e =>
      if !s.chainRuns ch || !e.done || !ch.ids.isEmpty then s
      else
        match e.phase with
        | 0 =>
          match e.dst, ch.step with
          | some d, some step =>
            match s.groupFor ch.ctx d, (s.coll ch.ctx d.group step).bind (·.record) with
            | some g, some r => s.writeRecord h ch e d g step r
            | _, _ => s
          | _, _ => s
        | 1 => if e.bbsig then s.chainArrive h ch e else s.setPhase h 3
        | 2 => s.setPhase h 3
        | 3 => (s.postToken (clKey ch.ctx (32 * (h / 256) + e.tclu)) e.token).setPhase h 4
        | 4 => s.chainSeq h ch false
        | 6 => s.chainSeq h ch true
        | 7 =>
          match e.dst, ch.step with
          | some d, some step =>
            match s.groupFor ch.ctx d, (s.coll ch.ctx d.group step).bind (·.record) with
            | some g, some r => s.recordDone h ch e d g step r
            | _, _ => s
          | _, _ => s
        | _ => s.chainNext h ch

/-- ENTRY_COMPLETE (R163): the steps of one completion, as far as they go now. -/
def State.completeEntry (s : State) (h : Nat) : State :=
  match mget s.chains h with
  | none => s
  | some ch =>
    let n := ch.compseq
    (List.range 6).foldl (fun (s : State) _ =>
      if ((mget s.chains h).map (fun c => c.compseq == n || c.cur.isSome)).getD false then s.completeStep h else s) s

/-! The engine events. -/

/-- NOP_ENTRY (R162). -/
def execNopEntry (h : Nat) (s : State) : Out := .next (s.beginEntry h 0)
/-- COPY_ENTRY (R166). -/
def execCopyEntry (h : Nat) (s : State) : Out := .next (s.beginEntry h 1)
/-- FILL_ENTRY (R162): its elements go out beat by beat. -/
def execFillEntry (h : Nat) (s : State) : Out := .next ((s.beginEntry h 2).txeBeat h)
/-- QFENCE_ENTRY (R178). -/
def execQfenceEntry (h : Nat) (s : State) : Out := .next (s.joinEntry h)
/-- MQFILL_ENTRY (R185). -/
def execMqfillEntry (h : Nat) (s : State) : Out := .next (s.mqfillEntry h)
/-- BBARR_ENTRY (R162). -/
def execBbarrEntry (h : Nat) (s : State) : Out := .next (s.beginEntry h 5)
/-- TXE_BEAT (R186). -/
def execTxeBeat (h : Nat) (s : State) : Out := .next (s.txeBeat h)
/-- ENTRY_COMPLETE (R163). -/
def execEntryComplete (h : Nat) (s : State) : Out := .next (s.completeEntry h)

/-- The access class of an engine's request (R452): a read or a write. -/
def PeerReq.engCls (r : PeerReq) : Nat := match r.what with | .read _ => 7 | _ => 8

/-- SCALE_OUT_ABANDON (R347): the transport gives up a beat's transfer to an endpoint. -/
def execScaleOutAbandon (h : Nat) (s : State) : Out :=
  .next (match s.peerReqs.find? (fun r => r.crew == chainEngine h && decide (1024 ≤ r.dev)) with
    | some r =>
      let s1 : State := { s with peerReqs := s.peerReqs.filter (fun q => q.id != r.id) }
      (s1.modChain h (fun c => { c with ids := c.ids.filter (fun i => i.1 != r.id) })).chainFault h
        (chainRec 17 r.engCls r.tag.va r.tag.leaf r.tag.level)
    | none => s)

end Sys2Proof.Machine
end

