-- ==== Sys2Proof/Machine/Collect.lean ====
section
/-!
DEFINITION. Collective steps at a member's reduction point (R357 to R365): the combination of beats (R70, R71), buddies and
silence (R360, R361), the result's writes (R362), notices and records (R363).
-/

namespace Sys2Proof.Machine

/-! The combination. -/

/-- The number that a collective's requests carry as the requester. -/
def collWho : Nat := 524288

/-- The element format of a floating-point type (R165). -/
def etFmt (et : Nat) : Fmt :=
  match et with
  | 4 => bf16
  | 6 => f32
  | 10 => e4m3
  | _ => e5m2

/-- comb of R359 on two elements of a type that has no blocks. -/
def combElem (rop et a b : Nat) : Nat :=
  match rop with
  | 1 => if et = 7 then (a + b) % 2 ^ 32 else ((etFmt et).addC 0 a b).1
  | 2 => (f32.minmC true a b).1
  | _ => (f32.minmC false a b).1

/-- A value times a power of two, exactly. -/
def Fv.scaleBy (v : Fv) (e : Int) : Fv :=
  match v with
  | .fin n m x => .fin n m (x + e)
  | v => v

/-- An element of a block with its scale (R56): a NaN scale makes every element NaN. -/
def mxValue (f : Fmt) (code scale : Nat) : Fv := if scale = 255 then .nan false else (f.value code).scaleBy ((scale : Int) - 127)

/-- Whether a value, divided by a scale, passes the largest finite value of a format after rounding (R71). -/
def mxOver (f : Fmt) (t : Fv) (scale : Nat) : Bool :=
  match t with
  | .fin n m e =>
    if m = 0 then false
    else
      let x := e - ((scale : Int) - 127)
      let ev := (m.log2 : Int) + x
      let q := max ev (1 - (f.bias : Int)) - f.m
      let r := roundAt 0 n m x q false
      decide (f.big < (q + f.m + f.bias).toNat * 2 ^ f.m + r.1 - 2 ^ f.m)
  | _ => false

/-- One block of R71: the partial's codes and scale, the contribution's; the codes, the scale, the raise, and the elements made
NaN for want of a larger scale. -/
def mxBlock (f : Fmt) (p : List Nat) (ps : Nat) (x : List Nat) (xs : Nat) : List Nat × Nat × Nat × Nat :=
  let ts := (p.zip x).map (fun e => ((mxValue f e.1 ps).add 0 (mxValue f e.2 xs)).1)
  let top := if ps < 0xFE then 0xFE - ps else 0
  let k := ((List.range (top + 1)).find? (fun k => !ts.any (fun t => mxOver f t (ps + k)))).getD top
  let s := ps + k
  let out := ts.map (fun t =>
    if mxOver f t s then (f.nan, 1) else ((f.ofFv 0 false (t.scaleBy (127 - (s : Int)))).1, 0))
  (out.map (·.1), s, k, (out.map (·.2)).foldl (· + ·) 0)

/-- The elements of a beat as codes. -/
def beatCodes (et : Nat) (bs : List Byte) : List Nat :=
  let n := etBytes et
  (List.range (bs.length / n)).map (fun i => leNat ((bs.drop (n * i)).take n))

/-- Codes as bytes. -/
def codeBytes (et : Nat) (cs : List Nat) : List Byte := (cs.map (fun c => leBytes (etBytes et) c)).flatten

/-- Combines a contribution of the next rank into a partial (R359, R70, R71). -/
def combineBeat (p x : CollBeat) : CollBeat :=
  let et := p.hdr.etype
  let a := beatCodes et p.bytes
  let b := beatCodes et x.bytes
  let q : CollBeat :=
    if etMx et then
      let r := (List.range p.scales.length).map (fun i =>
        mxBlock (etFmt et) ((a.drop (32 * i)).take 32) (p.scales.getD i 0).toNat ((b.drop (32 * i)).take 32) (x.scales.getD i 0).toNat)
      { p with bytes := codeBytes et ((r.map (·.1)).flatten)
               scales := r.map (fun e => BitVec.ofNat 8 e.2.1)
               raises := (r.zip p.raises).map (fun e => e.1.2.2.1 + e.2)
               novf := p.novf + (r.map (fun e => e.2.2.2)).foldl (· + ·) 0 }
    else { p with bytes := codeBytes et ((a.zip b).map (fun e => combElem p.hdr.rop et e.1 e.2)) }
  { q with rank := x.rank, nrank := p.nrank + 1 }

/-! What a reduction point does with a partial (R359, R361). -/

/-- What becomes of a partial: it waits, goes on combined, is the result, goes to the buddy of this silent rank, or ends the
step with MISMATCH. -/
inductive CollAct where
  | wait
  | pass (p : CollBeat)
  | finish (p : CollBeat)
  | move (p : CollBeat)
  | mismatch (p : CollBeat)
deriving DecidableEq, Repr

/-- Adds a rank to a set of ranks. -/
def putRank (l : List Nat) (r : Nat) : List Nat := if l.contains r then l else l ++ [r]

/-- The rank before a rank, whose buddy it is (R360). -/
def rankBefore (n own : Nat) : Nat := (own + n - 1) % n

/-- Whether this device's rank is silent at a beat. -/
def Coll.muteAt (c : Coll) (beat : Nat) : Bool := match c.mute with | some b => decide (b ≤ beat) | none => false

/-- Whether a rank is known to be silent at a beat. -/
def Coll.silentAt (c : Coll) (rank beat : Nat) : Bool := c.lapsed.any (fun l => l.1 == rank && decide (l.2 ≤ beat))

/-- Hands a combined partial on: past the last rank it is the result. -/
def collOn (n own : Nat) (p : CollBeat) : CollAct := if own + 1 = n then .finish p else .pass p

/-- A partial of every rank below this device's meets its own beat. -/
def Coll.ownStep (c : Coll) (n own : Nat) (p : CollBeat) : CollAct :=
  if c.muteAt p.beat then .move { p with silent := putRank p.silent own, late := c.late.foldl putRank p.late }
  else
    match c.own.find? (fun b => b.beat == p.beat) with
    | none => .wait
    | some b => if b.hdr = p.hdr then collOn n own (combineBeat p b) else .mismatch p

/-- A partial whose next rank is the silent one this device is the buddy of meets the copy. -/
def Coll.buddyStep (c : Coll) (n own : Nat) (p : CollBeat) : CollAct :=
  let q := rankBefore n own
  match c.copies.find? (fun b => b.beat == p.beat && b.rank == q) with
  | none => .wait
  | some b =>
    if b.hdr ≠ p.hdr then .mismatch p
    else
      let r := { (combineBeat p b) with silent := putRank p.silent q }
      if q + 1 = n then .finish r else c.ownStep n own r

/-- What a device can do for a beat now. -/
def Coll.act (c : Coll) (n own beat : Nat) : CollAct :=
  let start := fun (b : CollBeat) => { b with raises := b.scales.map (fun _ => 0), nrank := 1, novf := 0 }
  if c.passed.any (fun p => p.beat == beat) || c.result.any (fun p => p.beat == beat) then .wait
  else
    match c.parts.find? (fun p => p.beat == beat) with
    | some p => if p.rank + 1 = own then c.ownStep n own p else if (p.rank + 1) % n = rankBefore n own then c.buddyStep n own p else .wait
    | none =>
      if own = 0 then
        match c.own.find? (fun b => b.beat == beat) with
        | some b => collOn n 0 (start b)
        | none => .wait
      else if own = 1 ∧ c.silentAt 0 beat then
        match c.copies.find? (fun b => b.beat == beat && b.rank == 0) with
        | some b => c.ownStep n 1 { (start b) with silent := [0] }
        | none => .wait
      else .wait

/-! Ends of steps (R362, R363). -/

/-- The beats of a step. -/
def collBeats (h : CollHdr) : Nat := (h.count + collPer h.etype - 1) / collPer h.etype

/-- Result elements that are the canonical NaN. -/
def beatNans (b : CollBeat) : Nat :=
  if b.hdr.etype = 7 then 0 else ((beatCodes b.hdr.etype b.bytes).filter (fun c => c == (etFmt b.hdr.etype).nan)).length

/-- The completion record (R363) of a step that ended with a status at a rank, from the beats it is known by; a step that leaves no
result has no result elements to count. -/
def collRecord (c : Coll) (status fail nrank : Nat) (bs : List CollBeat) : List Dword :=
  let silent := bs.foldl (fun l b => b.silent.foldl putRank l) []
  let late := c.late.foldl putRank (bs.foldl (fun l b => b.late.foldl putRank l) [])
  let first := silent.foldl (fun m r => min m r) 0xFFFF
  let raises := (bs.map (·.raises)).flatten
  let h := (bs.head?.map (·.hdr)).or c.hdr
  let bytes := if status = 1 ∨ status = 2 then 0 else (h.map (fun h => h.count * etBytes h.etype)).getD 0
  let nnan := if status = 1 ∨ status = 2 then 0 else min ((bs.map beatNans).foldl (· + ·) 0) 0xFFFFFFFF
  [BitVec.ofNat 64 (c.step.toNat * 2 ^ 32 + status * 2 ^ 24 + nrank % 2 ^ 16),
   BitVec.ofNat 64 (nnan * 2 ^ 32 + (raises.filter (fun r => r != 0)).length % 2 ^ 32),
   BitVec.ofNat 64 (fail * 2 ^ 48 + late.length % 2 ^ 16 * 2 ^ 32 + first * 2 ^ 16 + silent.length % 2 ^ 16),
   BitVec.ofNat 64 (c.dmiss.length % 2 ^ 16 * 2 ^ 48 + raises.foldl max 0 % 2 ^ 8 * 2 ^ 32 + (bs.map (·.novf)).foldl (· + ·) 0 % 2 ^ 32),
   BitVec.ofNat 64 (bytes % 2 ^ 48), 0, 0, 0]

/-- The device of a rank. -/
def Group.devOf (g : Group) (rank : Nat) : Nat := mapNode (g.map.getD (rank % g.size) 0)

/-- The share of a step that has not ended. -/
def State.openColl (s : State) (ctx group : Nat) (step : Word) : Option Coll := (s.coll ctx group step).filter (fun c => c.record.isNone)

/-- A member holds the record of a step that has ended (R363): what it held for the step goes, and its entry completes where
it has been performed. -/
def State.collNotice (s : State) (ctx group : Nat) (step : Word) (rec : List Dword) : State :=
  match s.group ctx group with
  | none =>
    if (mget s.ctxs ctx).isSome then s.modColl ctx group step (fun c => { c with record := c.record.or (some rec) }) else s
  | some g =>
    if seqGe g.cstep step then s
    else
      let s1 := s.modColl ctx group step (fun c =>
        { c with record := c.record.or (some rec), fly := [], own := [], copies := [], parts := [], passed := [], result := [],
                 waits := [] })
      (s1.txeBeat g.chain).completeEntry g.chain

/-- The step ends here: a notice goes to every member that a path reaches (R362). -/
def State.collEnd (s : State) (g : Group) (c : Coll) (rec : List Dword) : State :=
  let s1 := (List.range g.size).foldl (fun (s : State) r =>
    let dev := g.devOf r
    if dev = s.devnum || !s.peerPath dev then s else s.send (.notice dev { ctx := c.ctx, group := c.group, step := c.step, record := rec })) s
  s1.collNotice c.ctx c.group c.step rec

/-- The result is written and acknowledged: DONE, or UNDELIVERED where a destination was skipped (R362, R363). -/
def State.collSettle (s : State) (ctx group : Nat) (step : Word) : State :=
  match s.group ctx group, s.openColl ctx group step with
  | some g, some c =>
    if c.waits.isEmpty && !c.result.isEmpty then
      s.collEnd g c (collRecord c (if c.dmiss.isEmpty then 0 else 3) 0xFFFF ((c.result.map (·.nrank)).foldl max 0) c.result)
    else s
  | _, _ => s

/-- The units of a finished beat for one destination rank (R362): elements, and the scales of MX blocks. -/
def resultUnits (d : ShapeRec) (sh : Dword) (b : CollBeat) : List WUnit :=
  let n := etBytes d.etype
  let lo := b.beat * collPer d.etype
  let es := (List.range (b.bytes.length / n)).map (fun i => (lo + i, (b.bytes.drop (n * i)).take n, false))
  let scs := b.scales.zipIdx.map (fun e => (lo + 32 * e.2, [e.1], false))
  beatUnits { d with rop := 0 } sh (fun _ => 0) es scs

/-- A destination rank is skipped (R362). -/
def State.collMiss (s : State) (ctx group : Nat) (step : Word) (rank : Nat) : State :=
  s.modColl ctx group step (fun c =>
    { c with dmiss := putRank c.dmiss rank, waits := c.waits.filter (fun w => w.1 != rank) })

/-- Writes one unit of the result for a destination rank. -/
def State.collUnit (s : State) (g : Group) (c : Coll) (rank : Nat) (u : WUnit) : State :=
  let miss := fun (s : State) => s.collMiss c.ctx c.group c.step rank
  let sent := fun (q : State × Nat) => q.1.modColl c.ctx c.group c.step (fun c => { c with waits := c.waits ++ [(rank, q.2)] })
  if ((s.coll c.ctx c.group c.step).map (fun c => c.dmiss.contains rank)).getD true then s
  else
    match s.translate (320 + g.chain / 16) c.ctx u.va .txeWrite with
    | (s1, .error _) => miss s1
    | (s1, .ok t) =>
      match t.tgt with
      | .hbm pa =>
        if !s1.reach (g.chain / 256) pa then miss s1
        else
          match s1.homeStore t.owner (maskedCells pa u.bytes) false with
          | .error _ => miss s1
          | .ok s2 => s2
      | .peer dev pa => if s1.peerPath dev then sent (s1.askPeer (engTag collWho c.ctx u.va t.leaf t.level) 0 rank dev pa t.owner (.write u.bytes u.poison)) else miss s1
      | .host off =>
        (byteRuns u.bytes).foldl (fun (s : State) b => sent (s.askHost (engTag collWho c.ctx u.va t.leaf t.level) 0 rank (off + b.1) b.2.length true b.2)) s1
      | .gaz _ => s1

/-- The last combination is done: where every beat has its result, it is written to every destination rank (R362). -/
def State.collWrite (s : State) (g : Group) (c : Coll) : State :=
  match c.shape, c.result.head? with
  | some d, some b =>
    if c.result.length < collBeats b.hdr then s
    else
      let s1 := (d.ranks (some g)).foldl (fun (s : State) k =>
        ((c.result.map (resultUnits d (d.shift (some g) k))).flatten).foldl (fun (s : State) u => s.collUnit g c k u) s) s
      s1.collSettle c.ctx c.group c.step
  | _, _ => s

/-! Beats on their way. -/

/-- Sends a partial to a rank's device; one that comes back to this device is held here, and one that no port carries is not
accepted there (R346, R361). -/
def State.collSend (s : State) (g : Group) (rank : Nat) (p : CollBeat) : State :=
  let dev := g.devOf rank
  if dev = s.devnum then s.modColl p.ctx p.group p.hdr.step (fun c => { c with parts := c.parts ++ [p] })
  else if s.peerPath dev then s.send (.partialBeat dev p)
  else s

/-- Hands a partial to the next rank's device, or past a rank that is known to be silent to its buddy (R361). -/
def State.collForward (s : State) (g : Group) (c : Coll) (own : Nat) (p : CollBeat) : State :=
  if c.silentAt (own + 1) p.beat then s.collSend g (own + 2) { p with silent := putRank p.silent (own + 1) }
  else s.collSend g (own + 1) p

/-- Sends finished beats to the device that writes the step's result where the last rank has fallen silent after some of them: rank 0,
its buddy, completes the last combination (R361, R362). -/
def State.collHand (s : State) (g : Group) (bs : List CollBeat) : State := bs.foldl (fun (s : State) b => s.collSend g g.size b) s

/-- A device does what it can for a beat of a step (R359); fuel the partials that can come back to it. A result that rank 0 has in the
place of the last rank tells that rank's device that it is silent (R361). -/
def State.collGo (s : State) (ctx group : Nat) (step : Word) (beat fuel : Nat) : State :=
  match fuel with
  | 0 => s
  | n + 1 =>
    match s.group ctx group, s.openColl ctx group step with
    | some g, some c =>
      match g.rank with
      | none => s
      | some own =>
        let take := fun (s : State) => s.modColl ctx group step (fun c => { c with parts := c.parts.filter (fun p => p.beat != beat) })
        match c.act g.size own beat with
        | .wait => s
        | .pass p =>
          let back := c.silentAt (own + 1) beat && g.devOf (own + 2) == s.devnum
          let s1 := if back then take s else (take s).modColl ctx group step (fun c => { c with passed := c.passed ++ [p] })
          (s1.collForward g c own p).collGo ctx group step beat n
        | .finish p =>
          let s1 := (take s).modColl ctx group step (fun c => { c with result := c.result ++ [p] })
          let s2 := if own + 1 < g.size then s1.collSend g (g.size - 1) p else if c.mute.isSome then s1.collHand g [p] else s1
          s2.collWrite g { c with result := c.result ++ [p] }
        | .move p =>
          let s1 := (take s).modColl ctx group step (fun c => { c with passed := c.passed ++ [p] })
          let s2 := if own + 1 = g.size then s1.collHand g c.result else s1
          (s2.collSend g (own + 1) p).collGo ctx group step beat n
        | .mismatch p => s.collEnd g c (collRecord c 2 own ((p :: c.passed).foldl (fun m q => max m q.nrank) 0) (p :: c.passed))
    | _, _ => s

/-- Whether a beat belongs to a step of this device's group that has not ended; one for a group that a context here has yet
to define is offered until it does. -/
def State.collLive (s : State) (b : CollBeat) : Bool :=
  match s.group b.ctx b.group with
  | none => (mget s.ctxs b.ctx).isSome
  | some g => g.rank.isSome && !seqGe g.cstep b.hdr.step && ((s.coll b.ctx b.group b.hdr.step).bind (·.record)).isNone

/-- Bytes that a beat takes in a collective area: its elements, and a scale and a trailer for each block (R359). -/
def beatArea (b : CollBeat) : Nat := b.bytes.length + b.scales.length + b.raises.length

/-- Bytes of a group's collective area in use (R359, R360): own beats whose partials have not come, and buddies' copies. -/
def State.areaUsed (s : State) (ctx group : Nat) : Nat :=
  ((s.colls.filter (fun c => c.ctx == ctx && c.group == group)).map (fun c =>
    ((c.own.filter (fun b => !(c.passed ++ c.result).any (fun p => p.beat == b.beat))) ++ c.copies).map beatArea)).flatten.foldl (· + ·) 0

/-- Whether the collective area of a beat's group has a slot for it (R359, R341); a group that is yet to be defined has no area
that bounds what is offered. -/
def State.areaRoom (s : State) (b : CollBeat) : Bool :=
  match s.group b.ctx b.group with
  | some g => decide (s.areaUsed b.ctx b.group + beatArea b ≤ g.casize.toNat)
  | none => true

/-- A silent rank is known to be late once its partial has moved on (R361): the partial's marks follow it, and a device that
has passed it on lets them follow on. DESIGN CHOICE: they travel as the same partial beat, sent again. Log entry 116. -/
def State.lateOn (s : State) (b : CollBeat) (late : List Nat) : State :=
  match s.group b.ctx b.group, s.openColl b.ctx b.group b.hdr.step with
  | some g, some c =>
    let all := late.foldl putRank c.late
    if all.length = c.late.length then s
    else
      let s1 := s.modColl b.ctx b.group b.hdr.step (fun c => { c with late := all })
      match c.passed.find? (fun p => p.beat == b.beat) with
      | none => s1
      | some p =>
        let own := g.rank.getD 0
        let nxt := if c.silentAt (own + 1) p.beat then own + 2 else own + 1
        if g.devOf nxt = s.devnum then s1 else s1.collSend g nxt { p with late := all.foldl putRank p.late }
  | _, _ => s

/-- CONTRIBUTION_BEAT (R359, R361): an own beat reaches the reduction point; one of a silent rank is discarded and counts,
one that has to be held waits for room in the collective area. -/
def State.ownBeat (s : State) (b : CollBeat) : State :=
  match s.openColl b.ctx b.group b.hdr.step with
  | none => s
  | some c =>
    if !c.fly.contains b then s
    else if c.muteAt b.beat then
      (s.modColl b.ctx b.group b.hdr.step (fun c => { c with fly := c.fly.erase b })).lateOn b [b.rank]
    else if b.rank != 0 && !c.parts.any (fun p => p.beat == b.beat) && !s.areaRoom b then s
    else
      let s1 := s.modColl b.ctx b.group b.hdr.step (fun c => { c with fly := c.fly.erase b, own := c.own ++ [b] })
      s1.collGo b.ctx b.group b.hdr.step b.beat 3

/-- A finished beat reaches the other of the two devices that hold finished beats of a step: rank 0's, in whose place the last rank has
fallen silent, takes it as its own, and the last rank's learns from which beat it is silent and hands on what it has finished (R361,
R362). -/
def State.doneBeat (s : State) (own : Nat) (b : CollBeat) : State :=
  match s.group b.ctx b.group, s.openColl b.ctx b.group b.hdr.step with
  | some g, some c =>
    if own = 0 then
      if c.result.any (fun p => p.beat == b.beat) then s
      else
        (s.modColl b.ctx b.group b.hdr.step (fun c => { c with result := c.result ++ [b] })).collWrite g { c with result := c.result ++ [b] }
    else
      (s.modColl b.ctx b.group b.hdr.step (fun c => { c with mute := some (min (c.mute.getD b.beat) b.beat) })).collHand g c.result
  | _, _ => s

/-- PARTIAL_BEAT (R359, R361): a partial reaches this device. One that a silent rank 0 sends after all is discarded. One that comes to
rank 0 past a silent last rank takes the place of the partial that rank 0 sent out for that beat. -/
def State.partBeat (s : State) (b : CollBeat) : State :=
  if !s.collLive b then s
  else
    let own := ((s.group b.ctx b.group).bind (·.rank)).getD 0
    let n := ((s.group b.ctx b.group).map (·.size)).getD 0
    let around := fun (c : Coll) => own == 0 && b.rank + 2 == n && !(c.parts ++ c.result).any (fun p => p.beat == b.beat)
    if b.rank + 1 = n ∧ 1 < n then s.doneBeat own b
    else
    let c := (s.coll b.ctx b.group b.hdr.step).getD (Coll.fresh b.ctx b.group b.hdr.step)
    if own = 1 ∧ b.rank = 0 ∧ c.silentAt 0 b.beat then
      s.modColl b.ctx b.group b.hdr.step (fun c => { c with late := putRank c.late 0 })
    else
      if around c then
        (s.modColl b.ctx b.group b.hdr.step (fun c => { c with
          parts := c.parts ++ [b], passed := c.passed.filter (fun p => p.beat != b.beat) })).collGo b.ctx b.group b.hdr.step b.beat 3
      else if (c.parts ++ c.passed ++ c.result).any (fun p => p.beat == b.beat) then s.lateOn b b.late
      else
        (s.modColl b.ctx b.group b.hdr.step (fun c => { c with parts := c.parts ++ [b] })).collGo b.ctx b.group b.hdr.step b.beat 3

/-- BUDDY_COPY (R360): a copy that finds the collective area full waits for a slot (R359). -/
def State.copyBeat (s : State) (b : CollBeat) : State :=
  let held := ((s.coll b.ctx b.group b.hdr.step).map (fun c => c.copies.contains b)).getD false
  if !s.collLive b || (!held && !s.areaRoom b) then s
  else
    let s1 := s.modColl b.ctx b.group b.hdr.step (fun c => if held then c else { c with copies := c.copies ++ [b] })
    s1.collGo b.ctx b.group b.hdr.step b.beat 3

/-- The step of a group that has not ended and began first. -/
def State.firstColl (s : State) (ctx group : Nat) : Option Coll :=
  s.colls.find? (fun c => c.ctx == ctx && c.group == group && c.record.isNone)

/-- The step ends INCOMPLETE at a rank (R361): its record counts what this device knows of every beat (R363). -/
def State.collIncomplete (s : State) (g : Group) (c : Coll) (rank : Nat) (bs : List CollBeat) : State :=
  let all := bs ++ (c.passed ++ c.result).filter (fun p => !bs.any (fun q => q.beat == p.beat))
  s.collEnd g c (collRecord c 1 rank ((all.map (·.nrank)).foldl max 0) all)

/-- GROUP_TIMEOUT (R361): a rank's time for a beat has passed. -/
def State.groupLapse (s : State) (ctx group rank beat : Nat) : State :=
  match s.group ctx group, s.firstColl ctx group with
  | some g, some c =>
    match g.rank with
    | none => s
    | some own =>
      let n := g.size
      let here := c.parts.filter (fun p => p.beat == beat)
      let go := fun (s : State) (bs : List Nat) => bs.foldl (fun (s : State) b => s.collGo ctx group c.step b 3) s
      if n ≤ rank ∨ n < 2 then s
      else if rank = own then
        let copy := c.copies.any (fun b => b.beat == beat && b.rank == rankBefore n own)
        let offered := here.any (fun p => p.rank + 1 == own || copy) || (own == 1 && copy && c.silentAt 0 beat)
        let gone := c.passed.any (fun p => p.beat == beat)
        if offered && !gone && c.mute.isNone && !c.own.any (fun b => b.beat == beat) then
          go (s.modColl ctx group c.step (fun c => { c with mute := some beat })) ((beat :: c.parts.map (·.beat)).eraseDups)
        else s
      else if rank = (own + 1) % n ∧ c.passed.any (fun p => p.beat == beat) then
        if c.passed.any (fun p => p.beat == beat && p.rank != own) then
          s.collIncomplete g c own (c.passed.map (fun p => if p.beat = beat then { p with silent := p.silent.filter (fun r => r != own) } else p))
        else if c.lapsed.any (fun l => l.1 == rank) then
          s.collIncomplete g c rank (c.passed.map (fun p =>
            if c.silentAt rank p.beat && decide (p.beat < beat) then { p with silent := putRank p.silent rank } else p))
        else
          let later := c.passed.filter (fun p => decide (beat ≤ p.beat))
          let s1 := s.modColl ctx group c.step (fun c => { c with lapsed := c.lapsed ++ [(rank, beat)] })
          let s2 := later.foldl (fun (s : State) p => s.collSend g (rank + 1) { p with silent := putRank p.silent rank }) s1
          if g.devOf (rank + 1) = s.devnum then
            go (s2.modColl ctx group c.step (fun c => { c with passed := c.passed.filter (fun p => decide (p.beat < beat)) }))
              (later.map (·.beat))
          else s2
      else if rank = rankBefore n own then
        if own = 1 ∧ here.isEmpty ∧ !(c.passed ++ c.result).any (fun p => p.beat == beat) then
          if c.silentAt 0 beat then
            (if c.copies.any (fun b => b.beat == beat && b.rank == 0) then s else s.collIncomplete g c 0 [])
          else if c.own.any (fun b => b.beat == beat) || c.copies.any (fun b => b.beat == beat && b.rank == 0) then
            go (s.modColl ctx group c.step (fun c => { c with lapsed := c.lapsed ++ [(0, beat)] })) [beat]
          else s
        else if here.any (fun p => (p.rank + 1) % n == rank && p.rank + 1 != own) && !c.copies.any (fun b => b.beat == beat && b.rank == rank) then
          let done := c.passed.any (fun p => p.silent.contains rank)
          s.collIncomplete g c rank (if done then here else here.map (fun p => { p with silent := p.silent.filter (fun r => r != rank) }))
        else s
      else s
  | _, _ => s

/-- DEST_ACK_TIMEOUT (R362): a destination rank has not acknowledged. -/
def State.destLapse (s : State) (ctx group rank : Nat) : State :=
  match s.colls.find? (fun c => c.ctx == ctx && c.group == group && c.waits.any (fun w => w.1 == rank)) with
  | none => s
  | some c =>
    let gone := (c.waits.filter (fun w => w.1 == rank)).map (·.2)
    let s1 : State := { s with peerReqs := s.peerReqs.filter (fun r => !gone.contains r.id),
                               hostReqs := s.hostReqs.filter (fun r => !gone.contains r.id) }
    (s1.collMiss ctx group c.step rank).collSettle ctx group c.step

/-- A destination's answer to a result write (R362): acknowledged, or refused and skipped. -/
def State.collReply (s : State) (id status : Nat) : State :=
  match s.colls.find? (fun c => c.waits.any (fun w => w.2 == id)) with
  | none => s
  | some c =>
    let rank := ((c.waits.find? (fun w => w.2 == id)).map (·.1)).getD 0
    let s1 := s.modColl c.ctx c.group c.step (fun c => { c with waits := c.waits.filter (fun w => w.2 != id) })
    (if status = 0 then s1 else s1.collMiss c.ctx c.group c.step rank).collSettle c.ctx c.group c.step

/-! The meanings. -/

/-- CONTRIBUTION_BEAT (R359). -/
def execContributionBeat (b : CollBeat) (s : State) : Out := .next (s.ownBeat b)
/-- PARTIAL_BEAT (R359). -/
def execPartialBeat (b : CollBeat) (s : State) : Out := .next (s.partBeat b)
/-- BUDDY_COPY (R360). -/
def execBuddyCopy (b : CollBeat) (s : State) : Out := .next (s.copyBeat b)
/-- GROUP_TIMEOUT (R361). -/
def execGroupTimeout (ctx group rank beat : Nat) (s : State) : Out := .next (s.groupLapse ctx group rank beat)
/-- DEST_ACK_TIMEOUT (R362). -/
def execDestAckTimeout (ctx group rank : Nat) (s : State) : Out := .next (s.destLapse ctx group rank)
/-- COMPLETION_NOTICE (R363). -/
def execCompletionNotice (n : CollNotice) (s : State) : Out := .next (s.collNotice n.ctx n.group n.step n.record)

end Sys2Proof.Machine
end

