-- ==== Sys2Proof/Machine/Work.lean ====
section
/-!
DEFINITION. Team barriers (R373 to R378), tasks (R379 to R383), helpers (R384 to R391).
-/

namespace Sys2Proof

/-- The target of a branch of a 32-bit halfword offset (R23, R412). -/
def LB.target (f : LB) (pc : Dword) : Dword := pc + BitVec.ofInt 64 (2 * f.off.toInt)

end Sys2Proof

namespace Sys2Proof.Machine

/-! Acts that a release comes before (R375, R388). -/

/-- Whether what a release before an act of a crew waits for has come: its earlier entries have left and are acknowledged;
for a helper's join its loads have returned too (R197). -/
def Crew.drained (c : Crew) (act : RelAct) : Bool :=
  c.sq.isEmpty && c.unacked.isEmpty && c.rwOps.isEmpty && (match act with | .join _ => c.loads.isEmpty | _ => true)

/-- The word of a barrier of a team (R373). -/
def Team.bar (t : Team) (n : Nat) : Dword := mgetD t.bars n 0
def barMask (d : Dword) : Nat := bits d 32 32
def barGen (d : Dword) : Nat := bits d 16 16
def barCnt (d : Dword) : Nat := bits d 0 6
def barWord (mask gen cnt : Nat) : Dword := BitVec.ofNat 64 (mask * 2 ^ 32 + gen % 2 ^ 16 * 2 ^ 16 + cnt)

/-- Whether a generation is complete (R375): as many arrivals as it needs, or every live crew's. -/
def Team.barFull (t : Team) (d : Dword) : Bool :=
  if barCnt d = 0 then
    (List.range t.crews.length).all (fun p => t.exited.contains p || (barMask d).testBit p)
  else decide (barCnt d ≤ ((List.range 32).filter (fun p => (barMask d).testBit p)).length)

def State.modTeam (s : State) (t : Nat) (f : Team → Team) : State := { s with teams := mmod s.teams t f }

/-- The helper groups whose lanes a crew lends. -/
def State.groupsFrom (s : State) (donor : Nat) : List (Nat × Crew) :=
  s.crews.filter (fun e => (e.2.hgroup.map (·.donor)) == some donor)

/-- The crew's lanes that serve as helpers or are granted (R384, R386). -/
def State.lentLanes (s : State) (donor : Nat) : Lanes :=
  let run := ((s.groupsFrom donor).map (fun e => ((e.2.hgroup.map (·.lanes)).getD []).map (·.lane))).flatten
  let wait := (s.crews.map (fun e => (((e.2.recruit.map (·.waiting)).getD []).filter (fun w => w.1 == donor)).map (·.2))).flatten
  (run ++ wait).foldl (fun (m : Lanes) l => m ||| oneLane l) 0

/-- A donor's barrier has completed (R377, R389): its lanes leave at their next boundary, and those not begun leave now. -/
def State.releaseDonor (s : State) (donor : Nat) : State :=
  { s with crews := s.crews.map (fun e =>
      let c := e.2
      let h := c.hgroup.map (fun h => if h.donor = donor then { h with release := true } else h)
      let r := c.recruit.map (fun r => { r with waiting := r.waiting.filter (fun w => w.1 != donor) })
      (e.1, { c with hgroup := h, recruit := r })) }

/-- A barrier's generation completes where it can (R375). -/
def State.testBar (s : State) (team n : Nat) : State :=
  match mget s.teams team with
  | none => s
  | some t =>
    let d := t.bar n
    if barMask d = 0 || !t.barFull d then s
    else
      let s1 := s.modTeam team (fun t => { t with bars := mput t.bars n (barWord 0 (barGen d + 1) (barCnt d)) })
      let donors := t.crews.filter (fun i => match (mget s.crews i).bind Crew.waitOp with
        | some (.bar k don) => k == n && don
        | _ => false)
      donors.foldl (fun s i => s.releaseDonor i) s1

/-- A crew's exit tests the barriers that every live crew completes (R375). -/
def State.exitTeam (s : State) (team pos : Nat) : State :=
  let s1 := s.modTeam team (fun t => { t with exited := t.exited ++ [pos] })
  (List.range 16).foldl (fun s n =>
    match mget s.teams team with
    | some t => if barCnt (t.bar n) = 0 then s.testBar team n else s
    | none => s) s1

/-- The arrival of a crew on a barrier (R375): a trap, or the generation it arrived in. -/
def State.arriveBar (s : State) (c : Crew) (n count : Nat) : Except Trap (State × Nat) :=
  match mget s.teams c.team with
  | none => .ok (s, 0)
  | some t =>
    let d := t.bar n
    if (barMask d).testBit c.teampos then .error (Trap.illOpnd 8 4)
    else if barMask d ≠ 0 ∧ count ≠ barCnt d then .error (Trap.illOpnd 9 4)
    else
      let w := barWord (barMask d + 2 ^ c.teampos) (barGen d) (if barMask d = 0 then count else barCnt d)
      let s1 := s.modTeam c.team (fun t => { t with bars := mput t.bars n w })
      .ok (s1.testBar c.team n, barGen d)

/-- A crew at BAR or BARW looks at its barrier (R376, R377): it returns once the generation is over and its lanes are back. -/
def State.barReturn (s : State) (id : Nat) (c : Crew) (w : Wait) (n : Nat) (don : Bool) : State :=
  match mget s.teams c.team with
  | none => s
  | some t =>
    if barGen (t.bar n) = w.val.toNat % 2 ^ 16 || (don && s.lentLanes id != 0) then s
    else (s.wakeAcquire c 1).endWait id none

/-! Helper iterations (R386, R388). -/

/-- The registers a lane begins an iteration with (R386). -/
def iterDests (l num iter : Nat) (first : Bool) : List PDest :=
  let put := fun (n : Nat) (v : Word) => ({ dst := .reg n, lanes := oneLane l, sh := .u v, poison := 0 } : PDest)
  [put 240 (BitVec.ofNat 32 iter), put 241 (BitVec.ofNat 32 num)] ++
  (if first then (List.range 14).map (fun i => put (242 + i) 0) else [])

/-- The contributions of helper lanes end their iterations; each lane takes the next one or is released (R388). -/
def State.joinLanes (s : State) (id : Nat) (vals : List (Nat × Word)) : State :=
  match mget s.crews id with
  | none => s
  | some c =>
    match c.hgroup, c.running with
    | some h, some p =>
      match (mget s.crews h.recruiter).bind (·.recruit) with
      | none => s
      | some q =>
        let step := fun (r : Recruit × List HLane × List PDest × Lanes × Lanes) (v : Nat × Word) =>
          let q := r.1
          match r.2.1.find? (fun l => l.lane == v.1) with
          | none => r
          | some l =>
            let q1 := match l.iter with
              | some i => { q with contrib := mput q.contrib i v.2 }
              | none => q
            if q1.closed || h.release || decide (q1.n ≤ q1.next) then
              (q1, r.2.1.filter (fun x => x.lane != v.1), r.2.2.1, r.2.2.2.1, r.2.2.2.2 ||| oneLane v.1)
            else
              ({ q1 with next := q1.next + 1 },
               r.2.1.map (fun x => if x.lane = v.1 then { x with iter := some q1.next } else x),
               r.2.2.1 ++ iterDests v.1 l.num q1.next false, r.2.2.2.1 ||| oneLane v.1, r.2.2.2.2)
        let r := vals.foldl step (q, h.lanes, [], 0, 0)
        let stay := p.mask &&& ~~~(r.2.2.2.1 ||| r.2.2.2.2)
        let c1 : Crew := { c with wait := none, hgroup := some { h with lanes := r.2.1 } }
        let c2 := (c1.splitTo p [(q.body, r.2.2.2.1), (p.pc, stay)]).settle
        let c3 := (c2.forget r.2.2.2.2).switchFrom (some p)
        let s1 := (s.setCrew id c3).modCrew h.recruiter (fun d => { d with recruit := some r.1 })
        let s2 := s1.modCrew h.donor (fun d => d.putDests r.2.2.1)
        (s2.groupEnd id).spillFix id c.paths
    | _, _ => s

/-- The act that a release came before (R375, R388). -/
def State.relAct (s : State) (id : Nat) (c : Crew) (w : Wait) (act : RelAct) : State :=
  match act with
  | .bar n count don =>
    match s.arriveBar c n count with
    | .error t => s.waitTrap id t
    | .ok (s1, g) =>
      s1.modCrew id (fun d => { d with wait := some { w with kind := 4, val := BitVec.ofNat 32 g, op := .bar n don } })
  | .bara n count =>
    match s.arriveBar c n count with
    | .error t => s.waitTrap id t
    | .ok (s1, g) => s1.endWait id (some (BitVec.ofNat 32 g))
  | .join vals => s.joinLanes id vals

/-- A release before an act goes on (R98, R375): the crew's stores leave, at team scope of a core pair the L1 is written back,
and then the act. -/
def State.relStep (s : State) (id : Nat) : State :=
  match mget s.crews id with
  | none => s
  | some c =>
    match c.wait with
    | none => s
    | some w =>
      match w.op with
      | .release act sent msgs =>
        if !sent then
          if !c.drained act then s
          else if s.scopeWide c 1 then
            let s1 := s.writeBackWhere c.core (fun _ => true)
            s1.setWaitOp id (.release act true (s1.coreMsgs c.core))
          else s.relAct id c w act
        else if s.inFlight msgs then s
        else s.relAct id c w act
      | .bar n don => s.barReturn id c w n don
      | .barw n => s.barReturn id c w n false
      | _ => s

def State.tryBar (s : State) (id : Nat) : State := ((s.relStep id).relStep id).relStep id

/-! BAR, BARA, BARW (R374 to R377). -/

/-- The count operand of an arrival (R374): 0 for every live crew. -/
def barCount (f : LE) (x : Cx) : Iss Nat :=
  if f.sa == 0x110 then .ok 0
  else do
    let srcs := [{ f.srcA 1 with zero := false }]
    let r ← x.once.peek srcs
    if x.act = 0 then return 0
    else
      let n := ((nthOpd r 0).at x.lane).toNat
      needOpnd (decide (1 ≤ n ∧ n < 33)) 0 1
      x.once.deadReads srcs
      x.once.poisonCheck r.flatten
      return n

/-- BAR (R374 to R377): a wait point that issues; its arrival comes after its release. -/
def barBody (f : LE) (x : Cx) : Iss Rsl := do
  let n ← barCount f x
  let c0 := if f.sa == 0x110 then x.c else x.c.emptySrcs [f.srcA 1]
  if x.act = 0 then return { s := x.s, c := c0.waitPoint, adv := true }
  else
    let w := x.waitFor 0 f.md.toNat 0 0 0x110 1 (.release (.bar f.md.toNat n (f.fn.getLsbD 0)) false [])
    return { s := x.s, c := c0.waitAt w, adv := true }

/-- BARA (R374 to R376): no wait point; the crew is held until its release is done. -/
def baraBody (f : LE) (x : Cx) : Iss Rsl := do
  dstCheck x.c f.dst 1 true
  let n ← barCount f x
  let c0 := if f.sa == 0x110 then x.c else x.c.emptySrcs [f.srcA 1]
  if x.act = 0 then return { s := x.s, c := c0, adv := true }
  else
    let w := x.waitFor 0 f.md.toNat 0 0 f.dst 8 (.release (.bara f.md.toNat n) false [])
    return { s := x.s, c := c0.await w, adv := true }

/-- BARW (R374, R376). -/
def barwBody (f : LE) (x : Cx) : Iss Rsl := do
  let srcs := [f.srcA 1]
  let r ← x.once.fetch srcs
  let c0 := x.c.emptySrcs srcs
  if x.act = 0 then return { s := x.s, c := c0.waitPoint, adv := true }
  else
    let g := ((nthOpd r 0).at x.lane) &&& 0xFFFF
    return { s := x.s, c := c0.waitAt (x.waitFor 4 f.md.toNat g 0 0x110 1 (.barw f.md.toNat)), adv := true }

/-! Tasks (R379 to R383). -/

/-- The tasks of a context in a core's deque (R379). -/
def State.taskCount (s : State) (core ctx : Nat) : Nat := ((mgetD s.deques core []).filter (fun t => t.ctx == ctx)).length

/-- The records that a crew's queued SPAWNs will push. -/
def Crew.pendingTasks (c : Crew) : Nat :=
  c.sq.foldl (fun n e => match e.kind with | .spawn rs => n + rs.length | _ => n) 0

/-- Whether a SPAWN of n records has room (R380): in the deque, beside the records that queued SPAWNs of the core will
push, and in OUT. -/
def State.spawnRoom (s : State) (c : Crew) (n : Nat) : Bool :=
  let queued := s.crews.foldl (fun k e => if e.2.core = c.core ∧ e.2.ctx = c.ctx then k + e.2.pendingTasks else k) 0
  decide (s.taskCount c.core c.ctx + queued + n ≤ 256 ∧ c.out + c.pendingTasks + n ≤ 65535)

/-- A crew that waits for room for its records (R380). -/
def State.trySpawn (s : State) (id : Nat) : State :=
  match mget s.crews id with
  | none => s
  | some c =>
    match c.wait with
    | none => s
    | some w =>
      match w.op with
      | .spawn => if s.spawnRoom c w.val.toNat then s.endWait id none else s
      | _ => s

/-- SPAWN (R380). -/
def spawnBody (f : LB) (x : Cx) : Iss Rsl := do
  let src : Src := { d := f.dst, xc := 0, dead := false, k := 2, fld := 0, upper := false, zero := false }
  let y := if f.md.getLsbD 0 then x else x.once
  let r ← y.peek [src]
  x.counterRoom cS
  x.queueRoom
  if x.act = 0 then return x.idle x.c cS
  else
    y.deadReads [src]
    let lanes := laneList y.act
    if !x.s.spawnRoom x.c lanes.length then
      .error (.again (x.s.modCrew x.id (fun c =>
        c.waitAt (x.waitFor 8 0xE3 (BitVec.ofNat 32 lanes.length) 0 0x110 8 .spawn))))
    else
      y.poisonCheck r.flatten
      let recs := lanes.map (fun l => (f.target x.p.pc, pairAt (nthRun r 0) l))
      return { s := x.s, c := (x.c.raise cS x.op).enqueue x.op x.p.pc (.spawn recs) [] true 2, adv := true }

/-- A SPAWN at the head of the queue, released (R380): its records go onto the head of its core's deque. -/
def State.spawnHead (s : State) (id : Nat) (c : Crew) (e : SqEntry) (recs : List (Dword × Dword)) : State :=
  let ts := recs.map (fun r => ({ ctx := c.ctx, entry := r.1, arg := r.2, origin := c.core, parent := id } : Task))
  let s1 : State := { s with deques := mput s.deques c.core (ts.reverse ++ mgetD s.deques c.core []) }
  (s1.modCrew id (fun d => { d with out := d.out + recs.length })).leave id e.op cS []

/-- SYNCW (R383): a wait point; its acquire comes when OUT reads 0. -/
def syncwBody (x : Cx) : Iss Rsl := do
  if x.act = 0 then return { s := x.s, c := x.c.waitPoint, adv := true }
  else return { s := x.s, c := x.c.waitAt (x.waitFor 5 0 0 0 0x110 3 .syncw), adv := true }

/-- A crew at SYNCW looks at its OUT (R383); a SPAWN that has not left the queue counts, since SYNCW covers the crew's whole
tree of descendants. -/
def State.trySyncw (s : State) (id : Nat) : State :=
  match mget s.crews id with
  | none => s
  | some c =>
    match c.waitOp with
    | some .syncw =>
      if c.out ≠ 0 || c.sq.any (fun e => match e.kind with | .spawn _ => true | _ => false) then s
      else
        let r := acquireHold s c (s.scopeWide c 3)
        (r.1.setCrew id r.2).endWait id none
    | _ => s

/-! Helpers (R384 to R391). -/

/-- The lanes a crew may recruit, in the order of R384, each with its crew. -/
def State.eligible (s : State) (id : Nat) (c : Crew) : List (Nat × Nat) :=
  let inPath := c.paths.foldl (fun (m : Lanes) p => m ||| p.mask) 0
  let own := if c.nregs < 256 || s.onCollective c then 0 else c.live &&& ~~~inPath &&& ~~~(s.lentLanes id)
  let mates := match mget s.teams c.team with
    | none => []
    | some t => t.crews.filter (fun i => i != id)
  let give := fun (i : Nat) =>
    match mget s.crews i with
    | none => []
    | some d =>
      match d.waitOp with
      | some (.bar _ true) =>
        if d.core = c.core ∧ d.crewid / 32 = c.crewid / 32 ∧ 256 ≤ d.nregs ∧ !d.evicted ∧ !d.done ∧ !s.onCollective d then
          (laneList (d.live &&& ~~~(s.lentLanes i))).map (fun l => (i, l))
        else []
      | _ => []
  (laneList own).map (fun l => (id, l)) ++ (mates.map give).flatten

/-- RECRUIT (R385): the grant is made at issue; the helpers begin when its release is done. -/
def recruitBody (f : LB) (x : Cx) : Iss Rsl := do
  let oper := f.md.toNat % 8
  needInsn (decide (oper < 6))
  let src : Src := { d := f.dst, xc := 0, dead := false, k := 2, fld := 0, upper := false, zero := false }
  let r ← x.once.peek [src]
  needOpnd (decide (laneCount x.act ≤ 1)) 10 4
  if x.act = 0 then return { s := x.s, c := { x.c with hcount := 0 }, adv := true }
  else
    needOpnd x.c.recruit.isNone 11 4
    x.queueRoom
    x.once.deadReads [src]
    x.once.poisonCheck r.flatten
    let n := ((nthOpd r 0).at x.lane).toNat
    let want := min (((nthRun r 0).getD 1 ⟨.u 0, 0⟩).at x.lane).toNat 64
    let grant := (x.s.eligible x.id x.c).take want
    let none_ := grant.isEmpty || n == 0
    let q : Recruit :=
      { op := x.op, waiting := if none_ then [] else grant, lane := x.lane, oper := oper, n := n, next := 0, closed := none_,
        body := f.target x.p.pc, groups := [], contrib := [], errs := [], flags := 0, fpctl := x.c.fpctl }
    let c1 : Crew := { x.c with hcount := BitVec.ofNat 32 grant.length, recruit := some q }
    return { s := x.s, c := c1.enqueue x.op x.p.pc .recruit [] true 1, adv := true }

/-- The key of a new helper group of a donor's lanes. -/
def State.groupKey (s : State) (donor : Nat) : Nat :=
  if (mget s.crews (groupSlot donor)).isNone then groupSlot donor
  else
    let key := fun k => 2097152 + 65536 * k + donor
    key (((List.range 32).find? (fun k => (mget s.crews (key k)).isNone)).getD 0)

/-- A new helper group (R386): the donor's place, predicates cleared, FPCTL as the recruiter's stood at RECRUIT (R275), one path at
the body. -/
def helperCrew (d r : Crew) (donor recruiter : Nat) (body : Dword) (fpctl : Word) (lanes : List HLane) : Crew :=
  { d with
    surv := false, regs := [], preds := [], ix := [], latches := [], oc := [], xdist := 1, xsel := 0, fpctl := fpctl,
    fpflags := 0, hcount := 0, dre := r.dre, frames := [], lc := (0, 0, 0), cnts := [], cnts2 := [], sq := [], loads := [], pends := [],
    unacked := [], rwOps := [], hold := none, fence := none, wait := none, out := 0, parent := none, recruit := none,
    hgroup := some { donor := donor, recruiter := recruiter, lanes := lanes, release := false },
    paths := [newPath body (lanes.foldl (fun (m : Lanes) l => m ||| oneLane l.lane) 0) 0 true],
    active := true, loadSet := false, loadSlots := 0, loadHeld := none, evicted := false, kept := false, done := false, cause := Cause.none,
    frec := none, helperFault := none, accReads := [], fbuf := [] }

/-- RECRUIT's release is done (R385, R386): each lane granted takes the next iteration, one group for each crew. The start of the
helpers is an acquire at team scope (R193). -/
def State.recruitHead (s : State) (id : Nat) (c : Crew) (e : SqEntry) : State :=
  let s0 := s.modCrew id (fun d => { d with sq := d.sq.filter (fun x => x.op != e.op) })
  match c.recruit with
  | none => s0
  | some q =>
    if q.op ≠ e.op then s0
    else
      let go := (q.waiting.zipIdx).take (q.n - q.next)
      let donors := (go.map (fun g => g.1.1)).eraseDups
      let s1 := donors.foldl (fun (s : State) donor =>
        match mget s.crews donor with
        | none => s
        | some d =>
          let mine := (go.filter (fun g => g.1.1 == donor)).map (fun g =>
            ({ lane := g.1.2, num := g.2, iter := some (q.next + g.2) } : HLane))
          let ds := (mine.map (fun l => iterDests l.lane l.num (l.iter.getD 0) true)).flatten
          let key := s.groupKey donor
          let s2 := s.setCrew key { helperCrew d c donor id q.body q.fpctl mine with issuedAt := s.clk }
          (s2.modCrew donor (fun d => d.putDests ds)).modCrew id (fun r =>
            { r with recruit := r.recruit.map (fun q => { q with groups := q.groups ++ [key] }) }))
        (if go.isEmpty then s0 else s0.wakeAcquire c 1)
      s1.modCrew id (fun r => { r with recruit := r.recruit.map (fun q => { q with waiting := [], next := q.next + go.length }) })

/-- Closes the counter of a crew's recruitment (R388, R389); the lanes that RECRUIT granted still take their first iteration
once its release is done. -/
def Crew.closeCounter (c : Crew) : Crew := { c with recruit := c.recruit.map (fun q => { q with closed := true }) }

/-- HJOIN in the form a helper executes (R388). -/
def hjoinHelperBody (f : LE) (x : Cx) : Iss Rsl := do
  let srcs := [f.srcA 1]
  let r ← x.fetch srcs
  let c0 := x.c.emptySrcs srcs
  if x.act = 0 then return { s := x.s, c := c0, adv := true }
  else
    let vals := (laneList x.act).map (fun l => (l, (nthOpd r 0).at l))
    let w := x.waitFor 0 0 0 0 0x110 8 (.release (.join vals) false [])
    return { s := x.s, c := c0.await w, adv := true }

/-- HJOIN in the form a recruiter executes (R388): a wait point; the counter closes. -/
def hjoinBody (f : LE) (x : Cx) : Iss Rsl := do
  dstCheck x.c f.dst 2 false
  if x.act = 0 then return { s := x.s, c := x.c.waitPoint, adv := true }
  else
    let oper := (x.c.recruit.map (·.oper)).getD 0
    return { s := x.s, c := x.c.closeCounter.waitAt (x.waitFor 6 oper 0 0 f.dst 1 .hjoin), adv := true }

/-- HJOIN as its word decodes: who executes it decides its form (R388). -/
def hjoinAny (f : LE) (x : Cx) : Iss Rsl := if x.c.isHelper then hjoinHelperBody f x else hjoinBody f x

/-- The join operators (R385, R388): the identity, and one step. -/
def joinZero (oper : Nat) : Word :=
  match oper with
  | 2 => 0x80000000
  | 3 => 0xFF800000
  | 4 => 0x7F800000
  | _ => 0
def joinStep (oper : Nat) (u w : Word) : Word :=
  match oper with
  | 0 => 0
  | 1 => u + w
  | 2 => BitVec.ofNat 32 (f32.addC 0 u.toNat w.toNat).1
  | 3 => BitVec.ofNat 32 (f32.minmC true u.toNat w.toNat).1
  | 4 => BitVec.ofNat 32 (f32.minmC false u.toNat w.toNat).1
  | _ => u ||| w

/-- The helper error of the lowest iteration (R388, R390). -/
def firstErr (es : List HelpErr) : Option HelpErr :=
  es.foldl (fun best e =>
    match best with
    | none => some e
    | some b => if e.iter < b.iter then some e else some b) none

/-- Ends a wait point that writes several words to consecutive places, U-shaped. -/
def State.endWaitMany (s : State) (id : Nat) (vs : List Word) : State :=
  match s.viewCrew id with
  | none => s
  | some c =>
    match c.wait with
    | none => s
    | some w =>
      let ds := (vs.zipIdx.map (fun v => regDests c w.dst v.2 w.lanes (.u v.1) 0)).flatten
      (s.storeCrew id { (c.putDests ds) with wait := none, readyAt := s.clk }).refill c.core (c.crewid / 32) 8

/-- A recruiter at HJOIN looks at its helpers (R388, R390). -/
def State.tryHjoin (s : State) (id : Nat) : State :=
  match mget s.crews id with
  | none => s
  | some c =>
    match c.wait with
    | none => s
    | some w =>
      match w.op with
      | .hjoin =>
        if c.evicted then s
        else
          match c.recruit with
          | none => (s.wakeAcquire c 1).endWaitMany id [0, 0]
          | some q =>
            let busy := q.groups.any (fun g =>
              (((mget s.crews g).bind (·.hgroup)).map (fun h => h.lanes.any (fun l => l.iter.isSome))).getD false)
            if busy || !q.waiting.isEmpty then s
            else
              match firstErr q.errs with
              | some e =>
                let s1 := s.modCrew id (fun d => { d with recruit := some { q with errs := q.errs.erase e } })
                s1.waitTrap id { cls := 8, sub := e.cls, arg := e.sub, lmask := 0,
                                 aux0 := BitVec.ofNat 64 (e.iter % 2 ^ 32 * 2 ^ 32 + e.slot % 2 ^ 16 * 2 ^ 16 + e.lane % 2 ^ 8),
                                 aux1 := q.body, tm := none }
              | none =>
                let v := q.contrib.foldl (fun (u : Word) e => joinStep q.oper u e.2) (joinZero q.oper)
                let s1 := s.modCrew id (fun d => { d with recruit := none, fpflags := d.fpflags ||| q.flags.setWidth 32 })
                (s1.wakeAcquire c 1).endWaitMany id [v, BitVec.ofNat 32 q.next]
      | _ => s

/-- HREL (R389). -/
def hrelBody (x : Cx) : Iss Rsl :=
  .ok { s := x.s, c := if x.act = 0 then x.c else x.c.closeCounter, adv := true }

/-! The meanings. -/

/-- BAR (R374 to R377). -/
def execBar (f : LE) (s : State) : Out := issueW s 0xE0 8 f.g (barBody f) State.tryBar
/-- BARA (R374 to R376). -/
def execBara (f : LE) (s : State) : Out := issueW s 0xE1 8 f.g (baraBody f) State.tryBar
/-- BARW (R374, R376). -/
def execBarw (f : LE) (s : State) : Out := issueW s 0xE2 8 f.g (barwBody f) State.tryBar
/-- SPAWN (R380). -/
def execSpawn (f : LB) (s : State) : Out := issueW s 0xE3 8 f.g (spawnBody f) State.trySpawn
/-- SYNCW (R383). -/
def execSyncw (f : LE) (s : State) : Out := issueW s 0xE4 8 f.g syncwBody State.trySyncw
/-- RECRUIT (R385). -/
def execRecruit (f : LB) (s : State) : Out := issue s 0xE5 8 f.g (recruitBody f)
/-- HJOIN, recruiter form (R388, R390). -/
def execHjoin (f : LE) (s : State) : Out := issueW s 0xE6 8 f.g (hjoinAny f) (fun s id => (s.tryHjoin id).tryBar id)
/-- HJOIN, helper form (R388, R389). -/
def execHjoinHelper (f : LE) (s : State) : Out := issueW s 0xE6 8 f.g (hjoinAny f) (fun s id => (s.tryHjoin id).tryBar id)
/-- HREL (R389). -/
def execHrel (f : LE) (s : State) : Out := issue s 0xE7 8 f.g hrelBody

end Sys2Proof.Machine
end

