-- ==== Sys2Proof/Machine/Messages.lean ====
section
/-!
DEFINITION. Messages at their homes (R96, R100, R108, R147, R181): what each asks is performed in one step, or held with its
fault (R144); acknowledgements; evictions and recalls.
-/

namespace Sys2Proof.Machine

/-- The access that a message's fault names (R93, R144). -/
def Msg.acc? (m : Msg) : Option LaneAcc :=
  match m.kind with
  | .store as => as.head?
  | .atom _ _ _ as => as.head?
  | .arrive _ a => some a
  | .bbinit _ a => some a
  | .nodePush a _ => some a
  | .heapPush a _ _ => some a
  | _ => none

/-- The class of a message's access (R452). -/
def Msg.cls (m : Msg) : Nat :=
  match m.kind with
  | .writeBack _ _ _ _ | .store _ => 2
  | _ => 3

/-- The fault that a home finds for a message (R144). -/
def Msg.failRec (m : Msg) (xlc : Nat) : FaultRec :=
  match m.acc? with
  | some a => a.failRec xlc m.tag.pc m.cls
  | none => { xlc := xlc, pc := m.tag.pc, va := m.tag.va, fent := m.tag.leaf, aclass := m.cls, level := m.tag.level, flane := 0 }

/-- The class in which a message travels (R341). -/
def MsgKind.isData (k : MsgKind) : Bool := match k with | .writeBack _ _ _ _ => true | .store _ => true | _ => false

/-- Whether two messages go from one port to one port in one class (R340, R342): a cluster's cores share its port, and the line's
home slice receives. -/
def Msg.sameWay (x m : Msg) : Bool :=
  x.core / 4 == m.core / 4 && homeSlice (128 * x.ln) == homeSlice (128 * m.ln) && x.kind.isData == m.kind.isData

/-- Whether a message has reached the node it pushes to, where it waits for its turn (R395). -/
def State.hasArrived (s : State) (m : Msg) : Bool := s.nodes.any (fun e => e.2.ops.contains (.push m.id))

/-- Whether a message comes after another that is still on its way, of its core to its line or on its way between the same ports
(R342); a held one, which has arrived, keeps back those of its own context to its line (R144). -/
def State.msgBehind (s : State) (i : Nat) (m : Msg) : Bool :=
  (s.net.take i).any (fun x => !s.hasArrived x &&
    ((x.core == m.core && x.ln == m.ln && (x.held.isNone || x.tag.ctx == m.tag.ctx)) || (x.held.isNone && x.sameWay m)))

/-- A message that its home refuses is held there, with its fault (R144). -/
def State.refuseMsg (s : State) (m : Msg) (f : FaultRec) : State :=
  ({ s with net := s.net.map (fun x => if x.id = m.id then { x with held := some f } else x) } : State).queueFault m.tag f

/-- A message that has been performed is acknowledged (R104) by its home slice. -/
def State.ackMsg (s : State) (m : Msg) : State :=
  { s with net := s.net.filter (fun x => x.id != m.id), acks := s.acks ++ [(m.id, m.core, homeSlice (128 * m.ln))] }

/-- Performs the i-th message at its home where it is its turn and of the kind meant: the device after it, or the XLC. -/
def State.msgStep (s : State) (i : Nat) (mine : MsgKind → Bool) (act : State → Msg → Except Nat State) : State :=
  match s.net[i]? with
  | none => s
  | some m =>
    if !mine m.kind || m.held.isSome || s.msgBehind i m then s
    else if !s.reach (m.core / 128) (128 * m.ln) then s.refuseMsg m (m.failRec 17)
    else
      match act s m with
      | .error x => s.refuseMsg m (m.failRec x)
      | .ok s1 => s1.ackMsg m

/-- A masked write-back merges at the home (R96): sectors that a store marked stay marked, and a poisoned one that several stores
have covered together is still written in parts, which clear no mark (R91). -/
def homeMerge (s : State) (m : Msg) : Except Nat State :=
  match m.kind with
  | .writeBack mask data marks whole =>
    let cells := fun (k : Nat) => (maskedCells (128 * m.ln) (maskBytes mask data)).filter (fun c => c.1 / 32 % 4 == k)
    let all := maskedCells (128 * m.ln) (maskBytes mask data)
    if all.any (fun c => s.frozenAt c.1 1) then .error 11
    else if all.any (fun c => s.heapHit c.1 1 false) then .error 14
    else (List.range 4).foldlM (fun (s : State) k =>
      if marks.getLsbD k || whole.getLsbD k then s.homeStore m.owner (cells k) (marks.getLsbD k)
      else do
        let t ← s.homeStore m.owner ((cells k).take 16) false
        t.homeStore m.owner ((cells k).drop 16) false) s
  | _ => .ok s

/-- A store sent toward its home is applied there (R100) as one write of the bytes its lanes leave (R91, R140). -/
def homeStores (s : State) (m : Msg) : Except Nat State :=
  match m.kind with
  | .store as => do
    let t ← s.homeStore m.owner (laneCells (as.filter (fun a => !a.poison))) false
    t.homeStore m.owner (laneCells (as.filter (·.poison))) true
  | _ => .ok s

/-- An ATOM or RED is performed at its home (R147): the old values go back to its entry. -/
def homeAtoms (s : State) (m : Msg) : Except Nat State :=
  match m.kind with
  | .atom wt opc _ as =>
    match s.homeAtom opc.toNat wt.toNat (as.map (fun a => { lane := a.lane, owner := a.owner, pa := a.pa, n := a.n, x := a.x, y := a.y })) with
    | .error x => .error x
    | .ok (s1, olds) => .ok (s1.modSq m.tag.crew m.op (fun e => { e with got := e.got ++ olds }))
  | _ => .ok s

/-- The home sets the core's bit in a line's holder vector (R108), which it reads and writes as memory (R100, R106). -/
def homeHold (s : State) (m : Msg) : Except Nat State :=
  match s.rangeAt (128 * m.ln) with
  | none => .ok s
  | some (_, _, r) => do
    let t ← s.recallAt (r.holderPa m.ln)
    t.setHolders r m.ln (t.holders r m.ln ||| 2 ^ (m.core % 128))

/-- An arrival or BBINIT at its barrier's home (R181, R182). -/
def homeBar (s : State) (m : Msg) : Except Nat State :=
  match m.kind with
  | .arrive n a => s.homeArrive a.owner a.pa n
  | .bbinit v a => s.homeBbinit a.owner a.pa v
  | _ => .ok s

/-- An acknowledgement arrives (R104): nothing of the crew waits for it any longer. -/
def Crew.takeAck (c : Crew) (n : Nat) : Crew :=
  let cut := fun (l : List (Nat × List Nat)) =>
    (l.map (fun (e : Nat × List Nat) => (e.1, e.2.filter (fun i => i != n)))).filter (fun e => !e.2.isEmpty)
  { c with
    sq := c.sq.map (fun e => { e with msgs := e.msgs.filter (fun i => i != n) })
    unacked := cut c.unacked, rwOps := cut c.rwOps }

/-- The operations of a crew that an acknowledgement completes. -/
def Crew.endedBy (c : Crew) (n : Nat) : List Nat :=
  let done := fun (l : List (Nat × List Nat)) => (l.filter (fun (e : Nat × List Nat) => e.2 == [n])).map (·.1)
  let d := c.takeAck n
  (done c.unacked ++ done c.rwOps).filter (fun op => !(d.sq.any (fun e => e.op == op) || d.unacked.any (fun u => u.1 == op)))

/-- The acknowledgement of one message or request: the counters fall past what it completes. -/
def State.tookAck (s : State) (n : Nat) : State :=
  s.crews.foldl (fun (t : State) e => (e.2.endedBy n).foldl (fun (t : State) op => t.lowerOp e.1 cS op) t)
    { s with crews := s.crews.map (fun e => (e.1, e.2.takeAck n)) }

/-! The meanings. -/

/-- WRITE_BACK (R96). -/
def execWriteBack (i : Nat) (s : State) : Out :=
  .next (s.msgStep i (fun k => match k with | .writeBack _ _ _ _ => true | _ => false) homeMerge)
/-- STORE_AT_HOME (R100). -/
def execStoreAtHome (i : Nat) (s : State) : Out :=
  .next (s.msgStep i (fun k => match k with | .store _ => true | _ => false) homeStores)
/-- ATOMIC_AT_HOME (R147). -/
def execAtomicAtHome (i : Nat) (s : State) : Out :=
  .next (s.msgStep i (fun k => match k with | .atom _ _ _ _ => true | _ => false) homeAtoms)
/-- HOLD_MESSAGE (R108). -/
def execHoldMessage (i : Nat) (s : State) : Out :=
  .next (s.msgStep i (fun k => match k with | .hold => true | _ => false) homeHold)
/-- BB_ARRIVAL (R181, R182). -/
def execBbArrival (i : Nat) (s : State) : Out :=
  .next (s.msgStep i (fun k => match k with | .arrive _ _ => true | .bbinit _ _ => true | _ => false) homeBar)
/-- Whether an acknowledgement comes after another from its slice to its cluster, which arrives first (R342). -/
def State.ackBehind (s : State) (i : Nat) (a : Nat × Nat × Nat) : Bool :=
  (s.acks.take i).any (fun b => b.2.1 / 4 == a.2.1 / 4 && b.2.2 == a.2.2)

/-- STORE_ACK (R104). -/
def execStoreAck (i : Nat) (s : State) : Out :=
  .next (match s.acks[i]? with
    | some a => if s.ackBehind i a then s else ({ s with acks := s.acks.eraseIdx i } : State).tookAck a.1
    | none => s)
/-- L1_EVICT (R96, R109). -/
def execL1Evict (core line : Nat) (s : State) : Out :=
  .next (match (s.l1 core)[line]? with
    | some l => s.evict core l
    | none => s)
/-- RANGE_RECALL (R110): the recall that a message at the home of its line makes first. -/
def execRangeRecall (ln : Nat) (s : State) : Out :=
  .next (if s.net.any (fun m => m.ln == ln && m.held.isNone && (match m.kind with | .hold => false | _ => true)) then
      match s.recallAt (128 * ln) with
      | .ok s1 => s1
      | .error _ => s
    else s)

end Sys2Proof.Machine
end

