-- ==== Sys2Proof/Machine/Nodes.lean ====
section
/-!
DEFINITION. Selection heaps (R308 to R313): HCLR, HPUSH, HDRAIN; page pools and graph nodes (R392 to R399, R505): NQPUSH,
NQTAKE, and what a node's home does.
-/

namespace Sys2Proof.Machine

/-! Heaps. -/

/-- Recalls every line of a byte range (R110). -/
def State.recallOver (s : State) (pa n : Nat) : Except Nat State :=
  (List.range ((pa % 128 + n + 127) / 128)).foldlM (fun (s : State) i => s.recallAt ((pa / 128 + i) * 128)) s

/-- better of R311 on entries of key and token: the largest values first, or the smallest. -/
def heapBetter (least : Bool) (e f : Nat × Nat) : Bool :=
  let u := bf16.value e.1
  let v := bf16.value f.1
  (if least then u.lt false v else v.lt false u) || (!u.lt false v && !v.lt false u && decide (e.2 < f.2))

/-- Puts an entry in its place, best first; among equals the first to come stays first. -/
def heapInsert (least : Bool) (e : Nat × Nat) (es : List (Nat × Nat)) : List (Nat × Nat) :=
  match es with
  | [] => [e]
  | f :: r => if heapBetter least e f then e :: f :: r else f :: heapInsert least e r

/-- A heap's header as it stands at its home (R308), with the reserved bits of its dwords 0 and 2, which the device never
changes (R3). -/
structure HeapHdr where
  cap   : Nat
  count : Nat
  least : Bool
  isOpen : Bool
  npush : Nat
  nnan  : Nat
  res0  : Nat := 0
  res2  : Nat := 0
deriving DecidableEq, Repr

def State.heapHdr (s : State) (owner pa : Nat) : HeapHdr :=
  let d0 := s.homeDw owner pa
  let d1 := s.homeDw owner (pa + 8)
  { cap := heapCap d0, count := heapCount d0, least := d0.getLsbD 32, isOpen := d0.getLsbD 31, npush := bits d1 0 32, nnan := bits d1 32 32,
    res0 := bits d0 33 31 * 2 ^ 33 + bits d0 29 2 * 2 ^ 29 + bits d0 13 3 * 2 ^ 13, res2 := bits (s.homeDw owner (pa + 16)) 16 16 * 2 ^ 16 }

/-- Whether a heap takes HPUSH and HDRAIN (R309). -/
def HeapHdr.ok (h : HeapHdr) : Bool := h.isOpen && decide (1 ≤ h.cap ∧ h.cap ≤ 4096 ∧ h.count ≤ h.cap)

/-- The entries of a heap, best first. -/
def State.heapEntries (s : State) (owner pa : Nat) (h : HeapHdr) : List (Nat × Nat) :=
  (List.range h.count).foldl (fun es i =>
    let d := s.homeDw owner (pa + 64 + 8 * i)
    heapInsert h.least (bits d 0 16, bits d 32 32) es) []

/-- The bytes of the first three dwords of a header (R308). -/
def HeapHdr.bytes (h : HeapHdr) (es : List (Nat × Nat)) : List Byte :=
  let w := if h.count = h.cap then (es.getLast?).getD (0, 0) else (0, 0)
  leBytes 8 ((if h.least then 2 ^ 32 else 0) + (if h.isOpen then 2 ^ 31 else 0) + h.count * 2 ^ 16 + h.cap + h.res0) ++
  leBytes 8 (h.nnan * 2 ^ 32 + h.npush) ++ leBytes 8 (w.2 * 2 ^ 32 + w.1 + h.res2)

/-- The bytes of entries (R308). -/
def entriesBytes (es : List (Nat × Nat)) : List Byte := (es.map (fun e => leBytes 8 (e.2 * 2 ^ 32 + e.1))).flatten

/-- A write of a heap's bytes by its own operation. -/
def State.heapWrite (s : State) (owner pa : Nat) (bs : List Byte) : State :=
  (List.range ((bs.length + 127) / 128)).foldl (fun (s : State) i => s.touch (pa / 128 + i))
    (s.homeWrite owner (maskedCells pa (bs.map some)) false)

/-- HCLR at its home (R310): FROZEN, an access to another open heap, or the whole header written. -/
def State.homeHclr (s : State) (owner pa cap : Nat) (least : Bool) : Except Nat State :=
  if s.frozenAt pa 64 then .error 11
  else if ({ s with heaps := mdel s.heaps pa } : State).heapHit pa 64 false then .error 14
  else
    match s.recallOver pa 64 with
    | .error x => .error x
    | .ok s1 =>
      let h : HeapHdr := { cap := cap, count := 0, least := least, isOpen := true, npush := 0, nnan := 0 }
      let s2 := s1.heapWrite owner pa (h.bytes [] ++ List.replicate 40 0)
      .ok { s2 with heaps := mput s2.heaps pa owner }

/-- A heap that HPUSH or HDRAIN may use: its header, or the XLC (R309, R311). Its header is written unless HDRAIN keeps the heap open.
DESIGN CHOICE: a poison-marked byte anywhere in the heap's 64 + 8 × CAP bytes faults HDRAIN too, where R311 gives POISON for HPUSH
alone. Log entry 127. -/
def State.heapUse (s : State) (owner pa : Nat) (writes : Bool) : Except Nat (State × HeapHdr) :=
  match s.recallOver pa 64 with
  | .error x => .error x
  | .ok s1 =>
    let h := s1.heapHdr owner pa
    if writes && s1.frozenAt pa 64 then .error 11
    else if !h.ok then .error 15
    else
      match s1.recallOver pa (64 + 8 * h.cap) with
      | .error x => .error x
      | .ok s2 =>
        if s2.poisoned pa (64 + 8 * h.cap) then .error 10 else .ok ({ s2 with heaps := mput s2.heaps pa owner }, s2.heapHdr owner pa)

/-- One lane of HPUSH at its home (R311, R313). -/
def State.homeHpush (s : State) (owner pa : Nat) (key : BitVec 16) (token : Word) : Except Nat State :=
  match s.heapUse owner pa true with
  | .error x => .error x
  | .ok (s1, h) =>
    let h1 : HeapHdr := { h with npush := (h.npush + 1) % 2 ^ 32 }
    let old := s1.heapEntries owner pa h
    if (bf16.value key.toNat).isNan then
      .ok (s1.heapWrite owner pa (({ h1 with nnan := (h.nnan + 1) % 2 ^ 32 } : HeapHdr).bytes old))
    else
      let es := (heapInsert h.least (key.toNat, token.toNat) old).take h.cap
      let h2 : HeapHdr := { h1 with count := es.length }
      if es ≠ old ∧ s1.frozenAt (pa + 64) (8 * es.length) then .error 11
      else .ok ((s1.heapWrite owner pa (h2.bytes es)).heapWrite owner (pa + 64) (entriesBytes es))

/-- What HDRAIN reads of the heap at its home (R312): its header and the entries, best first; without .keep its header can be written. -/
def State.heapRead (s : State) (owner pa : Nat) (keep : Bool) : Except Nat (State × HeapHdr × List (Nat × Nat)) :=
  match s.heapUse owner pa (!keep) with
  | .error x => .error x
  | .ok (s1, h) => .ok (s1, h, s1.heapEntries owner pa h)

/-- The heap closes (R312). -/
def State.heapShut (s : State) (owner pa : Nat) (h : HeapHdr) (es : List (Nat × Nat)) : State :=
  s.heapWrite owner pa (({ h with isOpen := false } : HeapHdr).bytes es)

/-- HDRAIN's step on the heap itself (R312): the entries, best first; without .keep the heap closes. -/
def State.homeHdrain (s : State) (owner pa : Nat) (keep : Bool) : Except Nat (State × HeapHdr × List (Nat × Nat)) :=
  match s.heapRead owner pa keep with
  | .error x => .error x
  | .ok (s1, h, es) => .ok (if keep then s1 else s1.heapShut owner pa h es, h, es)

/-- HCLR at issue (R310). -/
def hclrBody (f : LE) (x : Cx) : Iss Rsl := do
  let srcs := [f.srcA 2, f.srcB 1]
  let r ← x.once.peek srcs
  x.counterRoom cS
  x.queueRoom
  let c0 := x.c.emptySrcs srcs
  if x.act = 0 then return x.idle c0 cS
  else
    let va := pairAt (nthRun r 0) x.lane
    let cap := ((nthOpd r 1).at x.lane).toNat
    needOpnd (decide (1 ≤ cap ∧ cap ≤ 4096)) 0 2
    x.once.aligned 128 (fun _ => va)
    x.once.deadReads srcs
    let t ← x.translateAll x.s .atomic 64 [(x.lane, va)]
    x.once.poisonCheck r.flatten
    let c1 := (c0.raise cS x.op).enqueue x.op x.p.pc (.hclr cap (f.md.getLsbD 0)) t.2 false 8
    return { s := t.1, c := c1, adv := true }

/-- HCLR at the head of the queue (R310). -/
def State.hclrHead (s : State) (id : Nat) (c : Crew) (e : SqEntry) (cap : Nat) (least : Bool) : State :=
  match e.accs with
  | [] => s.leave id e.op cS []
  | a :: _ =>
    match a.tgt with
    | .hbm pa =>
      if !s.reach (c.core / 128) pa then s.crewFault id (a.failRec 17 e.pc 3)
      else
        match s.homeHclr a.owner pa cap least with
        | .error x => s.crewFault id (a.failRec x e.pc 3)
        | .ok s1 => s1.leave id e.op cS []
    | .peer dev pa =>
      if 3 ≤ e.stage then (if e.msgs.isEmpty then s.leave id e.op cS [] else s)
      else
        match s.linkFault e 3 with
        | some f => s.crewFault id f
        | none =>
          let q := s.askPeer (c.tag id e.pc a.va a.leaf a.level) e.op a.lane dev pa a.owner (.heapClr cap least)
          q.1.modSq id e.op (fun x => { x with stage := 3, msgs := [q.2] })
    | _ => s.leave id e.op cS []

/-- HPUSH at issue (R311): per lane. -/
def hpushBody (f : LE) (x : Cx) : Iss Rsl := do
  let dst : Src := { f.srcD 2 with zero := false }
  let srcs := [dst, f.srcA 1, f.srcB 1]
  let r ← x.peek srcs
  x.counterRoom cS
  x.queueRoom
  let c0 := x.c.emptySrcs srcs
  let addr := fun l => pairAt (nthRun r 0) l
  x.aligned 128 addr
  x.deadReads srcs
  let t ← x.translateAll x.s .atomic 64 ((laneList x.act).map (fun l => (l, addr l)))
  x.poisonCheck r.flatten
  if x.act = 0 then return x.idle c0 cS
  else
    let accs := t.2.map (fun a => { a with x := ((nthOpd r 1).at a.lane).setWidth 64 &&& 0xFFFF, y := ((nthOpd r 2).at a.lane).setWidth 64 })
    return { s := t.1, c := (c0.raise cS x.op).enqueue x.op x.p.pc .hpush accs false 8, adv := true }

/-- A per-lane submission at the head of the queue: one request a lane, ascending, and the entry leaves when all have been
performed (R311, R394). -/
def State.lanesHead (s : State) (id : Nat) (c : Crew) (e : SqEntry) (kind : LaneAcc → MsgKind) (what : LaneAcc → PeerOp) : State :=
  if e.stage < 3 then
    match s.linkFault e 3 with
    | some f => s.crewFault id f
    | none =>
      let r := e.accs.foldl (fun (r : State × List Nat) a =>
        match a.tgt with
        | .hbm pa => let o := r.1.post c id e (some a) (pa / 128) a.owner (kind a); (o.1, r.2 ++ [o.2])
        | .peer dev pa => let o := r.1.askPeer (c.tag id e.pc a.va a.leaf a.level) e.op a.lane dev pa a.owner (what a); (o.1, r.2 ++ [o.2])
        | _ => r) (s, [])
      r.1.modSq id e.op (fun x => { x with stage := 3, msgs := r.2 })
  else if e.msgs.isEmpty then s.leave id e.op cS []
  else s

/-- HPUSH at the head of the queue (R311). -/
def State.hpushHead (s : State) (id : Nat) (c : Crew) (e : SqEntry) : State :=
  s.lanesHead id c e (fun a => .heapPush a (a.x.setWidth 16) (a.y.setWidth 32)) (fun a => .heapPush (a.x.setWidth 16) (a.y.setWidth 32))

/-- HPUSH's lane as a message at its home. -/
def homePush (s : State) (m : Msg) : Except Nat State :=
  match m.kind with
  | .heapPush a key token => s.homeHpush a.owner a.pa key token
  | _ => .ok s

/-- HDRAIN at issue (R312): a wait point; its step comes when the crew's earlier entries have left. DESIGN CHOICE: with no acting
lane it has no effect (R101) but that of a wait point on the latches and the operand cache (R222). Log entry 128. -/
def hdrainBody (f : LE) (x : Cx) : Iss Rsl := do
  dstCheck x.c f.dst 1 true
  let srcs := [f.srcA 2, f.srcB 2]
  let r ← x.once.peek srcs
  let c0 := x.c.emptySrcs srcs
  if x.act = 0 then return { s := x.s, c := c0.waitPoint, adv := true }
  else
    let va := pairAt (nthRun r 0) x.lane
    let out := pairAt (nthRun r 1) x.lane
    if va.toNat % 128 ≠ 0 ∨ out.toNat % 8 ≠ 0 then .error (.trap (Trap.misalign (oneLane x.lane))) else .ok ()
    x.once.deadReads srcs
    let t ← x.translateAll x.s .atomic 64 [(x.lane, va)]
    x.once.poisonCheck r.flatten
    match t.2 with
    | [] => return { s := t.1, c := c0.waitPoint, adv := true }
    | a :: _ =>
      let w := x.waitFor 8 0xEB 0 va f.dst 8 (.hdrain a out (f.md.getLsbD 0) 0 0 [])
      return { s := t.1, c := c0.waitAt w, adv := true }

/-- The pages of an output range with their translations for writing, or the fault (R312). -/
def State.outParts (s : State) (c : Crew) (w : Wait) (va : Dword) (n : Nat) : Except FaultRec (State × List (Dword × Nat × Xlate)) :=
  let lane := (lowest w.lanes).getD 0
  (pagePieces 3 va.toNat n).foldlM (fun (r : State × List (Dword × Nat × Xlate)) p =>
    let a : Dword := BitVec.ofNat 64 p.1
    match r.1.translate c.unit c.ctx a .store with
    | (_, .error e) => .error (e.record w.pc a .store lane)
    | (s1, .ok t) => .ok (s1, r.2 ++ [(a, p.2, t)])) (s, [])

/-- What keeps an output range from being written: FROZEN, HEAPOPEN, LINKERR (R119, R309, R343). -/
def State.outBad (s : State) (c : Crew) (p : Dword × Nat × Xlate) : Option Nat :=
  match p.2.2.tgt with
  | .hbm pa =>
    if !s.reach (c.core / 128) pa then some 17
    else if s.frozenAt pa p.2.1 then some 11
    else if s.heapHit pa p.2.1 false then some 14
    else none
  | .peer dev _ => if s.peerPath dev then none else some 17
  | _ => none

/-- Writes a part of the output; the numbers of what was sent away. -/
def State.outWrite (s : State) (id : Nat) (c : Crew) (w : Wait) (p : Dword × Nat × Xlate) (bs : List Byte) : State × List Nat :=
  match p.2.2.tgt with
  | .hbm pa =>
    let lines := linePieces (bs.length / 128 + 2) (BitVec.ofNat 64 pa) bs.length
    (lines.foldl (fun (s : State) l =>
      let off := l.1.toNat - pa
      match s.homeStore p.2.2.owner (maskedCells l.1.toNat (((bs.drop off).take l.2).map some)) false with
      | .ok s1 => s1
      | .error _ => s) s, [])
  | .peer dev pa =>
    let lines := linePieces (bs.length / 128 + 2) (BitVec.ofNat 64 pa) bs.length
    lines.foldl (fun (r : State × List Nat) l =>
      let off := l.1.toNat - pa
      let o := r.1.askPeer (c.tag id w.pc (p.1 + BitVec.ofNat 64 off) p.2.2.leaf p.2.2.level) w.num 0 dev l.1.toNat p.2.2.owner (.write (((bs.drop off).take l.2).map some) false)
      (o.1, r.2 ++ [o.2])) (s, [])
  | .host off =>
    (List.range ((bs.length + 15) / 16)).foldl (fun (r : State × List Nat) i =>
      let part := (bs.drop (16 * i)).take 16
      let o := r.1.askHost (c.tag id w.pc (p.1 + BitVec.ofNat 64 (16 * i)) p.2.2.leaf p.2.2.level) w.num 0 (off + 16 * i) part.length true part
      (o.1, r.2 ++ [o.2])) (s, [])
  | .gaz _ => (s, [])

/-- Writes HDRAIN's entries to their parts and drops the core's clean copies of them (R312). -/
def State.drainOut (s : State) (id : Nat) (c : Crew) (w : Wait) (ps : List (Dword × Nat × Xlate)) (bs : List Byte) : State × List Nat :=
  let r := ps.foldl (fun (r : State × List Nat × List Byte) p =>
    let o := r.1.outWrite id c w p (r.2.2.take p.2.1)
    (o.1, r.2.1 ++ o.2, r.2.2.drop p.2.1)) (s, [], bs)
  (r.1.dropCleanWhere c.core (fun l => s.lineIn (ps.map (fun p => (p.2.2.tgt, p.2.1))) l), r.2.1)

/-- Whether the output meets the heap's own bytes (R312). -/
def drainMeets (a : LaneAcc) (h : HeapHdr) (ps : List (Dword × Nat × Xlate)) : Bool :=
  ps.any (fun p => p.2.2.tgt.meets a.tgt p.2.1 (64 + 8 * h.cap))

/-- What HDRAIN finds out before its step: its output's parts, or the fault or trap that ends it. -/
def State.drainPlan (s : State) (c : Crew) (w : Wait) (a : LaneAcc) (out : Dword) (h : HeapHdr) :
    Except (FaultRec ⊕ Trap) (State × List (Dword × Nat × Xlate)) :=
  match s.outParts c w out (8 * h.count) with
  | .error f => .error (.inl f)
  | .ok (s1, ps) =>
    if drainMeets a h ps then .error (.inr (Trap.illOpnd 0 2))
    else
      match ps.findSome? (fun p => (s1.outBad c p).map (fun x => (p, x))) with
      | some (p, x) =>
        .error (.inl { xlc := x, pc := w.pc, va := p.1, fent := p.2.2.leaf, aclass := 2, level := p.2.2.level,
                       flane := (lowest w.lanes).getD 0 })
      | none => .ok (s1, ps)

/-- Whether some of what HDRAIN sent is on its way. -/
def State.outAway (s : State) (msgs : List Nat) : Bool :=
  msgs.any (fun i => s.peerReqs.any (fun r => r.id == i) || s.hostReqs.any (fun r => r.id == i))

/-- HDRAIN ends where nothing it sent is on its way. -/
def State.drainEnd (s : State) (id : Nat) (count : Nat) (msgs : List Nat) : State :=
  if s.outAway msgs then s else s.endWait id (some (BitVec.ofNat 32 count))

/-- Whether a part of the output lies outside the device, where its write can still be refused. -/
def drainFar (ps : List (Dword × Nat × Xlate)) : Bool :=
  ps.any (fun p => match p.2.2.tgt with | .hbm _ => false | .gaz _ => false | _ => true)

/-- The entries an HDRAIN has written out, as one number, and their count. -/
def drainMark (bs : List Byte) : Nat := leNat (bs ++ [1])
def markCount (n : Nat) : Nat := Nat.log2 n / 64

/-- A heap whose output is written closes (R312): where the entries are still those that were written, else the HDRAIN starts again. -/
def State.drainShut (s : State) (id : Nat) (c : Crew) (w : Wait) (a : LaneAcc) (out : Dword) (n : Nat) : State :=
  match a.tgt with
  | .hbm pa =>
    match s.heapRead a.owner pa false with
    | .error x => s.waitFault id (a.failRec x w.pc 3)
    | .ok (s1, h, es) =>
      if drainMark (entriesBytes es) = n then (s1.heapShut a.owner pa h es).endWait id (some (BitVec.ofNat 32 h.count))
      else s.setWaitOp id (.hdrain a out false 0 0 [])
  | .peer dev pa =>
    if !s.peerPath dev then s.waitFault id (a.failRec 17 w.pc 3)
    else
      let q := s.askPeer (c.tag id w.pc a.va a.leaf a.level) w.num 0 dev pa a.owner (.heapDrain false (markCount n))
      q.1.setWaitOp id (.hdrain a out false 5 n [q.2])
  | _ => s

/-- A crew at HDRAIN goes as far as it can (R312): 0 its earlier entries, 1 a peer's header asked, 2 its entries asked, 6 the same of a
heap that stays open until the output is written; 3 the output written; 4 it is written, and the heap has still to close, so that a
refused write leaves it open; 5 a peer's heap asked to close. -/
def State.tryHdrain (s : State) (id : Nat) : State :=
  match mget s.crews id with
  | none => s
  | some c =>
    match c.wait with
    | none => s
    | some w =>
      match w.op with
      | .hdrain a out keep 0 _ _ =>
        if !c.sq.isEmpty then s
        else
          match a.tgt with
          | .hbm pa =>
            if !s.reach (c.core / 128) pa then s.waitFault id (a.failRec 17 w.pc 3)
            else
              match s.heapRead a.owner pa keep with
              | .error x => s.waitFault id (a.failRec x w.pc 3)
              | .ok (s1, h, es) =>
                match s.drainPlan c w a out h with
                | .error (.inl f) => s.waitFault id f
                | .error (.inr t) => s.waitTrap id t
                | .ok (s2, ps) =>
                  let bs := entriesBytes es
                  let later := !keep && drainFar ps
                  let s3 : State := { (if keep || later then s1 else s1.heapShut a.owner pa h es) with tlbs := s2.tlbs, walks := s2.walks }
                  let r := s3.drainOut id c w ps bs
                  if later then r.1.setWaitOp id (.hdrain a out keep 4 (drainMark bs) r.2)
                  else (r.1.setWaitOp id (.hdrain a out keep 3 h.count r.2)).drainEnd id h.count r.2
          | .peer dev pa =>
            if !s.peerPath dev then s.waitFault id (a.failRec 17 w.pc 3)
            else
              let q := s.askPeer (c.tag id w.pc a.va a.leaf a.level) w.num 0 dev pa a.owner (.read 64)
              q.1.setWaitOp id (.hdrain a out keep 1 0 [q.2])
          | _ => s.endWait id (some 0)
      | .hdrain _ _ _ 3 n msgs => s.drainEnd id n msgs
      | .hdrain a out _ 4 n msgs => if s.outAway msgs then s else s.drainShut id c w a out n
      | _ => s

/-- A peer's answer to an HDRAIN (R312): its header, then its entries. A heap that has changed between is asked again. -/
def State.hdrainReply (s : State) (id : Nat) (status : Nat) (bs : List Byte) : State :=
  match mget s.crews id with
  | none => s
  | some c =>
    match c.wait with
    | none => s
    | some w =>
      match w.op with
      | .hdrain a out keep stage n _ =>
        if (stage = 2 ∨ stage = 5 ∨ stage = 6) ∧ status = 255 then s.setWaitOp id (.hdrain a out keep 0 0 [])
        else if status ≠ 0 then s.waitFault id (a.failRec status w.pc 3)
        else if stage = 1 then
          let d0 := recDw bs 0
          let h : HeapHdr := { cap := heapCap d0, count := heapCount d0, least := d0.getLsbD 32, isOpen := d0.getLsbD 31, npush := 0, nnan := 0 }
          if !h.ok then s.waitFault id (a.failRec 15 w.pc 3)
          else
            match s.drainPlan c w a out h with
            | .error (.inl f) => s.waitFault id f
            | .error (.inr t) => s.waitTrap id t
            | .ok (s1, ps) =>
              match a.tgt with
              | .peer dev pa =>
                let later := !keep && drainFar ps
                let q := s1.askPeer (c.tag id w.pc a.va a.leaf a.level) w.num 0 dev pa a.owner (.heapDrain (keep || later) h.count)
                q.1.setWaitOp id (.hdrain a out keep (if later then 6 else 2) h.count [q.2])
              | _ => s1
        else if stage = 5 ∧ drainMark bs = n then s.endWait id (some (BitVec.ofNat 32 (markCount n)))
        else if stage = 2 ∨ stage = 5 ∨ stage = 6 then
          let n := bs.length / 8
          match s.outParts c w out (8 * n) with
          | .error f => s.waitFault id f
          | .ok (s1, ps) =>
            let r := s1.drainOut id c w ps bs
            if stage = 6 then r.1.setWaitOp id (.hdrain a out keep 4 (drainMark bs) r.2)
            else (r.1.setWaitOp id (.hdrain a out keep 3 n r.2)).drainEnd id n r.2
        else s
      | _ => s

/-! Nodes and pools. -/

/-- A node's fields (R393). -/
structure NodeDesc where
  entry  : Dword
  timer  : Nat
  tile   : Nat
  rwords : Nat
  regs8  : Nat
  wc     : Nat
  prio   : Nat
  pool   : Dword
  param  : Dword
  nseal  : Nat
  nflush : Nat
  count  : Nat
  page   : Dword
  nready : Dword
deriving DecidableEq, Repr

def State.nodeDesc (s : State) (owner pa : Nat) : NodeDesc :=
  let d := fun i => s.homeDw owner (pa + 8 * i)
  { entry := d 0, timer := bits (d 1) 48 16, tile := bits (d 1) 32 16, rwords := bits (d 1) 16 8, regs8 := bits (d 1) 8 8,
    wc := bits (d 1) 6 2, prio := bits (d 1) 3 3, pool := d 2, param := d 3, nseal := bits (d 4) 32 32,
    nflush := bits (d 4) 16 16, count := bits (d 4) 0 13, page := d 5, nready := d 6 }

/-- Whether a node is well formed (R393). -/
def NodeDesc.ok (n : NodeDesc) : Bool :=
  decide (1 ≤ n.timer ∧ 1 ≤ n.tile ∧ n.tile ≤ 4096 ∧ 1 ≤ n.rwords ∧ n.rwords ≤ 16 ∧ 1 ≤ n.regs8 ∧ n.regs8 ≤ 128 ∧
    n.wc ≠ 3 ∧ n.tile * n.rwords * 4 ≤ 65536)

/-- Writes what the home keeps in a node's descriptor (R393), which the freeze table, the open heaps and the range table must allow
(R100); reserved bits stay as they are (R3). -/
def State.nodeWrite (s : State) (owner pa : Nat) (n : NodeDesc) : Except Nat State :=
  let res := bits (s.homeDw owner (pa + 32)) 13 3 * 2 ^ 13
  let bs := leBytes 8 (n.nseal % 2 ^ 32 * 2 ^ 32 + n.nflush % 2 ^ 16 * 2 ^ 16 + n.count + res) ++ leBytes 8 n.page.toNat ++ leBytes 8 n.nready.toNat
  s.homeStore owner (maskedCells (pa + 32) (bs.map some)) false

/-- A node as its home keeps it, made at its first use. -/
def State.nodeRec (s : State) (pa owner ctx : Nat) (va : Dword) : Node :=
  (mget s.nodes pa).getD
    { ctx := ctx, va := va, owner := owner, pool := 0, timer := false, ops := [], press := 0, sealed := [], taken := [] }

def State.modNode (s : State) (pa : Nat) (f : Node → Node) : State := { s with nodes := mmod s.nodes pa f }

/-- Free pages of a pool (R392). -/
def Pool.count (p : Pool) : Nat := p.free.length + (p.npages - p.low)

/-- Takes the lowest free page. -/
def Pool.take (p : Pool) : Option (Nat × Pool) :=
  match p.free with
  | i :: r => some (i, { p with free := r })
  | [] => if p.low < p.npages then some (p.low, { p with low := p.low + 1 }) else none

/-- Puts a number into a rising list. -/
def putNat (l : List Nat) (n : Nat) : List Nat :=
  match l with
  | [] => [n]
  | m :: r => if n < m then n :: m :: r else if n = m then m :: r else m :: putNat r n

/-- Gives a page back. -/
def Pool.give (p : Pool) (i : Nat) : Pool := if i < p.low then { p with free := putNat p.free i } else p

/-- A pool as its home keeps it, made at its first use (R505). -/
def State.poolRec (s : State) (pa owner : Nat) : Pool :=
  (mget s.pools pa).getD
    { owner := owner, base := s.homeDw owner pa, npages := bits (s.homeDw owner (pa + 8)) 32 32, low := 0, free := [],
      pflush := hiWord (s.homeDw owner (pa + 16)), wait := [] }

/-- A pool's new state, with FREE and PFLUSH in its descriptor (R505), where they may be written (R100). -/
def State.setPool (s : State) (pa : Nat) (p : Pool) : Except Nat State := do
  let s1 ← State.homeStore { s with pools := mput s.pools pa p } p.owner (maskedCells (pa + 8) ((leBytes 4 p.count).map some)) false
  s1.homeStore p.owner (maskedCells (pa + 20) ((leBytes 4 p.pflush.toNat).map some)) false

/-- Every node of a pool that holds an open page (R396). -/
def State.openNodes (s : State) (pool : Nat) : List Nat :=
  (s.nodes.filter (fun e => e.2.pool == pool && (s.nodeDesc e.2.owner e.1).page != 0)).map (·.1)

/-- Seals a node's open page (R395): its tile is handed to a consumer, or kept for NQTAKE. -/
def State.sealNode (s : State) (pa : Nat) (flush : Bool) : Except Nat State :=
  match mget s.nodes pa with
  | none => .ok s
  | some k => do
    let n := s.nodeDesc k.owner pa
    let n1 : NodeDesc := { n with
      nseal := (n.nseal + 1) % 2 ^ 32, nflush := if flush then (n.nflush + 1) % 2 ^ 16 else n.nflush, count := 0, page := 0,
      nready := if n.entry = 0 then n.nready + 1 else n.nready }
    let s0 ← s.nodeWrite k.owner pa n1
    let s1 := s0.modNode pa (fun k => { k with
      timer := false, sealed := if n.entry = 0 then k.sealed ++ [(n.page, n.count)] else k.sealed })
    if n.entry = 0 then return s1
    else
      let t : Tile := { node := pa, pool := k.pool, ctx := k.ctx, page := n.page, count := n.count, nseal := n1.nseal, seq := s1.opSeq }
      return { s1 with sealedQ := s1.sealedQ ++ [t], opSeq := s1.opSeq + 1 }

/-- A node's context faults for a write of the home that no crew has asked for (R100, R119). DESIGN CHOICE: the spec names no
requester there. Log entry 126. -/
def State.nodeFault (s : State) (ctx xlc : Nat) : State := s.raiseLine ctx (Cause.none.add causeFault xlc) none

/-- An expiry at a node (R396): it seals a page that holds records. Where the descriptor may not be written, nothing is sealed and
the node's context faults. -/
def State.expire (s : State) (pa : Nat) : State :=
  match mget s.nodes pa with
  | none => s
  | some k =>
    if (s.nodeDesc k.owner pa).count = 0 then s.modNode pa (fun k => { k with timer := false })
    else
      match s.sealNode pa true with
      | .ok t => t
      | .error x => (s.modNode pa (fun k => { k with timer := false })).nodeFault k.ctx x

/-- What a push meets at its node. -/
inductive Pushed where
  | done (s : State)
  | wait (s : State)
  | bad (xlc : Nat)

/-- Opens a page for a node (R395, R396), where its pool has one for it. -/
def State.openPage (s : State) (unit pa : Nat) (n : NodeDesc) : Pushed :=
  match mget s.nodes pa with
  | none => .bad 19
  | some k =>
    match s.translate unit k.ctx n.pool .atomic with
    | (_, .error x) => .bad x.xlc
    | (s1, .ok t) =>
      match t.tgt with
      | .hbm ppa =>
        let p := s1.poolRec ppa t.owner
        let turn := p.wait.isEmpty || p.wait.head? == some pa
        match if turn then p.take else none with
        | none => .wait { s1 with pools := mput s1.pools ppa (if p.wait.contains pa then p else { p with wait := p.wait ++ [pa] }) }
        | some (i, p1) =>
          let dry := p1.count == 0
          let p2 : Pool := { p1 with wait := p1.wait.filter (fun q => q != pa), pflush := if dry then p1.pflush + 1 else p1.pflush }
          match (do
            let s2 ← s1.setPool ppa p2
            (s2.modNode pa (fun k => { k with pool := ppa, timer := true })).nodeWrite k.owner pa
              { n with page := p.base + BitVec.ofNat 64 (65536 * i), count := 0 }) with
          | .error x => .bad x
          | .ok s3 =>
            if dry then
              .done ((s3.openNodes ppa).foldl (fun (s : State) q => s.modNode q (fun k => { k with press := k.press + 1 })) s3)
            else .done s3
      | _ => .bad 19

/-- Writes bytes at a virtual address at their home, line by line. -/
def State.vaWrite (s : State) (unit ctx : Nat) (va : Dword) (bs : List Byte) : Except Nat State :=
  (linePieces (bs.length / 128 + 2) va bs.length).foldlM (fun (s : State) p =>
    match s.translate unit ctx p.1 .store with
    | (_, .error x) => .error x.xlc
    | (s1, .ok t) =>
      match t.tgt with
      | .hbm pa => s1.homeStore t.owner (maskedCells pa (((bs.drop (p.1 - va).toNat).take p.2).map some)) false
      | _ => .error 19) s

/-- A push performed at its node's home (R395). -/
def State.pushAt (s : State) (unit pa k : Nat) (bs : List Byte) : Pushed :=
  match mget s.nodes pa with
  | none => .bad 19
  | some r =>
    let n := s.nodeDesc r.owner pa
    if !n.ok || n.rwords != k then .bad 19
    else
      match if n.page = 0 then s.openPage unit pa n else .done s with
      | .wait s1 => .wait s1
      | .bad x => .bad x
      | .done s1 =>
        let n1 := s1.nodeDesc r.owner pa
        match (do
          let s2 ← s1.vaWrite unit r.ctx (n1.page + BitVec.ofNat 64 (4 * n1.rwords * n1.count)) bs
          let s3 ← s2.nodeWrite r.owner pa { n1 with count := n1.count + 1 }
          if n1.count + 1 = n1.tile then s3.sealNode pa false else .ok s3) with
        | .error x => .bad x
        | .ok s3 => .done s3

/-- The operations that have arrived at a node are performed in turn, up to a push that waits for a page (R395), fuel their
number. -/
def State.runNode (s : State) (pa fuel : Nat) : State :=
  match fuel with
  | 0 => s
  | f + 1 =>
    let ops : Option (List NodeOp) := (mget s.nodes pa).map (fun k => k.ops)
    match ops with
    | none => s
    | some [] => s
    | some (.expiry l :: r) =>
      let s1 := (s.expire pa).modNode pa (fun k => { k with ops := r })
      let s2 := match l with
        | some i => { s1 with launches := mmod s1.launches i (fun q => { q with drain := some (pa, s1.opSeq) }), opSeq := s1.opSeq + 1 }
        | none => s1
      s2.runNode pa f
    | some (.push id :: r) =>
      match s.net.find? (fun m => m.id == id) with
      | none => (s.modNode pa (fun k => { k with ops := r })).runNode pa f
      | some m =>
        match m.kind with
        | .nodePush a k =>
          match s.pushAt (m.core) pa k ((a.bytes).map (fun b => b.getD 0)) with
          | .wait s1 => s1
          | .bad x => ((s.modNode pa (fun k => { k with ops := r })).refuseMsg m (m.failRec x)).runNode pa f
          | .done s1 => ((s1.modNode pa (fun k => { k with ops := r })).ackMsg m).runNode pa f
        | _ => (s.modNode pa (fun k => { k with ops := r })).runNode pa f

/-- An operation arrives at a node (R395): each expiry is one of its own; a push that waits there already only looks again. -/
def State.arriveNode (s : State) (pa : Nat) (o : NodeOp) : State :=
  let again := fun (k : Node) => match o with | .push _ => k.ops.contains o | .expiry _ => false
  let s1 := s.modNode pa (fun k => if again k then k else { k with ops := k.ops ++ [o] })
  s1.runNode pa (((mget s1.nodes pa).map (fun k => k.ops.length)).getD 0)

/-- NODE_PUSH (R395): a push reaches its node's home, or one that waits for a page looks again. -/
def State.nodePushAt (s : State) (i : Nat) : State :=
  match s.net[i]? with
  | none => s
  | some m =>
    match m.kind with
    | .nodePush a _ =>
      let pa := a.pa
      let waits := ((mget s.nodes pa).map (fun k => k.ops.contains (.push m.id))).getD false
      if m.held.isSome || (s.msgBehind i m && !waits) then s
      else if !s.reach (m.core / 128) pa then s.refuseMsg m (m.failRec 17)
      else
        let s1 : State := { s with nodes := mput s.nodes pa (s.nodeRec pa a.owner m.tag.ctx a.va) }
        s1.arriveNode pa (.push m.id)
    | _ => s

/-- A page returns to its pool (R397, R398). -/
def State.givePage (s : State) (ppa : Nat) (page : Dword) : Except Nat State :=
  match mget s.pools ppa with
  | none => .ok s
  | some p => s.setPool ppa (p.give ((page - p.base).toNat / 65536))

/-- NQPUSH at issue (R394). -/
def nqpushBody (f : LE) (x : Cx) : Iss Rsl := do
  let scope := f.fn.toNat % 8
  needInsn (decide (scope < 7))
  let k := f.md.toNat + 1
  let dst : Src := { f.srcD 2 with zero := false }
  needOpnd (decide (f.sa.toNat < 256)) 0 1
  let srcs := [dst, { f.srcA k with zero := false }]
  let r ← x.peek srcs
  x.counterRoom cS
  x.queueRoom
  let c0 := x.c.emptySrcs srcs
  if x.act = 0 then return { s := x.s, c := ((c0.raise cS x.op).lower cS x.op).waitPoint, adv := true }
  else
    let addr := fun l => pairAt (nthRun r 0) l
    x.deadReads srcs
    let t ← (match x.translateAll x.s .atomic 64 ((laneList x.act).map (fun l => (l, addr l))) with
      | .error (.fault e) => (.error (.fault (if e.xlc = 13 then { e with xlc := 19 } else e)) : Iss (State × List LaneAcc))
      | o => o)
    match t.2.find? (fun a => a.va.toNat % 64 != 0 || !a.isHbm) with
    | some a => .error (.fault (a.failRec 19 x.p.pc 3))
    | none =>
      x.poisonCheck r.flatten
      let accs := t.2.map (fun a => { a with bytes := (((nthRun r 1).map (fun o => leBytes 4 (o.at a.lane).toNat)).flatten).map some })
      let c1 := (c0.raise cS x.op).enqueue x.op x.p.pc (.nqpush k) accs true scope
      return { s := t.1, c := c1.waitAt (x.waitFor 8 0xE8 0 0 0x110 8 (.sqEntry x.op)), adv := true }

/-- NQPUSH at the head of the queue, released (R394). -/
def State.nqpushHead (s : State) (id : Nat) (c : Crew) (e : SqEntry) (k : Nat) : State :=
  s.lanesHead id c e (fun a => .nodePush a k) (fun _ => .read 0)

/-- A wait for a store-queue entry to leave (R394). -/
def State.trySqEntry (s : State) (id : Nat) : State :=
  match mget s.crews id with
  | none => s
  | some c =>
    match c.waitOp with
    | some (.sqEntry op) => if c.sq.any (fun e => e.op == op) then s else s.endWait id none
    | _ => s

/-- The node that NQTAKE names (R393, R398), checked. -/
def Cx.takeNode (x : Cx) (va : Dword) : Iss (State × LaneAcc) := do
  let t ← (match x.translateAll x.s .atomic 64 [(x.lane, va)] with
    | .error (.fault e) => (.error (.fault (if e.xlc = 13 then { e with xlc := 19 } else e)) : Iss (State × List LaneAcc))
    | o => o)
  match t.2 with
  | [] => .error .stall
  | a :: _ =>
    if va.toNat % 64 ≠ 0 ∨ !a.isHbm then .error (.fault (a.failRec 19 x.p.pc 3))
    else if !x.s.reach (x.c.core / 128) a.pa then .error (.fault (a.failRec 17 x.p.pc 3))
    else
      let n := t.1.nodeDesc a.owner a.pa
      if !n.ok then .error (.fault (a.failRec 19 x.p.pc 3))
      else return ({ t.1 with nodes := mput t.1.nodes a.pa (t.1.nodeRec a.pa a.owner x.c.ctx va) }, a)

/-- Takes a node's oldest sealed tile (R398): page and count. -/
def State.takeTile (s : State) (a : LaneAcc) : Except Nat (Option (State × Dword × Nat)) :=
  match mget s.nodes a.pa with
  | none => .ok none
  | some k =>
    match k.sealed with
    | [] => .ok none
    | t :: r => do
      let n := s.nodeDesc k.owner a.pa
      let s1 ← s.nodeWrite k.owner a.pa { n with nready := n.nready - 1 }
      return some (s1.modNode a.pa (fun k => { k with sealed := r, taken := k.taken ++ [(t.1, k.pool)] }), t.1, t.2)

/-- NQTAKE and NQTAKE.try at issue (R398). DESIGN CHOICE: with no acting lane NQTAKE has no effect (R101) but that of a wait point on
the latches and the operand cache (R222). Log entry 128. -/
def nqtakeBody (try_ : Bool) (f : LE) (x : Cx) : Iss Rsl := do
  needInsn (decide (f.md.toNat % 4 ≠ 3))
  dstCheck x.c f.dst 3 false
  let srcs := [f.srcA 2]
  let r ← x.once.peek srcs
  let c0 := x.c.emptySrcs srcs
  if x.act = 0 then return { s := x.s, c := if try_ then c0 else c0.waitPoint, adv := true }
  else
    let va := pairAt (nthRun r 0) x.lane
    x.once.deadReads srcs
    let t ← x.takeNode va
    let a := t.2
    if (t.1.nodeDesc a.owner a.pa).entry ≠ 0 then .error (.fault (a.failRec 19 x.p.pc 3)) else .ok ()
    x.once.poisonCheck r.flatten
    if !try_ then
      return { s := t.1, c := c0.waitAt (x.waitFor 7 f.md.toNat 0 va f.dst 4 (.nqtake a)), adv := true }
    else
      let got ← (match t.1.takeTile a with
        | .error e => (.error (.fault (a.failRec e x.p.pc 3)) : Iss (State × Dword × Nat))
        | .ok g => .ok (g.getD (t.1, 0, 0)))
      let ws := [loWord got.2.1, hiWord got.2.1, BitVec.ofNat 32 got.2.2]
      let c1 := c0.putDests ((ws.zipIdx.map (fun v => regDests c0 f.dst v.2 x.act (.u v.1) 0)).flatten)
      let q := acquireHold got.1 c1 (got.1.scopeWide c1 4)
      return { s := q.1, c := q.2, adv := true }

/-- A crew at NQTAKE takes a sealed tile where there is one (R398). -/
def State.tryNqtake (s : State) (id : Nat) : State :=
  match mget s.crews id with
  | none => s
  | some c =>
    match c.waitOp with
    | some (.nqtake a) =>
      if c.evicted then s
      else
        match s.takeTile a with
        | .error x => s.waitFault id (a.failRec x ((c.wait.map (·.pc)).getD 0) 3)
        | .ok none => s
        | .ok (some (s1, page, n)) =>
          let q := acquireHold s1 c (s1.scopeWide c 4)
          (q.1.setCrew id q.2).endWaitMany id [loWord page, hiWord page, BitVec.ofNat 32 n]
    | _ => s

/-- NQTAKE.ret at issue (R398): it takes one store-queue entry. -/
def nqretBody (f : LE) (x : Cx) : Iss Rsl := do
  let srcs := [f.srcA 2, f.srcB 2]
  let r ← x.once.peek srcs
  x.counterRoom cS
  x.queueRoom
  let c0 := x.c.emptySrcs srcs
  if x.act = 0 then return x.idle c0 cS
  else
    let page := pairAt (nthRun r 1) x.lane
    x.once.deadReads srcs
    let t ← x.takeNode (pairAt (nthRun r 0) x.lane)
    let y : Cx := { x with s := t.1 }
    let u ← y.translateAll t.1 .range 65536 [(x.lane, page)]
    x.once.poisonCheck r.flatten
    let c1 := (c0.raise cS x.op).enqueue x.op x.p.pc .nqret (t.2 :: u.2) false 8
    return { s := u.1, c := c1, adv := true }

/-- The pool of a node, as its descriptor names it (R393, R398). -/
def State.nodePool (s : State) (c : Crew) (a : LaneAcc) : Except XFail (State × Nat) :=
  match s.translate c.unit c.ctx (s.nodeDesc a.owner a.pa).pool .atomic with
  | (_, .error x) => .error x
  | (s1, .ok t) =>
    match t.tgt with
    | .hbm ppa => .ok (s1, ppa)
    | _ => .error { xlc := 19, level := t.level, ent := t.leaf }

/-- NQTAKE.ret at the head of the queue (R398): RWI on the page, and the page returns to the pool it was taken from. -/
def State.nqretHead (s : State) (id : Nat) (c : Crew) (e : SqEntry) : State :=
  match e.accs with
  | a :: b :: _ =>
    match s.nodePool c a with
    | .error x => if 3 ≤ e.stage then s.leave id e.op cS [] else s.crewFault id (x.record e.pc (s.nodeDesc a.owner a.pa).pool .atomic a.lane)
    | .ok (s0, pool) =>
    match s.nodes.find? (fun q => q.2.taken.contains (b.va, pool)) with
    | none => if 3 ≤ e.stage then s.leave id e.op cS [] else s.crewFault id (a.failRec 19 e.pc 3)
    | some q =>
      if e.stage < 3 then
        let sent := s.opSeq
        let s1 := s0.l1Rwi c.core (fun l => s.lineIn [(b.tgt, 65536)] l)
        let ids := (s1.net.filter (fun m => decide (sent ≤ m.id))).map (·.id)
        s1.modSq id e.op (fun x => { x with stage := 3, msgs := ids })
      else if !e.msgs.isEmpty then s
      else
        match (s.modNode q.1 (fun k => { k with taken := k.taken.erase (b.va, pool) })).givePage pool b.va with
        | .error x => s.crewFault id (a.failRec x e.pc 3)
        | .ok s1 => s1.leave id e.op cS []
  | _ => s.leave id e.op cS []

/-! The meanings. -/

/-- NQPUSH (R394). -/
def execNqpush (f : LE) (s : State) : Out := issueW s 0xE8 8 f.g (nqpushBody f) State.trySqEntry
/-- NQTAKE (R398), and MOD 11, which is illegal. -/
def execNqtake (f : LE) (s : State) : Out := issueW s 0xE9 8 f.g (nqtakeBody false f) State.tryNqtake
/-- NQTAKE.try (R398). -/
def execNqtakeTry (f : LE) (s : State) : Out := issue s 0xE9 8 f.g (nqtakeBody true f)
/-- NQTAKE.ret (R398). -/
def execNqtakeRet (f : LE) (s : State) : Out := issue s 0xE9 8 f.g (nqretBody f)
/-- HPUSH (R311). -/
def execHpush (f : LE) (s : State) : Out := issue s 0xEA 8 f.g (hpushBody f)
/-- HDRAIN (R312). -/
def execHdrain (f : LE) (s : State) : Out := issueW s 0xEB 8 f.g (hdrainBody f) State.tryHdrain
/-- HCLR (R310). -/
def execHclr (f : LE) (s : State) : Out := issue s 0xEC 8 f.g (hclrBody f)
/-- HEAP_PUSH_AT_HOME (R311). -/
def execHeapPushAtHome (i : Nat) (s : State) : Out :=
  .next (s.msgStep i (fun k => match k with | .heapPush _ _ _ => true | _ => false) homePush)
/-- NODE_PUSH (R395). -/
def execNodePush (i : Nat) (s : State) : Out := .next (s.nodePushAt i)
/-- NODE_TIMER_EXPIRY (R396). -/
def execNodeTimerExpiry (node : Nat) (s : State) : Out :=
  .next (match mget s.nodes node with
    | some k => if k.timer then (s.modNode node (fun k => { k with timer := false })).arriveNode node (.expiry none) else s
    | none => s)
/-- NODE_PRESSURE_EXPIRY (R396). -/
def execNodePressureExpiry (node : Nat) (s : State) : Out :=
  .next (match mget s.nodes node with
    | some k => if k.press = 0 then s else (s.modNode node (fun k => { k with press := k.press - 1 })).arriveNode node (.expiry none)
    | none => s)

end Sys2Proof.Machine
end

