-- ==== Sys2Proof/Machine/Fetch.lean ====
section
/-!
DEFINITION. Fetching an instruction's bytes (R22): its first halfword, then the rest, each translated for fetch and read at
its home (log entry 15).
-/

namespace Sys2Proof.Machine

/-- Who fetches for a crew. -/
def Crew.fetcher (c : Crew) (id : Nat) : Reader :=
  { die := c.core / 128, unit := c.unit, ctx := c.ctx, who := fetchWho id, num := 0 }

/-- The length in bytes that a first halfword tells (R22). -/
def insnLen (first : Byte) : Nat := if !first.getLsbD 0 then 2 else if first.getLsbD 1 then 8 else 4

/-- What a fetch gives: an instruction's bytes, or the device after what keeps the crew from it. -/
inductive Fetched where
  | word (s : State) (bs : List Byte)
  | out (s : State)

/-- The fault of a fetch (R22, R93): past a speculative fence the crew waits instead (R202). -/
def State.fetchFault (s : State) (id : Nat) (c : Crew) (x : XFail) (va : Dword) : State :=
  if c.fence.isSome then s
  else s.crewFault id { xlc := x.xlc, pc := c.pc, va := va, fent := x.ent, aclass := x.cls 0, level := x.level,
                        flane := ((c.running.map Path.first).getD 0) }

/-- Whether a fetch need not wait for a fence: none is in progress, or its page is in the TLBs (R78). -/
def State.fetchFree (s : State) (c : Crew) (va : Dword) : Bool := c.fence.isNone || s.noWalk c.unit c.ctx va .fetch

/-- Fetches the instruction at the running path's PC (R22). -/
def State.fetch (s : State) (id : Nat) (c : Crew) : Fetched :=
  let keep := fun (r : Reading) => r.s.modCrew id (fun d => { d with fbuf := r.buf })
  if c.pc.getLsbD 0 then .out (s.fetchFault id c { xlc := 20, level := 0, ent := 0 } c.pc)
  else if !s.fetchFree c c.pc then .out s
  else
    let a := s.bufRead (c.fetcher id) .fetch c.fbuf c.pc 2
    match a.got with
    | .wait => .out (keep a)
    | .fail x va => .out (a.s.fetchFault id c x va)
    | .data h p =>
      let n := insnLen (h.getD 0 0)
      if p then .out (a.s.fetchFault id c (a.s.poisonFail (c.fetcher id) .fetch c.pc) c.pc)
      else if n = 2 then .word a.s h
      else if !(s.fetchFree c (c.pc + 2) && s.fetchFree c (c.pc + BitVec.ofNat 64 (n - 2))) then .out a.s
      else
        let b := a.s.bufRead (c.fetcher id) .fetch a.buf (c.pc + 2) (n - 2)
        match b.got with
        | .wait => .out (keep b)
        | .fail x va => .out (b.s.fetchFault id c x va)
        | .data r p =>
          if p then .out (b.s.fetchFault id c (b.s.poisonFail (c.fetcher id) .fetch (c.pc + 2)) (c.pc + 2))
          else .word (if c.fbuf.isEmpty then b.s else keep b) (h ++ r)

end Sys2Proof.Machine
end

