-- ==== Sys2Proof/Machine/Control.lean ====
section
/-!
DEFINITION. Control flow (R400 to R418): BRA, BRX, CALL, CALLX, RET, LAND, RCV, EXIT, LOOP, BRK.
-/

namespace Sys2Proof

/-- The target of the CB form (R39, R412). -/
def CB.target (f : CB) (pc : Dword) : Dword := pc + BitVec.ofInt 64 (2 * f.off.toInt)

end Sys2Proof

namespace Sys2Proof.Machine

/-- The address of the next instruction. -/
def Cx.next (x : Cx) : Dword := x.p.pc + BitVec.ofNat 64 x.len

/-- The running path continues at groups of lanes (R404): split, displacement, and what a taken branch and a path switch
drop (R222). -/
def Crew.goTo (c : Crew) (p : Path) (groups : List (Dword × Lanes)) : Crew :=
  ((c.splitTo p groups).displace.switchFrom (some p)).dropLatches

/-- A branch of some lanes (R411). -/
def Cx.branch (x : Cx) (c : Crew) (target : Dword) (lanes : Lanes) : Rsl :=
  if lanes = 0 then { s := x.s, c := c, adv := true }
  else { s := x.s, c := c.goTo x.p [(target, lanes), (x.next, x.p.mask &&& ~~~lanes)], adv := false }

/-- BRA (R411, R412). -/
def braBody (f : LB) (x : Cx) : Iss Rsl := .ok (x.branch x.c (f.target x.p.pc) x.act)

/-- Writes a call's link (R412): its own address + 8. -/
def Cx.link (x : Cx) (c : Crew) (dst : Desig) (lanes : Lanes) : Crew :=
  let a := x.p.pc + 8
  c.putDests (regDests c dst 0 lanes (.u (loWord a)) 0 ++ regDests c dst 1 lanes (.u (hiWord a)) 0)

/-- CALL (R412). -/
def callBody (f : LB) (x : Cx) : Iss Rsl := do
  dstCheck x.c f.dst 2 false
  return x.branch (x.link x.c f.dst x.act) (f.target x.p.pc) x.act

/-! Indirect jumps (R413). -/

/-- What the classification of a target gives. -/
inductive Landing where
  | good
  | bad
  | ask

/-- Reads one halfword of a target (R413, step 2); past a speculative fence it waits where a walk would be needed (R78). -/
def Cx.landHalf (x : Cx) (r : Reading) (a : Dword) : Reading :=
  match r.got with
  | .data bs _ =>
    if x.c.fence.isSome && !r.s.noWalk x.c.unit x.c.ctx a .fetch then { r with got := .wait }
    else
    let o := r.s.bufRead (x.c.fetcher x.id) .fetch r.buf a 2
    { o with got := (Got.data bs false).join o.got }
  | _ => r

/-- Classifies a target (R413): odd is bad; one that does not translate is good; else a LAND of the class must stand there. -/
def Cx.classify (x : Cx) (s : State) (buf : List (Nat × List Byte × Bool)) (cls : Option (BitVec 4)) (a : Dword) : Reading × Landing :=
  let r0 : Reading := { s := s, buf := buf, got := .data [] false }
  if a.getLsbD 0 then (r0, .bad)
  else
    match cls with
    | none => (r0, .good)
    | some c =>
      let r := x.landHalf (x.landHalf r0 a) (a + 2)
      match r.got with
      | .fail _ _ => (r, .good)
      | .wait => (r, .ask)
      | .data bs _ =>
        let h : Word := BitVec.ofNat 32 (leNat bs)
        (r, if wbits h 0 2 = 3 ∧ wbits h 2 8 = 0xD5 ∧ wbits h 28 4 = c.toNat then .good else .bad)

/-- Where the classification of all targets stands. -/
structure Sorted where
  s    : State
  buf  : List (Nat × List Byte × Bool)
  good : List (Dword × Lanes)
  bad  : Lanes
  ask  : Bool

/-- Classifies the target of every acting lane, lanes with equal targets together (R413). -/
def Cx.sortTargets (x : Cx) (cls : Option (BitVec 4)) (at_ : Nat → Dword) : Sorted :=
  (((laneList x.act).map at_).eraseDups).foldl (fun (r : Sorted) a =>
    let m := lanesWhere x.c.w (fun l => x.act.getLsbD l && at_ l == a)
    let o := x.classify r.s r.buf cls a
    let r1 : Sorted := { r with s := o.1.s, buf := o.1.buf }
    match o.2 with
    | .good => { r1 with good := r1.good ++ [(a, m)] }
    | .bad => { r1 with bad := r1.bad ||| m }
    | .ask => { r1 with ask := true }) { s := x.s, buf := x.c.fbuf, good := [], bad := 0, ask := false }

/-- BADTGT with its lanes (R435). -/
def Trap.badTarget (m : Lanes) : Trap := { cls := 7, sub := 0, arg := 0, lmask := m, aux0 := 0, aux1 := 0, tm := some m }

/-- The bad-target trap (R413): the valid lanes have taken their effect and stand frozen at their targets, and the handler
runs on the bad lanes. -/
def Cx.badTargets (x : Cx) (s : State) (c : Crew) (good : List (Dword × Lanes)) (bad : Lanes) : Rsl :=
  let others := good.filter (fun g => g.2 != 0)
  let rest := c.paths.filter (fun q => !q.run)
  let d : Crew := { c with
    paths := rest ++ others.map (fun g => newPath g.1 g.2 x.p.frame false) ++ [{ x.p with mask := bad, run := true }] }
  { s := s, c := d.enterTrap (s.tentryOf c) x.len (Trap.badTarget bad), adv := false }

/-- The same in a helper (R390, R413): the valid lanes have taken their effect, and each bad lane is a helper error. -/
def Cx.helperTargets (x : Cx) (s : State) (good : List (Dword × Lanes)) (bad : Lanes) : State :=
  let others := good.filter (fun g => g.2 != 0)
  let rest := x.c.paths.filter (fun q => !q.run)
  let d : Crew := { x.c with
    fbuf := []
    paths := rest ++ others.map (fun g => newPath g.1 g.2 x.p.frame false) ++ [{ x.p with mask := bad, run := true }] }
  ((s.storeCrew x.id d).helperTrap x.id (Trap.badTarget bad)).spillFix x.id x.c.paths

/-- BRX, CALLX and RET (R413): cls the class that a LAND must have, link whether the address after goes to DST. -/
def indirectBody (cls : Option (BitVec 4)) (link : Bool) (f : LE) (x : Cx) : Iss Rsl := do
  if link then dstCheck x.c f.dst 2 false else .ok ()
  let srcs := [{ f.srcA 2 with zero := false }]
  let r ← x.fetch srcs
  if x.act = 0 then return { s := x.s, c := x.c.emptySrcs srcs, adv := true }
  else
    let t := x.sortTargets cls (fun l => pairAt (nthRun r 0) l)
    let goodLanes := x.act &&& ~~~t.bad
    let groups := t.good ++ [(x.next, x.p.mask &&& ~~~x.act)]
    if t.ask then .error (if t.s.opSeq = x.s.opSeq then .stall else .again (t.s.modCrew x.id (fun d => { d with fbuf := t.buf })))
    else if t.bad = 0 then
      let c0 := x.c.emptySrcs srcs
      let c1 := if link then x.link c0 f.dst goodLanes else c0
      return { s := t.s, c := c1.goTo x.p groups, adv := false }
    else if x.c.fence.isSome then .error .stall
    else if x.c.isHelper then .error (.again (x.helperTargets t.s groups t.bad))
    else if decide (4 ≤ x.c.frames.length) then .error (.trap (Trap.badTarget t.bad))
    else return x.badTargets t.s (if link then x.link x.c f.dst goodLanes else x.c) groups t.bad

/-! LAND, RCV, BRK. -/

/-- LAND (R414). -/
def landBody (f : LE) (x : Cx) : Iss Rsl := do
  needInsn f.g.ok
  return { s := x.s, c := x.c, adv := true }

/-- RCV (R406, R407). -/
def rcvBody (f : LE) (x : Cx) : Iss Rsl := do
  needInsn f.g.ok
  let parked : Crew := { x.c with paths := x.c.paths.map (fun p =>
    if p.run then { p with tok := f.md.toNat, wait := true, run := false, age := 0 } else p) }
  return { s := x.s, c := parked.settle.switchFrom (some x.p), adv := false }

/-- BRK (R418). -/
def brkBody (f : LE) (x : Cx) : Iss Rsl :=
  if x.act = 0 then .ok { s := x.s, c := x.c, adv := true }
  else .error (.trap { cls := 2, sub := 0, arg := f.md.toNat, lmask := 0, aux0 := 0, aux1 := 0, tm := some x.act })

/-! LOOP (R415). -/

/-- A loop counter. -/
def Crew.loopCnt (c : Crew) (n : Nat) : Word := match n with | 0 => c.lc.1 | 1 => c.lc.2.1 | _ => c.lc.2.2
def Crew.setLoop (c : Crew) (n : Nat) (v : Word) : Crew :=
  { c with lc := match n with | 0 => (v, c.lc.2.1, c.lc.2.2) | 1 => (c.lc.1, v, c.lc.2.2) | _ => (c.lc.1, c.lc.2.1, v) }

/-- LOOP.lcN, the decrement form (R415). -/
def loopDown (n : Nat) (target : Dword) (x : Cx) : Iss Rsl :=
  if x.act = 0 then .ok { s := x.s, c := x.c, adv := true }
  else
    let v := x.c.loopCnt n
    if v.toNat ≤ 1 then .ok { s := x.s, c := x.c.setLoop n 0, adv := true }
    else .ok (x.branch (x.c.setLoop n (v - 1)) target x.act)

/-- LOOP in its long forms (R415): N = 3 is illegal. -/
def loopBody (form : Nat) (f : LB) (x : Cx) : Iss Rsl := do
  let n := f.md.toNat % 4
  needInsn (decide (n < 3))
  match form with
  | 0 => loopDown n (f.target x.p.pc) x
  | 1 =>
    let src : Src := { d := f.dst, xc := 0, dead := false, k := 1, fld := 0, upper := true, zero := true }
    let r ← x.once.fetch [src]
    return { s := x.s, c := if x.act = 0 then x.c else x.c.setLoop n ((nthOpd r 0).at x.lane), adv := true }
  | 2 => return { s := x.s, c := if x.act = 0 then x.c else x.c.setLoop n f.off, adv := true }
  | _ =>
    dstCheck x.c f.dst 1 true
    return { s := x.s, c := x.writeWord x.c f.dst (x.c.loopCnt n), adv := true }

/-! EXIT (R417, R319). -/

/-- Pops the frames that no path is left in (R417), fuel their number. -/
def Crew.popEmpty (c : Crew) (fuel : Nat) : Crew :=
  match fuel with
  | 0 => c
  | n + 1 =>
    if c.frames.isEmpty || c.paths.any (fun p => p.frame == c.frames.length) then c
    else (c.popFrame.settle.closeWindows.dropUpper).popEmpty n

/-- EXIT of some lanes (R417): they leave every path of every frame; a crew without a path has exited. -/
def Crew.exitLanes (c : Crew) (p : Path) (m : Lanes) : Crew :=
  let c1 : Crew := { c.dropLanes m with exited := c.exited ||| m }
  let c2 := (c1.settle.switchFrom (some { p with mask := p.mask &&& ~~~m })).popEmpty 4
  if c2.paths.isEmpty then
    { c2.leaveLoadSet with exited := c2.launched, done := true, active := false }
  else c2

/-- What a surveyor's EXIT waits for, and leaves (R319). -/
def Cx.survExit (x : Cx) : Iss State :=
  let k := x.s.clus x.c.clus
  if k.quads.any (fun e => !e.2.isEmpty) || !k.defer.isEmpty then .error .stall
  else .ok (x.s.setClus x.c.clus { k with dep := [], running := none, root := none })

/-- EXIT (R417). -/
def exitBody (x : Cx) : Iss Rsl := do
  if x.act = 0 then return { s := x.s, c := x.c, adv := true }
  else
    needOpnd (match x.c.recruit with | some q => !x.act.getLsbD q.lane | none => true) 13 4
    let s1 ← if x.c.surv then x.survExit else .ok x.s
    let stays := x.p.mask &&& ~~~x.act
    let at_ : Crew := if stays = 0 then x.c else x.c.setPc x.next
    let c1 := at_.exitLanes x.p x.act
    let s2 := if c1.done then (s1.exitChains x.id).exitTeam x.c.team x.c.teampos else s1
    return { s := s2, c := c1, adv := false }

/-- A crew's active entry is free once it has exited (R431). -/
def execExit (f : LE) (s : State) : Out :=
  match issue s 0xD7 8 f.g exitBody with
  | .next t =>
    .next (match mget t.crews s.focus with
      | some c => if c.done then t.refill c.core (c.crewid / 32) 8 else t
      | none => t)
  | o => o

/-! The meanings. -/

/-- BRA (R412). -/
def execBra (f : LB) (s : State) : Out := issue s 0xD0 8 f.g (braBody f)
/-- BRX (R413). -/
def execBrx (f : LE) (s : State) : Out := issue s 0xD1 8 f.g (indirectBody (some f.md) false f)
/-- CALL (R412). -/
def execCall (f : LB) (s : State) : Out := issue s 0xD2 8 f.g (callBody f)
/-- CALLX (R413). -/
def execCallx (f : LE) (s : State) : Out := issue s 0xD3 8 f.g (indirectBody (some f.md) true f)
/-- RET (R413). -/
def execRet (f : LE) (s : State) : Out := issue s 0xD4 8 f.g (indirectBody none false f)
/-- LAND (R414). -/
def execLand (f : LE) (s : State) : Out := issue s 0xD5 8 Guard.always (landBody f)
/-- RCV (R406). -/
def execRcv (f : LE) (s : State) : Out := issue s 0xD6 8 Guard.always (rcvBody f)
/-- LOOP.lcN (R415). -/
def execLoop (f : LB) (s : State) : Out := issue s 0xD8 8 f.g (loopBody 0 f)
/-- LOOP.set.lcN (R415). -/
def execLoopSet (f : LB) (s : State) : Out := issue s 0xD8 8 f.g (loopBody 1 f)
/-- LOOP.seti.lcN (R415). -/
def execLoopSeti (f : LB) (s : State) : Out := issue s 0xD8 8 f.g (loopBody 2 f)
/-- LOOP.get.lcN (R415). -/
def execLoopGet (f : LB) (s : State) : Out := issue s 0xD8 8 f.g (loopBody 3 f)
/-- BRK (R418). -/
def execBrk (f : LE) (s : State) : Out := issue s 0xD9 8 f.g (brkBody f)
/-- BRA, entry 112 (R40). -/
def execCbBra (f : CB) (s : State) : Out := issue s 0xD0 4 f.g (fun x => .ok (x.branch x.c (f.target x.p.pc) x.act))
/-- LOOP.lc0, entry 113 (R40). -/
def execCbLoopLc0 (f : CB) (s : State) : Out := issue s 0xD8 4 f.g (fun x => loopDown 0 (f.target x.p.pc) x)
/-- LOOP.lc1, entry 114 (R40). -/
def execCbLoopLc1 (f : CB) (s : State) : Out := issue s 0xD8 4 f.g (fun x => loopDown 1 (f.target x.p.pc) x)
/-- LOOP.lc2, entry 115 (R40). -/
def execCbLoopLc2 (f : CB) (s : State) : Out := issue s 0xD8 4 f.g (fun x => loopDown 2 (f.target x.p.pc) x)

end Sys2Proof.Machine
end

