-- ==== Sys2Proof/Machine/CrossLane.lean ====
section
/-!
DEFINITION. Across the lanes: opcodes 0x60 to 0x6A (R294 to R306) and their compact forms (R307), with the trees of R72.
-/

namespace Sys2Proof.Machine

/-- A crew none of whose lanes is missing: W_C = W (R213). -/
def Crew.full (c : Crew) : Bool := c.live == allLanes c.w

/-- Whether a lane takes part (R294). -/
def Cx.acts (x : Cx) (l : Nat) : Bool := x.act.getLsbD l

/-- A cross-lane result that goes to registers (R294): it is written when its window closes (R26). -/
def Cx.lanesResult (x : Cx) (f : L3) (srcs : List Src) (shs : List Shape) : Rsl :=
  x.pendResult f.dst f.ocw (some 2) srcs shs f.la.toNat 0

/-- A result whose only destination is a predicate (R246, R294). -/
def Cx.pendPred (x : Cx) (f : L3) (n : Nat) (srcs : List Src) (sh : Shape) : Rsl :=
  let c1 := x.c.emptySrcs srcs
  let ds : List PDest := { dst := .pred n, lanes := x.act, sh := sh, poison := 0 } :: latchDests 2 x.act sh
  { s := x.s, c := (c1.pendDests x.op f.la.toNat true ds).commit, adv := true }

/-- A lane operand that may be a predicate (R294): its value in a lane, and the registers it reads. -/
structure LaneBit where
  val  : Nat → Word
  srcs : List Src

/-- Reads a predicate or register operand (R294, R297). -/
def Cx.laneBit (x : Cx) (s : Src) : Iss LaneBit :=
  match predOf s.d with
  | some n => do
    needIssue (!x.c.owed (.pred n))
    return { val := fun l => if x.predBit (some n) s.xc l then 1 else 0, srcs := [] }
  | none => do
    let r ← x.fetch [s]
    return { val := fun l => (nthOpd r 0).at l, srcs := [s] }

/-- The segment length of SHFL (R296). -/
def shflSeg (m w : Nat) : Nat := if m / 4 % 8 = 0 then w else 2 ^ (m / 4 % 8)

/-- The lane SHFL reads for lane l at a distance (R296). -/
def shflLane (mode s l d : Nat) : Nat :=
  let sb := l - l % s
  let i := l % s
  match mode with
  | 0 => sb + d % s
  | 1 => sb + (i + s - d % s) % s
  | 2 => sb + (i + d) % s
  | _ => sb + (i ^^^ (d % s))

/-- The distance of SHFL (R296). -/
def shflDist (m s : Nat) (v : Nat) : Nat := if 32 ≤ m then s >>> (v % 8) else v

/-- SHFL (R296): a lane receives what the lane its distance names holds (R227), and consumes the poison of it and of its
own element. -/
def shflBody (f : L3) (x : Cx) : Iss Rsl := do
  let m := f.mod6.toNat
  let s := shflSeg m x.c.w
  needInsn (crossLegal 0x60 f.mod6 && decide (s ≤ x.c.w))
  dstCheck x.c f.dst 1 true
  let srcs := [f.srcA, f.srcB]
  let r ← x.peek srcs
  let a := nthOpd r 0
  let b := nthOpd r 1
  x.deadCheck (x.emptyRead f.srcB)
  let from_ := fun l => shflLane (m % 4) s l (shflDist m s (b.at l).toNat)
  let has := fun l => x.c.live.getLsbD (xmap x.c f.xa.toNat (from_ l))
  x.deadCheck (x.emptyAt f.srcA ((x.lanes.filter has).map from_))
  let hurt := lanesWhere x.c.w (fun l => has l && a.poison.getLsbD (from_ l))
  x.poisonCheck [a, b, { sh := a.sh, poison := hurt }]
  let uni := (a.isU && x.c.full) || (m % 4 == 0 && s == x.c.w && b.isU)
  return x.lanesResult f srcs [uniIf x uni (fun l => if has l then a.at (from_ l) else 0)]

/-- The value of VOTE over the lanes that take part (R297). -/
def voteVal (x : Cx) (op : Nat) (v : Nat → Word) : Word :=
  let n := (x.lanes.filter (fun l => v l != 0)).length
  let yes := fun (b : Bool) => if b then (1 : Word) else 0
  match op with
  | 0 => yes (x.lanes.any (fun l => v l != 0))
  | 1 => yes (x.lanes.all (fun l => v l != 0))
  | 2 => yes (x.lanes.all (fun l => v l == v x.lane))
  | 3 => BitVec.ofNat 32 n
  | _ => BitVec.ofNat 32 (n % 2)

/-- VOTE (R297). -/
def voteBody (f : L3) (x : Cx) : Iss Rsl := do
  let op := f.mod6.toNat % 8
  needInsn (crossLegal 0x61 f.mod6)
  match predOf f.dst with
  | some _ => needOpnd (op != 3) 0 0
  | none => dstCheck x.c f.dst 1 true
  let b ← x.laneBit f.srcA
  let sh : Shape := .u (voteVal x op b.val)
  match predOf f.dst with
  | some n => return x.pendPred f n b.srcs sh
  | none => return x.lanesResult f b.srcs [sh]

/-- A destination of two registers that zero may not stand for (R298, R299). -/
def pairDst (c : Crew) (d : Desig) : Iss Unit := dstCheck c d 2 false

/-- The two words of a lane mask. -/
def maskShapes (m : Lanes) : List Shape := [.u (loWord m), .u (hiWord m)]

/-- BALLOT (R298). -/
def ballotBody (f : L3) (x : Cx) : Iss Rsl := do
  needInsn (crossLegal 0x62 f.mod6)
  pairDst x.c f.dst
  match f.mod6.toNat with
  | 0 =>
    let b ← x.laneBit f.srcA
    return x.lanesResult f b.srcs (maskShapes (lanesWhere x.c.w (fun l => x.acts l && b.val l != 0)))
  | m =>
    let srcs := [f.srcA, f.srcB]
    let r ← x.fetch srcs
    let t := fun l =>
      let a := (nthOpd r 0).at l
      let b := (nthOpd r 1).at l
      match m with
      | 1 => a == b
      | 2 => decide (a.toNat < b.toNat)
      | _ => decide (a.toInt < b.toInt)
    return x.lanesResult f srcs (maskShapes (lanesWhere x.c.w (fun l => x.acts l && t l)))

/-- The group of a lane in MATCH (R299). -/
def matchGroup (x : Cx) (key : Nat → Nat) (l : Nat) : List Nat := x.lanes.filter (fun j => key j == key l)

/-- MATCH (R299). -/
def matchBody (f : L3) (x : Cx) : Iss Rsl := do
  let form := f.mod6.toNat % 4
  let k := if f.mod6.getLsbD 2 then 2 else 1
  needInsn (crossLegal 0x63 f.mod6)
  if form = 0 then pairDst x.c f.dst else dstCheck x.c f.dst 1 true
  let srcs := [{ f.srcA with k := k }]
  let r ← x.fetch srcs
  let grp := fun l => matchGroup x (laneVal (nthRun r 0) (32 * k)) l
  let mask := fun l => lanesWhere x.c.w (fun j => (grp l).contains j)
  let uni := (nthRun r 0).all (·.isU)
  match form with
  | 0 => return x.lanesResult f srcs [uniIf x uni (fun l => loWord (mask l)), uniIf x uni (fun l => hiWord (mask l))]
  | 1 => return x.lanesResult f srcs [uniIf x uni (fun l => BitVec.ofNat 32 ((grp l).headD 0))]
  | 2 =>
    let below := fun l => ((grp l).filter (fun j => decide (j < l))).length
    return x.lanesResult f srcs [uniIf x false (fun l => BitVec.ofNat 32 (below l))]
  | _ => return x.lanesResult f srcs [uniIf x uni (fun l => BitVec.ofNat 32 (grp l).length)]

/-- The operator of REDC and SCAN on two values of w bits (R300). -/
def combine (ty op : Nat) (a b : Nat) : Nat :=
  let w := if 3 ≤ ty then 64 else 32
  let sg := ty == 0 || ty == 3
  if ty = 2 then
    match op with
    | 0 => (f32.addC 0 a b).1
    | 1 => (f32.minmC false a b).1
    | _ => (f32.minmC true a b).1
  else
    match op with
    | 0 => (a + b) % 2 ^ w
    | 1 => if intOf w sg b < intOf w sg a then b else a
    | 2 => if intOf w sg a < intOf w sg b then b else a
    | 3 => a &&& b
    | 4 => a ||| b
    | _ => a ^^^ b

/-- comb of R72, with absent values. -/
def comb (ty op : Nat) (a b : Option Nat) : Option Nat :=
  match a, b with
  | some a, some b => some (combine ty op a b)
  | some a, none => some a
  | none, b => b

/-- The values of the lanes that take part, absent in the others. -/
def Cx.present (x : Cx) (v : Nat → Nat) : List (Option Nat) :=
  (List.range x.c.w).map (fun l => if x.acts l then some (v l) else none)

/-- The tree of REDC (R72): fuel steps of doubling s. -/
def redcTree (ty op : Nat) (fuel s : Nat) (xs : List (Option Nat)) : List (Option Nat) :=
  match fuel with
  | 0 => xs
  | n + 1 =>
    if xs.length ≤ s then xs
    else
      redcTree ty op n (2 * s) ((List.range xs.length).map (fun l =>
        if l % (2 * s) = 0 then comb ty op (xs.getD l none) (xs.getD (l + s) none) else xs.getD l none))

/-- The tree of SCAN (R72). -/
def scanTree (ty op : Nat) (fuel d : Nat) (xs : List (Option Nat)) : List (Option Nat) :=
  match fuel with
  | 0 => xs
  | n + 1 =>
    if xs.length ≤ d then xs
    else
      scanTree ty op n (2 * d) ((List.range xs.length).map (fun l =>
        if d ≤ l then comb ty op (xs.getD (l - d) none) (xs.getD l none) else xs.getD l none))

/-- A result of REDC or SCAN as it is written: a NaN is canonical (R61, R294). -/
def treeOut (ty v : Nat) : Nat := if ty = 2 ∧ (f32.value v).isNan then 0x7FC00000 else v

/-- The registers of a type of REDC and SCAN. -/
def redcRegs (m6 : BitVec 6) : Nat := if 3 ≤ m6.toNat % 8 then 2 else 1

/-- REDC (R300, R301). -/
def redcBody (f : L3) (x : Cx) : Iss Rsl := do
  let k := redcRegs f.mod6
  needInsn (crossLegal 0x64 f.mod6)
  dstCheck x.c f.dst k true
  let srcs := [{ f.srcA with k := k }]
  let r ← x.fetch srcs
  let t := redcTree (f.mod6.toNat % 8) (f.mod6.toNat / 8) 6 1 (x.present (laneVal (nthRun r 0) (32 * k)))
  let v := treeOut (f.mod6.toNat % 8) ((t.headD none).getD 0)
  return x.lanesResult f srcs ((List.range k).map (fun i => .u (BitVec.ofNat 32 (v >>> (32 * i)))))

/-- SCAN (R300, R301). -/
def scanBody (f : L3) (x : Cx) : Iss Rsl := do
  let k := redcRegs f.mod6
  let op := f.mod6.toNat / 8
  needInsn (crossLegal 0x65 f.mod6)
  dstCheck x.c f.dst k true
  let srcs := [{ f.srcA with k := k }]
  let r ← x.fetch srcs
  let t := scanTree (f.mod6.toNat % 8) op 6 1 (x.present (laneVal (nthRun r 0) (32 * k)))
  let uni := x.c.full && (nthRun r 0).all (·.isU) && op != 0 && op != 5
  return x.lanesResult f srcs ((List.range k).map (fun i =>
    uniIf x uni (fun l => BitVec.ofNat 32 (treeOut (f.mod6.toNat % 8) ((t.getD l none).getD 0) >>> (32 * i)))))

/-- COMPACT (R302). -/
def compactBody (f : L3) (x : Cx) : Iss Rsl := do
  needInsn (crossLegal 0x66 f.mod6)
  dstCheck x.c f.dst 1 true
  match predOf f.sb with
  | some _ => .ok ()
  | none => srcCheck x.c f.srcA
  let b ← (match predOf f.sb with
    | some _ => x.laneBit f.srcB
    | none => do
      let r ← x.fetch [f.srcA, f.srcB]
      return { val := fun l => (nthOpd r 1).at l, srcs := [f.srcB] })
  let r ← x.fetch [f.srcA]
  let a := nthOpd r 0
  let sel := x.lanes.filter (fun l => b.val l != 0)
  let at_ := fun l =>
    let k := (x.lanes.filter (fun j => decide (j < l))).length
    match sel[k]? with
    | some j => a.at j
    | none => 0
  let uni := a.isU && x.c.full && x.lanes.all (fun l => b.val l != 0)
  return x.lanesResult f (f.srcA :: b.srcs) [uniIf x uni at_]

/-- NB of HIST and HMERGE (R303). -/
def binCount (m6 : BitVec 6) : Nat := 2 ^ (m6.toNat % 8 + 1)

/-- A direct register, as HIST and HMERGE need for their bins (R303, R304). -/
def directReg (d : Desig) (fld : Nat) : Iss Nat :=
  match place d with
  | some (.reg n) => .ok n
  | _ => illOpnd 0 fld

/-- An addition into a bin, saturating or wrapping (R303). -/
def binAdd (sat : Bool) (old n : Nat) : Nat := if sat then min (old + n) (2 ^ 32 - 1) else (old + n) % 2 ^ 32

/-- HIST (R303). DESIGN CHOICE: the rule says what the bins and l2 take, and nothing of OCW; an operand-cache entry takes what l2
takes. Log entry 39. -/
def histBody (f : L3) (x : Cx) : Iss Rsl := do
  needInsn (crossLegal 0x67 f.mod6)
  let nb := binCount f.mod6
  let d ← directReg f.dst 0
  dstCheck x.c f.dst nb true
  let srcs := [f.srcA, f.srcB]
  let r ← x.fetch srcs
  needIssue ((List.range nb).all (fun b => !x.c.owed (.reg (d + b))))
  let idx := nthOpd r 0
  let num := nthOpd r 1
  let bin := fun l => (idx.at l).toNat
  let old := fun b => mget x.c.regs (d + b)
  x.poisonCheck [{ sh := .u 0, poison := lanesWhere x.c.w (fun l =>
    decide (bin l < nb) && (regPoison (old (bin l))).getLsbD l) }]
  let new := fun l =>
    if bin l < nb then BitVec.ofNat 32 (binAdd (f.mod6.getLsbD 3) (regAt (old (bin l)) l).toNat (num.at l).toNat) else 0
  let srcU := idx.isU && num.isU
  let c1 := x.c.emptySrcs srcs
  let ds := ((List.range nb).map (fun b =>
    let ls := lanesWhere x.c.w (fun l => x.acts l && bin l == b)
    let u := srcU && decide (shapeCode (old b) = 0 ∨ shapeCode (old b) = 3)
    if ls = 0 then []
    else [({ dst := .reg (d + b), lanes := ls, sh := uniIf x u new, poison := 0 } : PDest)])).flatten
  let sh := uniIf x (srcU && decide (shapeCode (old (bin x.lane)) = 0 ∨ shapeCode (old (bin x.lane)) = 3)) new
  let all := ds ++ ocDests f.ocw x.act sh 0 ++ latchDests 2 x.act sh
  return { s := x.s, c := (c1.pendDests x.op f.la.toNat true all).commit, adv := true }

/-- HMERGE (R304): the reads, the write of D, then the clearing of the bins. -/
def hmergeBody (f : L3) (x : Cx) : Iss Rsl := do
  let nb := binCount f.mod6
  needInsn (crossLegal 0x68 f.mod6 && decide (nb ≤ x.c.w))
  dstCheck x.c f.dst 1 true
  let d ← directReg f.sa 1
  let src : Src := { f.srcA with k := nb }
  srcCheck x.c src
  needIssue (!x.owedSrc src)
  let run := (List.range nb).map (fun b => x.readSrc src b)
  x.poisonCheck run
  let t := fun b => binAdd (f.mod6.getLsbD 3) 0
    (x.lanes.foldl (fun a l => a + ((run.getD b ⟨.u 0, 0⟩).at l).toNat) 0)
  let sh := uniIf x false (fun l => if l < nb then BitVec.ofNat 32 (t l) else 0)
  let clr := if f.mod6.getLsbD 4 && x.act != 0 then (List.range nb).map (fun b =>
      ({ dst := .reg (d + b), lanes := allLanes x.c.w, sh := .u 0, poison := 0 } : PDest)) else []
  let ds := regDests x.c f.dst 0 x.act sh 0 ++ ocDests f.ocw x.act sh 0 ++ latchDests 2 x.act sh ++ clr
  return { s := x.s, c := ((x.c.emptySrcs [src]).pendDests x.op f.la.toNat true ds).commit, adv := true }

/-- BSRCH (R305): the table is the whole of C. -/
def bsrchBody (f : L3) (x : Cx) : Iss Rsl := do
  let m := f.mod6.toNat
  needInsn (crossLegal 0x69 f.mod6)
  dstCheck x.c f.dst 1 true
  let srcs := [f.srcA, f.srcB]
  let r ← x.peek srcs
  let a := nthOpd r 0
  let b := nthOpd r 1
  let tab := laneList x.c.live
  x.deadReads srcs
  x.deadCheck (if x.act = 0 then none else x.emptyAt f.srcA tab)
  x.poisonCheck r.flatten
  let hit := fun (e k : Word) =>
    match m % 4 with
    | 0 => if f.mod6.getLsbD 2 then decide (e.toInt < k.toInt) else decide (e.toInt ≤ k.toInt)
    | 1 => if f.mod6.getLsbD 2 then decide (e.toNat < k.toNat) else decide (e.toNat ≤ k.toNat)
    | _ => (f32.cmpC (if f.mod6.getLsbD 2 then 2 else 3) e.toNat k.toNat).1
  return x.lanesResult f srcs [uniIf x b.isU (fun l =>
    BitVec.ofNat 32 (tab.filter (fun j => hit (a.at j) (b.at l))).length)]

/-- Whether lane i stands before lane j in the order of TOPK (R306), by their keys. -/
def topkBefore (m : Nat) (key : Nat → Nat) (i j : Nat) : Bool :=
  let asc := m / 8 % 2 == 1
  let lt := fun (a b : Nat) =>
    match m % 4 with
    | 0 => (f32.value a).lt false (f32.value b)
    | 1 => (bf16.value (a % 65536)).lt false (bf16.value (b % 65536))
    | 2 => decide (signed 32 a < signed 32 b)
    | _ => decide (a < b)
  let nan := fun (a : Nat) =>
    match m % 4 with
    | 0 => (f32.value a).isNan
    | 1 => (bf16.value (a % 65536)).isNan
    | _ => false
  let a := key i
  let b := key j
  if nan a || nan b then (if nan a && nan b then decide (i < j) else nan b)
  else if lt a b then asc
  else if lt b a then !asc
  else decide (i < j)

/-- TOPK (R306). -/
def topkBody (f : L3) (x : Cx) : Iss Rsl := do
  let m := f.mod6.toNat
  needInsn (crossLegal 0x6A f.mod6)
  dstCheck x.c f.dst 1 true
  let srcs := [f.srcA]
  let r ← x.fetch srcs
  let key := laneVal (nthRun r 0) 32
  let pos := fun l => (x.lanes.filter (fun j => topkBefore m key j l)).length
  let at_ := fun l =>
    let k := (x.lanes.filter (fun j => decide (j < l))).length
    (x.lanes.find? (fun j => pos j == k)).getD 0
  return x.lanesResult f srcs
    [uniIf x false (fun l => BitVec.ofNat 32 (if m / 4 % 2 = 0 then pos l else at_ l))]

/-! The meanings. -/

/-- SHFL (R296). -/
def execShfl (f : L3) (s : State) : Out := issue s 0x60 8 f.g (shflBody f)
/-- VOTE (R297). -/
def execVote (f : L3) (s : State) : Out := issue s 0x61 8 f.g (voteBody f)
/-- BALLOT (R298). -/
def execBallot (f : L3) (s : State) : Out := issue s 0x62 8 f.g (ballotBody f)
/-- MATCH (R299). -/
def execMatchLanes (f : L3) (s : State) : Out := issue s 0x63 8 f.g (matchBody f)
/-- REDC (R300, R301). -/
def execRedc (f : L3) (s : State) : Out := issue s 0x64 8 f.g (redcBody f)
/-- SCAN (R300, R301). -/
def execScan (f : L3) (s : State) : Out := issue s 0x65 8 f.g (scanBody f)
/-- COMPACT (R302). -/
def execCompact (f : L3) (s : State) : Out := issue s 0x66 8 f.g (compactBody f)
/-- HIST (R303). -/
def execHist (f : L3) (s : State) : Out := issue s 0x67 8 f.g (histBody f)
/-- HMERGE (R304). -/
def execHmerge (f : L3) (s : State) : Out := issue s 0x68 8 f.g (hmergeBody f)
/-- BSRCH (R305). -/
def execBsrch (f : L3) (s : State) : Out := issue s 0x69 8 f.g (bsrchBody f)
/-- TOPK (R306). -/
def execTopk (f : L3) (s : State) : Out := issue s 0x6A 8 f.g (topkBody f)
/-- SHFL.at.b32, entry 86 (R307). -/
def execC3ShflAtB32 (f : C3) (s : State) : Out := issue s 0x60 4 f.g (shflBody (f.toL3 0x00))
/-- SHFL.xor.b32, entry 87 (R307). -/
def execC3ShflXorB32 (f : C3) (s : State) : Out := issue s 0x60 4 f.g (shflBody (f.toL3 0x03))
/-- REDC.add.i32, entry 88 (R307). -/
def execC3RedcAddI32 (f : C3) (s : State) : Out := issue s 0x64 4 f.g (redcBody (f.toL3u 0x00))
/-- REDC.max.i32, entry 89 (R307). -/
def execC3RedcMaxI32 (f : C3) (s : State) : Out := issue s 0x64 4 f.g (redcBody (f.toL3u 0x10))
/-- REDC.add.f32, entry 90 (R307). -/
def execC3RedcAddF32 (f : C3) (s : State) : Out := issue s 0x64 4 f.g (redcBody (f.toL3u 0x02))
/-- REDC.max.f32, entry 91 (R307). -/
def execC3RedcMaxF32 (f : C3) (s : State) : Out := issue s 0x64 4 f.g (redcBody (f.toL3u 0x12))
/-- SCAN.add.i32, entry 92 (R307). -/
def execC3ScanAddI32 (f : C3) (s : State) : Out := issue s 0x65 4 f.g (scanBody (f.toL3u 0x00))
/-- SCAN.add.f32, entry 93 (R307). -/
def execC3ScanAddF32 (f : C3) (s : State) : Out := issue s 0x65 4 f.g (scanBody (f.toL3u 0x02))

end Sys2Proof.Machine
end

