-- ==== Sys2Proof/Machine/Finish.lean ====
section
/-!
DEFINITION. The end of crews (R382, R397, R417): a crew that has exited gives up its place, completes when its children have,
with a release at die scope; and the names of crews whose place another takes (log entry 9).
-/

namespace Sys2Proof.Machine

/-! Another name for a crew. -/

/-- A tag under a crew's new name. -/
def QTag.rename (f : Nat → Nat) (t : QTag) : QTag := { t with crew := f t.crew }

/-- A crew's own references to others, renamed. -/
def Crew.rename (f : Nat → Nat) (c : Crew) : Crew :=
  { c with
    parent := c.parent.map f
    hgroup := c.hgroup.map (fun h => { h with donor := f h.donor, recruiter := f h.recruiter })
    recruit := c.recruit.map (fun r => { r with waiting := r.waiting.map (fun w => (f w.1, w.2)), groups := r.groups.map f }) }

/-- Gives the record of a crew another key, everywhere it is named. -/
def State.rename (s : State) (old new : Nat) : State :=
  let f := fun (i : Nat) => if i = old then new else i
  let who := fun (i : Nat) => if i = fetchWho old then fetchWho new else if i = saveWho old then saveWho new else f i
  let line := fun (l : Line) => { l with tag := l.tag.map (·.rename f), filler := f l.filler }
  let move := fun (m : NatMap Crew) => match mget m old with
    | some c => mput (mdel m old) new c
    | none => m
  { s with
    crews := (move s.crews).map (fun e => (e.1, e.2.rename f))
    fenceShots := move s.fenceShots
    focus := f s.focus
    agenda := s.agenda.map (fun t => match t with | .crew i => .crew (f i) | t => t)
    teams := s.teams.map (fun e => (e.1, { e.2 with crews := e.2.crews.map f }))
    deques := s.deques.map (fun e => (e.1, e.2.map (fun t => { t with parent := f t.parent })))
    launches := s.launches.map (fun e => (e.1, { e.2 with survs := e.2.survs.map f }))
    l1s := s.l1s.map (fun e => (e.1, e.2.map line))
    victims := s.victims.map (fun e => (e.1, e.2.map (fun v => (v.1, v.2.1, f v.2.2))))
    lastIssue := s.lastIssue.map (fun e => (e.1, f e.2))
    spills := s.spills.map (fun e => (e.1, e.2.map (fun p => { p with line := line p.line })))
    net := s.net.map (fun m => { m with tag := m.tag.rename f })
    peerReqs := s.peerReqs.map (fun q => { q with crew := who q.crew, tag := q.tag.rename who })
    hostReqs := s.hostReqs.map (fun q => { q with crew := who q.crew, tag := q.tag.rename who })
    chains := s.chains.map (fun e => (e.1, { e.2 with
      owners := e.2.owners.map (fun o => (o.1, f o.2)), xops := e.2.xops.map (fun x => (f x.1, x.2)) }))
    clusters := s.clusters.map (fun e => (e.1, { e.2 with accfree := e.2.accfree.map (fun a => { a with crew := f a.crew }) })) }

/-- A key for a crew whose place another takes: its slot stays its remainder by 65,536, or a surveyor's cluster. -/
def State.awayKey (s : State) (id : Nat) : Nat :=
  let key := fun (k : Nat) => 65536 * k + id % 65536 + (if id < 65536 then 0 else 65536 * 65536)
  key (64 + ((List.range (s.crews.length + 1)).find? (fun k => (mget s.crews (key (64 + k))).isNone)).getD 0)

/-- Clears a place for a new record. -/
def State.clearKey (s : State) (id : Nat) : State := if (mget s.crews id).isNone then s else s.rename id (s.awayKey id)

/-! Completion. -/

/-- Whether an exited crew has nothing on its way: its children, its accesses and its queue are done (R153, R382). -/
def Crew.spent (c : Crew) : Bool :=
  c.done && c.out == 0 && c.sq.isEmpty && c.loads.isEmpty && c.unacked.isEmpty && c.rwOps.isEmpty && c.accReads.isEmpty

/-- The lines of a consumer's tile page (R397). -/
def State.tileLines (s : State) (t : Team) : Line → Bool :=
  match t.tile with
  | none => fun _ => false
  | some q =>
    match s.walk 0 q.ctx q.page with
    | .ok (e, lvl, _) => fun l => s.lineIn [(.hbm (leafPa e (pageBits lvl) q.page), 65536)] l
    | .error _ => fun _ => false

/-- The release of a completion begins (R382): the L1 is written back; a consumer's page leaves it as RWI does (R397). -/
def State.beginFinish (s : State) (id : Nat) (c : Crew) : State :=
  let s1 := if c.surv then s else (match mget s.teams c.team with
    | some t => s.l1Rwi c.core (s.tileLines t)
    | none => s).writeBackWhere c.core (fun _ => true)
  let w : Wait := { kind := 0, det := 0, val := 0, addr := 0, dst := 0x110, scope := 8, lanes := 0, pc := 0, num := 0,
                    op := .finish (s1.coreMsgs c.core), owed := none }
  s1.modCrew id (fun d => { d with wait := some w })

/-- A crew's team when it has completed: the team is over with its last crew, and a consumer's page returns (R397). -/
def State.teamDone (s : State) (c : Crew) : State :=
  match mget s.teams c.team with
  | none => s
  | some t =>
    let done := t.done ++ [c.teampos]
    if done.length < t.crews.length then s.modTeam c.team (fun t => { t with done := done })
    else
      let s1 : State := { s with
        teams := mdel s.teams c.team
        launches := match t.launch with
          | some l => mmod s.launches l (fun q => { q with teams := q.teams.filter (fun k => k != c.team) })
          | none => s.launches }
      match t.tile with
      | some q =>
        match s1.givePage q.pool q.page with
        | .ok s2 => s2
        | .error x => s1.nodeFault q.ctx x
      | none => s1

/-- A crew completes (R382): its parent's OUT falls, and its record goes. -/
def State.endFinish (s : State) (id : Nat) (c : Crew) : State :=
  let s1 := match c.parent with
    | some p => s.modCrew p (fun d => { d with out := d.out - 1 })
    | none => s
  let s2 := if c.surv then { s1 with launches := s1.launches.map (fun e => (e.1, { e.2 with survs := e.2.survs.filter (fun k => k != id) })) }
    else s1.teamDone c
  { s2 with crews := mdel s2.crews id, fenceShots := mdel s2.fenceShots id }

/-- CREW_COMPLETE (R382): the release is made, and when it is done the crew completes. -/
def State.finishCrew (s : State) (id : Nat) : State :=
  match mget s.crews id with
  | none => s
  | some c =>
    if !c.spent || c.hgroup.isSome || !s.ctxRuns c.ctx then s
    else
      match c.waitOp with
      | some (.finish msgs) => if s.inFlight msgs then s else s.endFinish id c
      | _ => s.beginFinish id c

/-- A helper group that is over leaves nothing behind once its accesses are done (R386). -/
def State.endGroup (s : State) (id : Nat) : State :=
  match mget s.crews id with
  | none => s
  | some c =>
    if c.hgroup.isSome && c.spent then { s with crews := mdel s.crews id, fenceShots := mdel s.fenceShots id } else s

/-- CREW_COMPLETE (R382). -/
def execCrewComplete (crew : Nat) (s : State) : Out :=
  .next (((s.finishCrew crew).finishCrew crew).endGroup crew)

end Sys2Proof.Machine
end

