-- ==== Sys2Proof/Machine/Traps.lean ====
section
/-!
DEFINITION. TRAP, TRET, SNAP and YIELDPT (R442 to R446), and the hints (R45, R41): issue slots without another effect.
-/

namespace Sys2Proof.Machine

/-- TRAP (R443): MOD 0. -/
def trapBody (f : LE) (x : Cx) : Iss Rsl := do
  needInsn (f.md == 0)
  if x.act = 0 then return { s := x.s, c := x.c, adv := true }
  else .error (.trap { cls := 1, sub := 0, arg := f.fn.toNat, lmask := 0, aux0 := 0, aux1 := 0, tm := none })

/-- A dword of a frame (R440). -/
def Frame.dw (f : Frame) (i : Nat) : Dword :=
  match i with
  | 0 => f.pc
  | 1 => f.rpc
  | 2 => f.cause.setWidth 64
  | 3 => f.tm
  | 4 => f.lmask
  | 5 => f.aux0
  | 6 => f.aux1
  | _ => 0

/-- TRET and TRET.skip (R442, R444), and MOD 4 to 15, which are illegal. -/
def tretBody (skip : Bool) (f : LE) (x : Cx) : Iss Rsl := do
  needInsn (decide (f.md.toNat < 4))
  match x.c.frames.getLast? with
  | none => illInsn
  | some t =>
    if x.act = 0 then return { s := x.s, c := x.c, adv := true }
    else
      let plain := !skip || t.cause.toNat % 256 == 8
      return { s := x.s, c := x.c.leaveTrap (if plain then none else some t.len), adv := false }

/-- TRET.get (R442). -/
def tretGetBody (f : LE) (x : Cx) : Iss Rsl := do
  match x.c.frames.getLast? with
  | none => illInsn
  | some t =>
    dstCheck x.c f.dst 2 false
    let srcs := [f.srcA 1]
    let r ← x.once.peek srcs
    let c0 := x.c.emptySrcs srcs
    if x.act = 0 then return { s := x.s, c := c0, adv := true }
    else
      let i := ((nthOpd r 0).at x.lane).toNat
      needOpnd (decide (i < 8)) 0 1
      x.once.deadReads srcs
      x.once.poisonCheck r.flatten
      let v := t.dw i
      let ds := regDests c0 f.dst 0 x.act (.u (loWord v)) 0 ++ regDests c0 f.dst 1 x.act (.u (hiWord v)) 0
      return { s := x.s, c := c0.putDests ds, adv := true }

/-- TRET.set (R442): only RPC. -/
def tretSetBody (f : LE) (x : Cx) : Iss Rsl := do
  match x.c.frames.getLast? with
  | none => illInsn
  | some t =>
    let srcs := [f.srcA 1, { f.srcB 2 with zero := false }]
    let r ← x.once.peek srcs
    let c0 := x.c.emptySrcs srcs
    if x.act = 0 then return { s := x.s, c := c0, adv := true }
    else
      needOpnd ((nthOpd r 0).at x.lane == 1) 0 1
      x.once.deadReads srcs
      x.once.poisonCheck r.flatten
      let v := pairAt (nthRun r 1) x.lane
      return { s := x.s, c := { c0 with frames := c0.frames.dropLast ++ [{ t with rpc := v }] }, adv := true }

/-- SNAP (R445). -/
def snapBody (f : LE) (x : Cx) : Iss Rsl := do
  needInsn (f.md == 0)
  dstCheck x.c f.dst 1 true
  if x.act = 0 then return { s := x.s, c := x.c, adv := true }
  else
    let on := x.s.snap.progen && x.s.snap.arm
    let s1 := if on then x.s.trigger else x.s
    return { s := s1, c := x.writeWord x.c f.dst (if on then x.s.snap.gen + 1 else 0), adv := true }

/-- YIELDPT (R446): it waits only where the crew is to be evicted here; a crew with an open recruitment is not (R391). -/
def yieldptBody (f : LE) (x : Cx) : Iss Rsl := do
  needInsn (f.md == 0)
  if x.act = 0 || !x.c.yreq || x.c.recruit.isSome then return { s := x.s, c := x.c.waitPoint, adv := true }
  else return { s := x.s, c := x.c.waitAt (x.waitFor 9 0 0 0 0x110 8 .yielded), adv := true }

/-- A crew at a YIELDPT goes on once no yield request is pending for it (R446). -/
def State.tryYield (s : State) (id : Nat) : State :=
  match mget s.crews id with
  | none => s
  | some c =>
    match c.waitOp with
    | some .yielded => if c.yreq then s else s.endWait id none
    | _ => s

/-- A hint (R45): one issue slot. -/
def hintBody (x : Cx) : Iss Rsl := .ok { s := x.s, c := x.c, adv := true }

/-! The meanings. -/

/-- TRAP (R443). -/
def execTrap (f : LE) (s : State) : Out := issue s 0xED 8 f.g (trapBody f)
/-- TRET (R444). -/
def execTret (f : LE) (s : State) : Out := issue s 0xEE 8 f.g (tretBody false f)
/-- TRET.skip (R444). -/
def execTretSkip (f : LE) (s : State) : Out := issue s 0xEE 8 f.g (tretBody true f)
/-- TRET.get (R442). -/
def execTretGet (f : LE) (s : State) : Out := issue s 0xEE 8 f.g (tretGetBody f)
/-- TRET.set (R442). -/
def execTretSet (f : LE) (s : State) : Out := issue s 0xEE 8 f.g (tretSetBody f)
/-- SNAP (R445). -/
def execSnap (f : LE) (s : State) : Out := issue s 0xEF 8 f.g (snapBody f)
/-- YIELDPT (R446). -/
def execYieldpt (f : LE) (s : State) : Out := issueW s 0xA6 8 f.g (yieldptBody f) State.tryYield
/-- NOP (R45). -/
def execNop (s : State) : Out := issue s 0xF0 8 Guard.always hintBody
/-- PRIOH (R45): no effect on a DVX-Z3A. -/
def execPrioh (_ : BitVec 4) (s : State) : Out := issue s 0xF1 8 Guard.always hintBody
/-- LOCH (R45): a line requested into its home L2 slice, which the model does not hold apart from its home (log entry 14). -/
def execLoch (_ : LE) (s : State) : Out := issue s 0xF2 8 Guard.always hintBody
/-- HINT 3 to 15 (R45). -/
def execHint (n : BitVec 4) (s : State) : Out := issue s (0xF0 + n.toNat) 8 Guard.always hintBody
/-- NOP16 (R41). -/
def execNop16 (_ : BitVec 5) (s : State) : Out := issue s 0xF0 2 Guard.always hintBody

end Sys2Proof.Machine
end

