-- ==== Sys2Proof/Machine/Wake.lean ====
section
/-!
DEFINITION. What goes on beside the crews' own instructions: loads return (R134), store-queue entries retire (R141), waits
end (R431), fences complete or roll back (R201, R203), the load limit (R433), walks (R77), freezes and their collection
(R116, R121, R124), PROMOTE's victim (R127), SEQWAIT's polls (R175).
-/

namespace Sys2Proof.Machine

/-- Whether a party's accesses go on (R448, R449): its context is there, and where it is halted neither its records are
written nor has the party itself faulted, whose accesses are held for the resume. -/
def State.memRuns (s : State) (c : Crew) : Bool :=
  match mget s.ctxs c.ctx with
  | some x => !x.halted || (!x.recorded && c.frec.isNone)
  | none => false

/-- Data returns to lanes of a load in flight (R134); the pieces of a VREST return together (R241). -/
def State.loadBack (s : State) (id op : Nat) (lanes : Lanes) : State :=
  match mget s.crews id with
  | none => s
  | some c =>
    match c.loads.find? (fun l => l.op == op) with
    | none => s
    | some ld =>
      if !s.memRuns c then s
      else
        let as := if ld.vrest.isSome then ld.accs else ld.accs.filter (fun a => lanes.getLsbD a.lane)
        let s1 := as.foldl (fun s a => s.captureInOrder id op a) s
        match (mget s1.crews id).bind (fun d => d.loads.find? (fun l => l.op == op)) with
        | some l => if l.vrest.isSome then s1.vrestStep id l else s1.finishLoad id op
        | none => s1

/-- The entry at the head of a store queue, released where it is a release, does what its instruction asks (R141). -/
def State.retireHead (s : State) (id : Nat) (c : Crew) (e : SqEntry) : State :=
  match e.kind with
  | .store pol => s.retireStore id c e pol
  | .atom wt opc ret =>
    if e.stage < 3 then s.startAtom id c e wt opc ret
    else if e.msgs.isEmpty then s.finishAtom id e wt ret
    else s
  | .rel _ => s.leave id e.op cS []
  | .fence => s.leave id e.op cS []
  | .spawn recs => s.spawnHead id c e recs
  | .chtail h => s.chtailHead id e h
  | .txfer h seq bytes => s.submitHead id c e h seq bytes
  | .qfence h seq mask => s.qfenceHead id c e h seq mask
  | .bbinit v => s.barrierHead id c e (.bbinit v) (.bbinit v)
  | .bbarr n => s.barrierHead id c e (.arrive n) (.arrive n)
  | .ttok w => s.ttokHead id c e w
  | .nqpush k => s.nqpushHead id c e k
  | .nqret => s.nqretHead id c e
  | .hpush => s.hpushHead id c e
  | .hclr cap dir => s.hclrHead id c e cap dir
  | .recruit => s.recruitHead id c e

/-- The oldest entry of a store queue moves on (R141); a release comes first (R148, R197). -/
def State.retire (s : State) (id : Nat) : State :=
  match mget s.crews id with
  | none => s
  | some c =>
    match c.sq with
    | [] => s
    | e :: _ =>
      if !s.memRuns c then s
      else if e.rel && decide (e.stage < 2) then s.releaseStage id c e
      else s.retireHead id c e

/-- A crew at a wait point looks at its condition (R155, R431), until its wait has ended. -/
def State.tryWait (s : State) (id : Nat) : State :=
  match mget s.crews id with
  | none => s
  | some c =>
    if !s.ctxRuns c.ctx then s
    else
      match if (c.wait.bind (·.owed)).isSome then none else c.waitOp with
      | none => s
      | some op =>
        match op with
        | .waitc _ => s.tryWaitc id
        | .seqChain _ => s.trySeq id
        | .seqThaw => s.trySeq id
        | .seqMem _ => s.trySeq id
        | .bbwait _ => s.trySeq id
        | .release _ _ _ => s.tryBar id
        | .bar _ _ => s.tryBar id
        | .barw _ => s.tryBar id
        | .syncw => s.trySyncw id
        | .hjoin => s.tryHjoin id
        | .nqtake _ => s.tryNqtake id
        | .hdrain _ _ _ _ _ _ => s.tryHdrain id
        | .sqEntry _ => s.trySqEntry id
        | .freeze _ _ _ _ _ _ => s.tryFreeze id
        | .promote _ _ _ _ _ => s.tryPromote id
        | .grpdef _ _ _ _ => s.tryGrpdef id
        | .crrel _ _ => s.tryCrrel id
        | .accz _ _ => s.tryAccz id
        | .dispatch => s.tryDispatch id
        | .spawn => s.trySpawn id
        | .chain _ => s.tryChain id
        | .yielded => s.tryYield id
        | .finish _ => s.finishCrew id

/-! Load throttling (R433). -/

/-- The next load limit after a window with n lost-locality events. -/
def nextLimit (old n : Nat) : Nat :=
  if 256 ≤ n then (if old = 8 then 4 else 2)
  else if n ≤ 64 then (if old = 2 then 4 else 8)
  else old

/-- A window of a core's lost-locality count ends. -/
def State.endWindow (s : State) (core : Nat) : State :=
  { s with loadLim := mput s.loadLim core (nextLimit (mgetD s.loadLim core 8) (mgetD s.lost core 0)), lost := mput s.lost core 0 }

/-- A held crew enters the load set where there is room, the one that has held longest first. -/
def State.enterLoadSet (s : State) (id : Nat) : State :=
  match mget s.crews id with
  | none => s
  | some c =>
    if c.loadHeld.isSome && s.loadRoom c && !s.heldBefore c && !c.evicted then
      s.setCrew id { c with loadSet := true, loadSlots := 0, loadHeld := none }
    else s

/-- A walk for a requester fills its TLBs and the die's walk cache (R77, R78, R85). A fault is raised by the access that
misses, not here. -/
def State.prewalk (s : State) (unit ctx : Nat) (va : Dword) (acc : Acc) : State :=
  if s.ctxRuns ctx && decide (unit < 352) then (s.translate unit ctx va acc).1 else s

/-! Freezes (R116, R121, R124). -/

/-- A device drops its ordinary copies of a region of another device's memory and acknowledges (R116). -/
def State.freezeDrop (s : State) (dev base n : Nat) : State :=
  if dev = s.devnum then s
  else
    let s1 := s.l1s.foldl (fun (s : State) e =>
      s.dropCleanWhere e.1 (fun l => l.dev == dev && rangesMeet base n (128 * l.ln) 128)) s
    (s1.noFills (fun l => l.dev == dev && rangesMeet base n (128 * l.ln) 128)).send (.freezeAck dev base n)

/-- A freeze acknowledgement arrives (R116); one that comes after its FREEZE has faulted is discarded (R348). -/
def State.freezeAcked (s : State) (entry dev : Nat) : State :=
  { s with freezes := mmod s.freezes entry (fun f => if f.retry then f else { f with acks := f.acks.filter (fun d => d != dev) }) }

/-- The crews whose FREEZE waits for an entry's acknowledgements. -/
def State.freezers (s : State) (entry : Nat) : List Nat :=
  (s.crews.filter (fun e => match e.2.waitOp with | some (.freeze 3 i _ _ _ _) => i == entry | _ => false)).map (·.1)

/-- A device drops the replicas that carry another device's entry, keeps no copy that the device still sends it, and acknowledges
(R121, R206). -/
def State.collectDrop (s : State) (dev entry : Nat) : State :=
  if dev = s.devnum then s
  else
    (s.dropReplicas (fun l => l.kind == .replica entry && l.dev == dev) (fun d => d == dev)).send (.collectAck dev entry)

/-- A THAWFORCE has named this device (R477): it drops every replica it holds, of any entry, and keeps none that is on its way. -/
def State.forcedOut (s : State) : State := s.dropReplicas (fun _ => true) (fun _ => true)

/-- A device is no longer waited for in a collection: its PRESENCE bit goes, and the last one completes it (R121, R477). -/
def State.collected (s : State) (entry dev : Nat) : State :=
  match mget s.freezes entry with
  | some f =>
    if f.state == .thawing && f.asked.contains dev then
      ({ s with freezes := mput s.freezes entry { f with
          asked := f.asked.filter (fun d => d != dev), presence := f.presence.filter (fun d => d != dev) } } : State).thawFree entry
    else s
  | none => s

/-- A collection acknowledgement misses the silence timeout (R124): STUCK, and event 7. DESIGN CHOICE: die 0 logs it; the freeze table
is the device's. Log entry 132. -/
def State.collectStuck (s : State) (entry dev : Nat) : State :=
  match mget s.freezes entry with
  | some f =>
    if f.state == .thawing && f.asked.contains dev then
      ({ s with freezes := mput s.freezes entry { f with stuck := true } } : State).logEvent 0 7 (BitVec.ofNat 64 entry) (BitVec.ofNat 64 dev)
    else s
  | none => s

/-! The meanings. -/

/-- WAIT_WAKE (R431). -/
def execWaitWake (crew : Nat) (s : State) : Out := .next (s.tryWait crew)
/-- LOAD_LIMIT_WINDOW (R433). -/
def execLoadLimitWindow (core : Nat) (s : State) : Out := .next (if core < 256 then s.endWindow core else s)
/-- LOAD_SET_ENTRY (R433). -/
def execLoadSetEntry (crew : Nat) (s : State) : Out := .next (s.enterLoadSet crew)
/-- PAGE_WALK (R77). -/
def execPageWalk (unit ctx : Nat) (va : Dword) (acc : Acc) (s : State) : Out := .next (s.prewalk unit ctx va acc)
/-- LOAD_RETURN (R134). -/
def execLoadReturn (crew op : Nat) (lanes : Lanes) (s : State) : Out := .next (s.loadBack crew op lanes)
/-- STORE_RETIRE (R141). -/
def execStoreRetire (crew : Nat) (s : State) : Out := .next (s.retire crew)
/-- FREEZE_MESSAGE (R116). -/
def execFreezeMessage (dev base len : Nat) (s : State) : Out := .next (s.freezeDrop dev base len)
/-- FREEZE_ACK (R116): the last one completes the FREEZE. -/
def execFreezeAck (entry dev : Nat) (s : State) : Out :=
  .next ((s.freezers entry).foldl (fun (s : State) id => s.tryWait id) (s.freezeAcked entry dev))
/-- COLLECTION_REQUEST (R121). -/
def execCollectionRequest (dev entry : Nat) (s : State) : Out := .next (s.collectDrop dev entry)
/-- COLLECTION_ACK (R121). -/
def execCollectionAck (entry dev : Nat) (s : State) : Out := .next (s.collected entry dev)
/-- COLLECTION_STUCK (R124). -/
def execCollectionStuck (entry dev : Nat) (s : State) : Out := .next (s.collectStuck entry dev)
/-- PROMOTE_REQUEST (R127). -/
def execPromoteRequest (crew : Nat) (s : State) : Out := .next (s.promoteVictim crew)
/-- Whether a fence has a conflict on a line: one that this device's steps have marked, or a write at the home of a peer's line
that a load past the fence has read, which the peer performs (R203). -/
def FenceRun.conflictOn (f : FenceRun) (devnum : Nat) (l : Nat × Nat) : Bool :=
  (f.conflict && f.lines.contains l) || (l.1 != devnum && f.read.contains l)

/-- FENCE_CONFLICT (R203): a conflict on a line is delivered; the line carries its device above bit 36. -/
def execFenceConflict (crew line : Nat) (s : State) : Out :=
  .next (match (mget s.crews crew).bind (·.fence) with
    | some f => if f.conflictOn s.devnum (line / 2 ^ 37, line % 2 ^ 37) then s.rollback crew else s
    | none => s)
/-- FENCE_COMPLETE (R201). -/
def execFenceComplete (crew : Nat) (s : State) : Out := .next (s.fenceEnd crew)
/-- SEQWAIT_POLL (R175). -/
def execSeqwaitPoll (crew : Nat) (s : State) : Out :=
  .next (match (mget s.crews crew).bind Crew.waitOp with
    | some (.seqMem _) => s.tryWait crew
    | _ => s)

end Sys2Proof.Machine
end

