-- ==== Sys2Proof/Machine/Sched.lean ====
section
/-!
DEFINITION. From launch message to issue slot: work queues and launch messages (R420 to R424, R468), placement (R366 to
R370, R425 to R430), node consumers (R397), tasks (R381, R382), completion of launches (R434).
-/

namespace Sys2Proof.Machine

/-! Launch messages (R422). -/

def Launch.dw (l : Launch) (i : Nat) : Dword := l.dws.getD i 0
def Launch.seq (l : Launch) : Word := hiWord (l.dw 0)
def Launch.kind (l : Launch) : Nat := bits (l.dw 0) 18 2
def Launch.coll (l : Launch) : Bool := (l.dw 0).getLsbD 17
def Launch.surv (l : Launch) : Bool := (l.dw 0).getLsbD 16
def Launch.prio (l : Launch) : Nat := bits (l.dw 0) 13 3
def Launch.wc (l : Launch) : Nat := bits (l.dw 0) 11 2
def Launch.w (l : Launch) : Nat := 16 * 2 ^ l.wc
def Launch.nregs (l : Launch) : Nat := 8 * bits (l.dw 0) 0 8
def Launch.gx (l : Launch) : Nat := bits (l.dw 4) 40 24 + 1
def Launch.gy (l : Launch) : Nat := bits (l.dw 4) 28 12 + 1
def Launch.gz (l : Launch) : Nat := bits (l.dw 4) 16 12 + 1
def Launch.lanes (l : Launch) : Nat := bits (l.dw 4) 5 11 + 1
def Launch.afsel (l : Launch) : Nat := bits (l.dw 5) 62 2
def Launch.cmode (l : Launch) : Nat := bits (l.dw 7) 36 2

/-- Teams of a launch, and crews of each team (R369). -/
def Launch.nteams (l : Launch) : Nat := l.gx * l.gy * l.gz
def Launch.ncrews (l : Launch) : Nat := (l.lanes + l.w - 1) / l.w

/-- The queue number that stands for none: the binding under which a launch came has ended. -/
def noQueue : Nat := 4096

/-- A saturating field of a counter (R478). -/
def satField (d : Dword) (lo n : Nat) : Dword :=
  if bits d lo n = 2 ^ n - 1 then d else d + BitVec.ofNat 64 (2 ^ lo)

/-- Counts a launch message that is discarded (R421, R467, R478). -/
def State.queueErr (s : State) (q lo n : Nat) : State :=
  { s with logs := { s.logs with qerr := mput s.logs.qerr q (satField (mgetD s.logs.qerr q 0) lo n) } }

/-- One launch message arrives (R421, R467). -/
def State.acceptLaunch (s : State) (ident : Nat) (dws : List Dword) : State :=
  let d0 := dws.getD 0 0
  let n := bits d0 20 12
  match mget s.queues n with
  | none => s.queueErr n 0 16
  | some q =>
    if q.ident ≠ ident then s.queueErr n 0 16
    else if hiWord d0 ≠ q.expseq then s.queueErr n 32 32
    else if 32 ≤ q.msgs.length then s.queueErr n 16 16
    else
      let l : Launch :=
        { queue := n, dws := dws, checked := false, next := 0, ranges := [], teams := [], survs := [], started := [], drain := none,
          placed := false, status := 0 }
      { s with
        opSeq := s.opSeq + 1
        launches := mput s.launches s.opSeq l
        queues := mput s.queues n { q with expseq := q.expseq + 1, msgs := q.msgs ++ [s.opSeq] } }

/-- Counts a datagram that a host port discards (R466, R468, R474); a port that is not open yet answers nothing (R483). -/
def State.portDrop (s : State) (port : Nat) : State :=
  if s.rot.boot < 7 then s
  else if port = 0 then { s with logs := { s.logs with porterr0 := satField s.logs.porterr0 0 64 } }
  else { s with logs := { s.logs with porterr1 := satField s.logs.porterr1 0 64 } }

/-- What a session's port accepts of an identity's datagrams (R466): none where no session is open, where the sequence number is not
above the last one accepted, or before the ports are open (R483). -/
def State.accept (s : State) (ident seq : Nat) : Option State :=
  match mget s.sessions ident with
  | none => none
  | some q => if seq < q.rxseq || decide (s.rot.boot < 7) then none else some { s with sessions := mput s.sessions ident { q with rxseq := seq + 1 } }

/-- A launch datagram (R468). -/
def State.launchDatagram (s : State) (d : Datagram) : State :=
  match s.accept d.ident d.seq with
  | none => s.portDrop d.port
  | some s =>
    if d.bytes.length % 64 ≠ 0 || d.bytes.isEmpty || decide (1024 < d.bytes.length) then s.portDrop d.port
    else (List.range (d.bytes.length / 64)).foldl (fun (s : State) i =>
      let m := d.bytes.drop (64 * i)
      s.acceptLaunch d.ident ((List.range 8).map (fun j => BitVec.ofNat 64 (leNat ((m.drop (8 * j)).take 8))))) s

/-! Room (R19, R20, R430). -/

/-- Whether a cluster is available (R20). -/
def State.clusterAvail (s : State) (k : Nat) : Bool := s.gzcla.getLsbD k

/-- Usable rows of a partition (R19). -/
def State.rfRows (s : State) (core part : Nat) : Nat := bits (mgetD s.gzcore core 0x888888888) (4 * part) 4

/-- Whether a cluster is a collective partition's (R366). -/
def State.collCluster (s : State) (k : Nat) : Bool := s.ctxs.any (fun e => e.2.collClus.contains k)

/-- What is planned for a partition beside what it holds: crews by core and partition. -/
abbrev Plan := List (Nat × Nat)

/-- Whether a crew holds its registers: it has not exited, or G, A and M do not all read 0 (R417). -/
def Crew.holdsRegs (c : Crew) : Bool := !c.done || [cG, cA, cM].any (fun k => c.cnt k != 0)

/-- The crews resident on a partition: placed, not evicted, and with their registers (R417). -/
def State.residents (s : State) (core part : Nat) : List Crew :=
  ((s.partCrews core part).map (·.2)).filter Crew.holdsRegs

/-- Free words of a partition, where some crews of size words each are planned as well. -/
def State.freeWords (s : State) (core part size : Nat) (plan : Plan) (bare : Bool) : Nat :=
  let used := if bare then 0 else (s.residents core part).foldl (fun n c => n + c.nregs * c.w) 0
  8192 * s.rfRows core part - used - size * (plan.filter (fun p => p.1 == core && p.2 == part)).length

/-- The free resident indices of a partition (R460): no resident crew that holds its registers has them (R417), nor an evicted one of
the same context, to whose save area its index leads. -/
def State.freeIndices (s : State) (ctx core part : Nat) : List Nat :=
  (List.range 32).filter (fun i =>
    !(s.crews.any (fun e => e.2.hgroup.isNone && !e.2.surv && e.2.holdsRegs && e.2.core == core && e.2.crewid == 32 * part + i &&
      (!e.2.evicted || e.2.ctx == ctx))))

/-- Whether a partition has room for a crew of size words (R430), who its context: a free index is one that a crew of that context
may take. Log entry 137. -/
def State.partRoom (s : State) (core part size : Nat) (plan : Plan) (who : Option Nat) : Bool :=
  let here := (plan.filter (fun p => p.1 == core && p.2 == part)).length
  decide (size ≤ s.freeWords core part size plan who.isNone) &&
  decide (here < match who with | none => 32 | some ctx => min (32 - (s.residents core part).length) (s.freeIndices ctx core part).length)

/-- The partition of a core that a crew goes to: the one with the most free words, the lowest of equals (R430). -/
def State.bestPart (s : State) (core size : Nat) (plan : Plan) (who : Option Nat) (ok : Nat → Bool) : Option Nat :=
  let free := fun (p : Nat) => s.freeWords core p size plan who.isNone
  (((List.range 8).filter (fun p => ok p && s.partRoom core p size plan who)).foldl (fun (best : Option Nat) p =>
    match best with
    | none => some p
    | some b => if free b < free p then some p else best) none)

/-- Places n crews on the cores given, in ascending TEAMPOS (R430): those of a context, or, with none, on empty cores. -/
def State.fitOn (s : State) (cores : List Nat) (size n : Nat) (who : Option Nat) (ok : Nat → Nat → Bool) : Option Plan :=
  (List.range n).foldl (fun (r : Option Plan) _ =>
    r.bind (fun plan =>
      (cores.findSome? (fun k => (s.bestPart k size plan who (ok k)).map (fun p => (k, p)))).map (fun x => plan ++ [x]))) (some [])

/-- A team's place at a core, the other core of its pair, or across the pair (R427, R430). -/
def State.fitPair (s : State) (core size n : Nat) (who : Option Nat) (ok : Nat → Nat → Bool) : Option Plan :=
  let other := core / 2 * 2 + (1 - core % 2)
  ((s.fitOn [core] size n who ok).or (s.fitOn [other] size n who ok)).or
    (s.fitOn [core / 2 * 2, core / 2 * 2 + 1] size n who ok)

/-- Clusters of a die in the order of R427's search from cluster c. -/
def nearClusters (c : Nat) : List Nat :=
  c :: ((List.range 32).map (fun i => (if c < i + 1 then [] else [c - (i + 1)]) ++ (if c + (i + 1) < 32 then [c + (i + 1)] else []))).flatten

/-- A team's place by the search of R427 from a preferred core; use says which clusters it may go to. -/
def State.searchPlace (s : State) (ctx pref size n : Nat) (use : Nat → Bool) (ok : Nat → Nat → Bool) : Option Plan :=
  let at_ := fun (die c : Nat) =>
    let k := 32 * die + c
    if !use k then none
    else
      let base := 4 * k
      let first := if c = pref / 4 % 32 then pref % 4 else 0
      (s.fitPair (base + first) size n (some ctx) ok).or (s.fitPair (base + (if first < 2 then 2 else 0)) size n (some ctx) ok)
  let die := pref / 128
  let order := (nearClusters (pref / 4 % 32))
  (order.findSome? (at_ die)).or (order.findSome? (at_ (1 - die)))

/-! Crews placed. -/

/-- The lowest free resident index of a partition. -/
def State.freeIndex (s : State) (ctx core part : Nat) : Option Nat := (s.freeIndices ctx core part).head?

/-- A crew as R370 starts it: every register empty but those filled. -/
def startCrew (core crewid ctx w nregs : Nat) (entry : Dword) (launched : Lanes) (fill : List Word) : Crew :=
  { core := core, crewid := crewid, ctx := ctx, w := w, nregs := nregs, surv := false, entry := entry, launched := launched,
    exited := 0, regs := fill.zipIdx.map (fun v => (v.2, { shape := .u v.1, poison := 0 })), preds := [], ix := [],
    latches := [], oc := [], xdist := 1, xsel := 0, fpctl := 0, fpflags := 0, hcount := 0, origin := core, teamid := 0,
    teampos := 0, grid := (0, 0, 0), team := 0, dre := false, yreq := false, frames := [],
    paths := [newPath entry launched 0 true], lc := (0, 0, 0), cnts := [], cnts2 := [], sq := [], loads := [], pends := [], unacked := [],
    rwOps := [], hold := none, fence := none, wait := none, out := 0, parent := none, recruit := none, hgroup := none,
    active := false, slotNo := 0, issuedAt := 0, readyAt := 0, loadSet := false, loadSlots := 0, loadHeld := none, evicted := false, kept := false,
    done := false, cause := Cause.none, frec := none, helperFault := none, accReads := [], fbuf := [] }

/-- Seats a crew at a resident index of its partition: in the active set where it has a free entry, else pending (R431). -/
def State.seat (s : State) (core part idx : Nat) (c : Crew) : State × Nat :=
  let id := crewSlot core (32 * part + idx)
  let s1 := (s.clearKey id).setCrew id { c with crewid := 32 * part + idx, active := false, readyAt := s.clk }
  (s1.refill core part 8, id)

/-- Sets down a team of crews at their places (R369, R430); mk makes each crew from its core and TEAMPOS. -/
def State.seatTeam (s : State) (ctx : Nat) (plan : Plan) (launch : Option Nat) (tile : Option Tile) (mk : Nat → Nat → Crew) : State :=
  let team := s.opSeq
  let r := plan.zipIdx.foldl (fun (r : State × List Nat) p =>
    match r.1.freeIndex ctx p.1.1 p.1.2 with
    | none => r
    | some i =>
      let o := r.1.seat p.1.1 p.1.2 i { (mk p.1.1 p.2) with team := team, teampos := p.2 }
      (o.1, r.2 ++ [o.2])) ({ s with opSeq := s.opSeq + 1 }, [])
  let t : Team :=
    { ctx := ctx, launch := launch, tile := tile, pair := (plan.map (·.1)).eraseDups.length > 1, crews := r.2, exited := [], done := [],
      bars := [] }
  { r.1 with
    teams := mput r.1.teams team t
    launches := match launch with
      | some l => mmod r.1.launches l (fun q => { q with teams := q.teams ++ [team] })
      | none => r.1.launches }

/-- The lanes launched in a crew of a team (R369). -/
def launchedLanes (lanes w pos : Nat) : Lanes := allLanes (min w (lanes - w * pos))

/-- Sets down the team with a TEAMID of a launch. -/
def State.seatLaunchTeam (s : State) (id : Nat) (l : Launch) (ctx t : Nat) (plan : Plan) : State :=
  let mk := fun (core pos : Nat) =>
    let c := startCrew core 0 ctx l.w l.nregs (l.dw 1) (launchedLanes l.lanes l.w pos) [loWord (l.dw 3), hiWord (l.dw 3)]
    { c with teamid := BitVec.ofNat 32 t,
             grid := (BitVec.ofNat 32 (t % l.gx), BitVec.ofNat 32 (t / l.gx % l.gy), BitVec.ofNat 32 (t / (l.gx * l.gy))) }
  s.seatTeam ctx plan (some id) none mk

/-! Tasks (R381, R382). -/

/-- Whether a core may run the tasks spawned on another: on its die, and on the same side of its context's collective partition. -/
def State.taskMayGo (s : State) (core : Nat) (t : Task) : Bool :=
  let coll := fun (k : Nat) => ((mget s.ctxs t.ctx).map (fun x => x.collClus.contains (clusterOf k))).getD false
  core / 128 == t.origin / 128 && s.clusterAvail (clusterOf core) && coll core == coll t.origin &&
  (coll core || !s.collCluster (clusterOf core))

/-- Whether a context takes new crews: it runs, and no yield is asked of it. -/
def State.placing (s : State) (ctx : Nat) : Bool :=
  match mget s.ctxs ctx with
  | some x => !x.halted && !x.yieldReq && !x.evicted
  | none => false

/-- Whether a partition has room for a task's crew: the W and REGS of its parent (R379, R381). -/
def State.taskFits (s : State) (core part : Nat) (t : Task) : Bool :=
  match mget s.crews t.parent with
  | none => false
  | some p => s.placing t.ctx && s.taskMayGo core t && s.partRoom core part (p.nregs * p.w) [] (some t.ctx)

/-- The deques a core reaches for, in the order of R381; own says that the newest record goes. -/
def takeOrder (core : Nat) : List (Nat × Bool) :=
  let k := core % 4
  let base := core - k
  let die := core / 128
  let first := (base % 128) + 4
  (core, true) :: ((List.range 3).map (fun i => (base + (k + i + 1) % 4, false)) ++
    (List.range 124).map (fun i => (128 * die + (first + i) % 128, false)))

/-- The record that a partition takes next: its deque, its place there, and the record (R381). -/
def State.nextTask (s : State) (core part : Nat) : Option (Nat × Nat × Task) :=
  (takeOrder core).findSome? (fun d =>
    let ts := (mgetD s.deques d.1 []).zipIdx
    let go := fun (e : Task × Nat) => s.taskFits core part e.1
    ((if d.2 then ts.find? go else ts.reverse.find? go)).map (fun e => (d.1, e.2, e.1)))

/-- TASK_TAKE (R381, R382). -/
def State.takeTask (s : State) (core part : Nat) : State :=
  match s.nextTask core part with
  | none => s
  | some (d, i, t) =>
    match mget s.crews t.parent with
    | none => s
    | some p =>
      let s1 : State := { s with deques := mput s.deques d ((mgetD s.deques d []).eraseIdx i) }
      s1.seatTeam t.ctx [(core, part)] none none (fun k _ =>
        { (startCrew k 0 t.ctx p.w p.nregs t.entry (allLanes p.w) [loWord t.arg, hiWord t.arg]) with
          origin := t.origin, parent := some t.parent, teamid := p.teamid, grid := p.grid })

/-- Whether no task of a context waits for a partition, which would go first (R425). -/
def State.noTaskFor (s : State) (ctx core part : Nat) : Bool :=
  !(takeOrder core).any (fun d => (mgetD s.deques d.1 []).any (fun t => t.ctx == ctx && s.taskFits core part t))

/-! The head of a queue (R423, R424). -/

/-- A home address that a context's address translates to, as the device itself looks it up: with R and W, in local HBM. -/
def State.plainPage (s : State) (ctx : Nat) (va : Dword) : Option (Nat × Nat) :=
  match (if va.toNat / 2 ^ 57 ≠ 0 then .error { xlc := 1, level := 0, ent := 0 } else s.walk 0 ctx va : Except XFail (Dword × Nat × List WalkEntry)) with
  | .error _ => none
  | .ok (e, lvl, _) =>
    match s.leafCheck ctx .atomic e lvl va with
    | .ok t => match t.tgt with | .hbm pa => if pteKind e = 0 then some (pa, t.owner) else none | _ => none
    | .error _ => none

/-- MALFORMED (R423). -/
def State.malformed (s : State) (l : Launch) (ctx : Nat) : Bool :=
  l.kind == 3 || l.wc == 3 || l.afsel == 3 || l.cmode == 3 || l.nregs == 0 || decide (1024 < l.nregs) ||
  decide (2 ^ 24 < l.nteams) || decide (32 * l.w < l.lanes) || ((l.surv || l.coll) && l.kind != 2) ||
  (l.kind == 2 && l.surv && l.dw 2 == 0) ||
  (l.kind == 2 && l.coll && ((mget s.ctxs ctx).map (fun x => x.collClus.isEmpty)).getD true)

/-- Clusters that the teams of a launch may go to (R366, R427, R428). -/
def State.launchUses (s : State) (l : Launch) (ctx k : Nat) : Bool :=
  s.clusterAvail k &&
  (if l.kind == 2 && l.coll then ((mget s.ctxs ctx).map (fun x => x.collClus.contains k)).getD false else !s.collCluster k)

/-- The status of a message (R423), 0 where it may be placed. -/
def State.checkLaunch (s : State) (l : Launch) (q : Queue) : Nat :=
  if s.malformed l q.ctx then 1
  else if l.kind = 2 ∧ !q.priv then 2
  else if l.kind = 1 then
    match s.plainPage q.ctx (l.dw 1) with
    | none => 4
    | some (pa, owner) => if (l.dw 1).toNat % 64 = 0 ∧ (s.nodeDesc owner pa).ok then 0 else 4
  else if (List.range 128).any (fun j => s.launchUses l q.ctx (j / 2) &&
      (s.fitPair (2 * j) (l.nregs * l.w) l.ncrews none (fun _ _ => true)).isSome) then 0
  else 3

/-- A message leaves its queue's list of those not fully placed. -/
def State.leaveQueue (s : State) (q id : Nat) : State :=
  { s with queues := mmod s.queues q (fun r => { r with msgs := r.msgs.filter (fun i => i != id) }) }

/-- Checks the heads of the queues (R423): one that is rejected places nothing, and the next becomes the head. -/
def State.checkHeads (s : State) : State :=
  s.queues.foldl (fun (s : State) e =>
    (List.range e.2.msgs.length).foldl (fun (s : State) _ =>
      match mget s.queues e.1 with
      | none => s
      | some q =>
        match q.msgs with
        | [] => s
        | id :: _ =>
          match mget s.launches id with
          | none => s.leaveQueue e.1 id
          | some l =>
            if l.checked then s
            else
              let st := s.checkLaunch l q
              let s1 : State := { s with launches := mput s.launches id { l with checked := true, status := st, placed := st != 0 } }
              if st = 0 then s1 else s1.leaveQueue e.1 id) s) s

/-- Whether a launch's waits hold (R424). -/
def State.waitsHold (s : State) (l : Launch) : Bool :=
  let holds := fun (q : Nat) (n : Word) => match mget s.queues q with
    | some r => seqGe r.cseq n
    | none => false
  (!(l.dw 7).getLsbD 63 || holds (bits (l.dw 7) 50 12) (hiWord (l.dw 6))) &&
  (!(l.dw 7).getLsbD 62 || holds (bits (l.dw 7) 38 12) (loWord (l.dw 6)))

/-- The eligible head of a queue (R424). -/
def State.eligibleHead (s : State) (q : Nat) : Option (Nat × Launch × Queue) :=
  match mget s.queues q with
  | none => none
  | some r =>
    match r.msgs with
    | [] => none
    | id :: _ =>
      match mget s.launches id with
      | none => none
      | some l => if l.checked && s.waitsHold l && s.placing r.ctx then some (id, l, r) else none

/-! Affinity (R427). -/

/-- The preferred core of data affinity: a local address and a number. -/
def dataCore (k t : Nat) : Nat :=
  let d := if k < Config.hbmBytes then homeDie k else t % 2
  let slice := homeSlice k % 64
  128 * d + 4 * (slice / 2) + 2 * (slice % 2) + t % 2

/-- The preferred core of a launch's team. -/
def Launch.prefers (l : Launch) (t : Nat) : Nat :=
  let k := (bits (l.dw 5) 0 44 + t * bits (l.dw 5) 44 18 * 65536) % 2 ^ 44
  match l.afsel with
  | 0 =>
    let h := t * 0x9E3779B1 % 2 ^ 32
    4 * (h / 2 ^ 26) + h / 2 ^ 24 % 4
  | 1 => dataCore k t
  | _ => 4 * (k % 64) + t % 4

/-- The place of a grid launch's next team. -/
def State.gridPlace (s : State) (l : Launch) (ctx : Nat) : Option Plan :=
  s.searchPlace ctx (l.prefers l.next) (l.nregs * l.w) l.ncrews (s.launchUses l ctx) (s.noTaskFor ctx)

/-- The cluster whose distributor hands out a team on a die now, its core, and the place (R428): an available cluster (R20). -/
def State.privPlace (s : State) (l : Launch) (ctx die : Nat) : Option (Nat × Nat × Plan) :=
  (l.ranges.filter (fun r => r.1 / 32 == die && s.clusterAvail r.1 && decide (r.2.1 < r.2.2))).findSome? (fun r =>
    let turn := mgetD s.rr (1048576 + r.1) 0
    (List.range 4).findSome? (fun i =>
      let core := 4 * r.1 + (turn + i) % 4
      let on := fun (cores : List Nat) => s.fitOn cores (l.nregs * l.w) l.ncrews (some ctx) (s.noTaskFor ctx)
      let fit := (on [core]).or
        (if (on [core / 2 * 2 + (1 - core % 2)]).isSome then none else on [core / 2 * 2, core / 2 * 2 + 1])
      fit.map (fun p => (r.1, core % 4, p))))

/-- What a placer may set down next. -/
inductive Pick where
  | grid (queue id : Nat) (l : Launch) (ctx : Nat) (plan : Plan)
  | priv (queue id : Nat) (l : Launch) (ctx cluster core : Nat) (plan : Plan)
  | node (t : Tile) (plan : Plan)

/-- A queue's candidate on a die, and its priority (R425). -/
def State.queuePick (s : State) (die q : Nat) : Option (Nat × Pick) :=
  match s.eligibleHead q with
  | none => none
  | some (id, l, r) =>
    match l.kind with
    | 0 =>
      match s.gridPlace l r.ctx with
      | some p => if (p.head?.map (fun x => x.1 / 128)) == some die then some (l.prio, .grid q id l r.ctx p) else none
      | none => none
    | 2 => (s.privPlace l r.ctx die).map (fun x => (l.prio, .priv q id l r.ctx x.1 x.2.1 x.2.2))
    | _ => none

/-- A sealed tile's consumer on a die, and its priority (R397, R425). -/
def State.tilePick (s : State) (die : Nat) (t : Tile) : Option (Nat × Pick) :=
  match mget s.nodes t.node with
  | none => none
  | some k =>
    if homeDie t.node ≠ die || !s.placing t.ctx then none
    else
      let n := s.nodeDesc k.owner t.node
      let pa := ((s.plainPage t.ctx t.page).map (·.1)).getD 0
      let w := 16 * 2 ^ n.wc
      (s.searchPlace t.ctx (dataCore pa t.nseal) (8 * n.regs8 * w) 1 (fun c => s.clusterAvail c && !s.collCluster c) (s.noTaskFor t.ctx)).map
        (fun p => (n.prio, .node t p))

/-- The queues in the order a die serves them (R425): ascending, from after the last one served. -/
def State.queueOrder (s : State) (die : Nat) : List Nat :=
  let qs := s.queues.map (·.1)
  let last := mgetD s.rr die 0
  qs.filter (fun q => decide (last ≤ q)) ++ qs.filter (fun q => decide (q < last))

/-- The candidate of the highest priority, the first of equals. -/
def bestPick (ps : List (Nat × Pick)) : Option Pick :=
  (ps.foldl (fun (best : Option (Nat × Pick)) p =>
    match best with
    | none => some p
    | some b => if b.1 < p.1 then some p else best) none).map (·.2)

/-- A launch whose last team is placed leaves its queue's list (R420, R424). -/
def State.placedAll (s : State) (q id : Nat) (all : Bool) : State :=
  if all then
    let s1 : State := { s with launches := mmod s.launches id (fun l => { l with placed := true }) }
    s1.leaveQueue q id
  else s

/-- A consumer is set down (R397): it starts as after ACQ.chip. -/
def State.seatConsumer (s : State) (t : Tile) (plan : Plan) : State :=
  match mget s.nodes t.node with
  | none => s
  | some k =>
    let n := s.nodeDesc k.owner t.node
    let w := 16 * 2 ^ n.wc
    let s1 : State := { s with sealedQ := s.sealedQ.filter (fun q => q.seq != t.seq) }
    let s2 := s1.seatTeam t.ctx plan none (some t) (fun core _ =>
      startCrew core 0 t.ctx w (8 * n.regs8) n.entry (allLanes w)
        [loWord n.param, hiWord n.param, loWord t.page, hiWord t.page, BitVec.ofNat 32 t.count])
    match plan with
    | p :: _ => s2.dropCleanWhere p.1 (fun _ => true)
    | [] => s2

/-- PLACE_TEAM (R425): a die's placer sets down one team or one consumer. -/
def State.place (s : State) (die : Nat) : State :=
  let s1 := s.checkHeads
  let picks := (s1.queueOrder die).filterMap (s1.queuePick die) ++ s1.sealedQ.filterMap (s1.tilePick die)
  match bestPick picks with
  | none => s1
  | some (.grid q id l ctx plan) =>
    let s2 := s1.seatLaunchTeam id l ctx l.next plan
    let s3 : State := { s2 with launches := mmod s2.launches id (fun l => { l with next := l.next + 1 }), rr := mput s2.rr die (q + 1) }
    s3.placedAll q id (decide (l.nteams ≤ l.next + 1))
  | some (.priv q id l ctx cluster core plan) =>
    let t := ((l.ranges.find? (fun r => r.1 == cluster)).map (·.2.1)).getD 0
    let rest := l.ranges.map (fun r => if r.1 = cluster then (r.1, r.2.1 + 1, r.2.2) else r)
    let s2 := s1.seatLaunchTeam id l ctx t plan
    let s3 : State := { s2 with
      launches := mmod s2.launches id (fun l => { l with ranges := rest })
      rr := mput (mput s2.rr die (q + 1)) (1048576 + cluster) ((core + 1) % 4) }
    s3.placedAll q id (rest.all (fun r => decide (r.2.2 ≤ r.2.1)))
  | some (.node t plan) => s1.seatConsumer t plan

/-! Node drains (R423, R396). -/

/-- NODE_DRAIN_MESSAGE (R423): the home of the node performs one timer expiry. -/
def State.drainNode (s : State) (q : Nat) : State :=
  let s1 := s.checkHeads
  match s1.eligibleHead q with
  | none => s1
  | some (id, l, r) =>
    if l.kind ≠ 1 then s1
    else
      match s1.plainPage r.ctx (l.dw 1) with
      | none => s1
      | some (pa, owner) =>
        let s2 : State := { s1 with nodes := mput s1.nodes pa (s1.nodeRec pa owner r.ctx (l.dw 1)) }
        (s2.placedAll q id true).arriveNode pa (.expiry (some id))

/-! Privileged launches (R428, R429). -/

/-- Parts of [lo, hi) for each of some clusters: contiguous, equal, the lower taking the remainder. -/
def splitRange (lo hi : Nat) (ks : List Nat) : List (Nat × Nat × Nat) :=
  let n := hi - lo
  let m := ks.length
  let at_ := fun (i : Nat) => lo + i * (n / m) + min i (n % m)
  ks.zipIdx.map (fun k => (k.1, at_ k.2, at_ (k.2 + 1)))

/-- The surveyor of a cluster starts for a launch, once (R319, R429). -/
def State.startSurveyor (s : State) (id : Nat) (l : Launch) (ctx cluster : Nat) : State :=
  let key := survSlot cluster
  let c : Crew := { (startCrew (4 * cluster) (256 + cluster % 32) ctx 1 256 (l.dw 2) 1 []) with surv := true, active := true, issuedAt := s.clk }
  { (s.clearKey key).setCrew key c with
    launches := mmod s.launches id (fun q => { q with survs := q.survs ++ [key], started := q.started ++ [cluster] }) }

/-- Whether a cluster's surveyor runs no program (R428): none has been started there, or it has exited or been evicted (R456). -/
def State.survFree (s : State) (k : Nat) : Bool := ((mget s.crews (survSlot k)).map (fun c => c.evicted || c.done)).getD true

/-- PRIVILEGED_DISTRIBUTE (R428): the range of teams goes down the tree of distributors; the lower die takes the remainder. -/
def State.distribute (s : State) (q : Nat) : State :=
  let s1 := s.checkHeads
  match s1.eligibleHead q with
  | none => s1
  | some (id, l, r) =>
    if l.kind ≠ 2 || !l.ranges.isEmpty then s1
    else
      let ks := (List.range 64).filter (fun k => s1.launchUses l r.ctx k && (!l.surv || s1.survFree k))
      if ks.isEmpty then s1
      else
        let k0 := ks.filter (fun k => decide (k < 32))
        let k1 := ks.filter (fun k => decide (32 ≤ k))
        let cut := (l.nteams * k0.length + ks.length - 1) / ks.length
        let ranges := splitRange 0 cut k0 ++ splitRange cut l.nteams k1
        let s2 : State := { s1 with launches := mmod s1.launches id (fun q => { q with ranges := ranges }) }
        if l.surv then
          (ranges.filter (fun x => decide (x.2.1 < x.2.2))).foldl (fun (s : State) x => s.startSurveyor id l r.ctx x.1) s2
        else s2

/-- The largest remaining range among some, the lowest-numbered of equals. -/
def largestRange (rs : List (Nat × Nat × Nat)) : Option (Nat × Nat × Nat) :=
  rs.foldl (fun best r =>
    match best with
    | none => if r.2.1 < r.2.2 then some r else none
    | some b => if b.2.2 - b.2.1 < r.2.2 - r.2.1 then some r else best) none

/-- DISTRIBUTOR_STEAL (R428): a cluster's distributor that has run out takes the upper half of a sibling's range, and where its
die has run out, of the other die's. Only an available cluster takes teams (R20), and it takes the whole range of one that has
become unavailable, which hands out none. DESIGN CHOICE. Log entry 120. -/
def State.steal (s : State) (id cluster : Nat) : State :=
  match mget s.launches id with
  | none => s
  | some l =>
    match mget s.queues l.queue, l.ranges.find? (fun r => r.1 == cluster) with
    | some q, some mine =>
      if mine.2.1 < mine.2.2 || !s.placing q.ctx || !s.clusterAvail cluster then s
      else
        let near := largestRange (l.ranges.filter (fun r => r.1 / 32 == cluster / 32))
        match near.or (largestRange (l.ranges.filter (fun r => r.1 / 32 != cluster / 32))) with
        | none => s
        | some v =>
          let half := if s.clusterAvail v.1 then (v.2.2 - v.2.1) / 2 else v.2.2 - v.2.1
          let fresh := l.surv && !l.started.contains cluster
          if half = 0 || (fresh && !s.survFree cluster) then s
          else
            let cut := v.2.2 - half
            let s1 : State := { s with launches := mput s.launches id { l with ranges := l.ranges.map (fun r =>
              if r.1 = v.1 then (r.1, r.2.1, cut) else if r.1 = cluster then (r.1, cut, v.2.2) else r) } }
            if fresh then s1.startSurveyor id l q.ctx cluster else s1
    | _, _ => s

/-! Completion (R434). -/

/-- Who writes a completion record. -/
def recordWho : Nat := 589824

/-- A completion record could not be written (R434, R479). -/
def State.recordLost (s : State) (q : Nat) (seq : Word) (xlc : Nat) : State :=
  s.logEvent 0 11 (BitVec.ofNat 64 q) (BitVec.ofNat 64 (seq.toNat * 2 ^ 32 + xlc % 2 ^ 8))

/-- The record is written to CADDR as one store (R434); a failure is logged and halts nobody. -/
def State.writeCompletion (s : State) (n : Nat) (q : Queue) (seq : Word) (status : Nat) : State :=
  let bs := leBytes 8 (status * 2 ^ 32 + seq.toNat)
  match (if q.caddr.toNat / 2 ^ 57 ≠ 0 then .error { xlc := 1, level := 0, ent := 0 } else s.walk 0 q.ctx q.caddr : Except XFail (Dword × Nat × List WalkEntry)) with
  | .error x => s.recordLost n seq x.xlc
  | .ok (e, lvl, _) =>
    match s.leafCheck q.ctx .store e lvl q.caddr with
    | .error x => s.recordLost n seq x.xlc
    | .ok t =>
      match t.tgt with
      | .hbm pa =>
        match s.homeStore t.owner (maskedCells pa (bs.map some)) false with
        | .error x => s.recordLost n seq x
        | .ok s1 => s1
      | .peer dev pa =>
        if !s.peerPath dev then s.recordLost n seq 17
        else (s.askPeer (engTag recordWho q.ctx q.caddr t.leaf t.level) n seq.toNat dev pa t.owner (.write (bs.map some) false)).1
      | .host off => (s.askHost (engTag recordWho q.ctx q.caddr t.leaf t.level) n seq.toNat off 8 true bs).1
      | .gaz _ => s

/-- CSEQ takes in the completed numbers that follow it (R420, R434), fuel their number. -/
def Queue.advance (q : Queue) (fuel : Nat) : Queue :=
  match fuel with
  | 0 => q
  | f + 1 =>
    if q.finished.contains (q.cseq + 1) then
      ({ q with cseq := q.cseq + 1, finished := q.finished.filter (fun n => n != q.cseq + 1) } : Queue).advance f
    else q

/-- Whether a launch is complete (R423, R434): its teams and surveyors are done; for a node's drain, the consumers of the tiles
sealed by its expiry or before. -/
def State.launchDone (s : State) (l : Launch) : Bool :=
  l.placed && l.teams.isEmpty && l.survs.isEmpty &&
  (l.status != 0 || l.kind != 1 ||
    (match l.drain with
     | none => false
     | some (node, n) =>
       let before := fun (t : Tile) => t.node == node && decide (t.seq < n)
       !s.sealedQ.any before && !s.teams.any (fun e => (e.2.tile.map before).getD false)))

/-- LAUNCH_COMPLETE (R434): the writes of its crews have been released as each completed; CSEQ, the record and the frame follow. -/
def State.endLaunch (s : State) (id : Nat) : State :=
  match mget s.launches id with
  | none => s
  | some l =>
    if !s.launchDone l then s
    else
      let s1 : State := { s with launches := mdel s.launches id }
      match mget s1.queues l.queue with
      | none => s1
      | some q =>
        let q1 := ({ q with finished := q.finished ++ [l.seq] } : Queue).advance (q.finished.length + 1)
        let s2 : State := { s1 with queues := mput s1.queues l.queue q1 }
        let s3 := if l.cmode ≠ 0 then s2.writeCompletion l.queue q l.seq l.status else s2
        if l.cmode = 2 ∧ (mget s3.sessions q.ident).isSome then
          s3.send (.completion q.ident (leBytes 4 l.queue ++ leBytes 4 l.seq.toNat ++ leBytes 8 l.status))
        else s3

/-! The meanings. -/

/-- LAUNCH_DATAGRAM (R421, R468). -/
def execLaunchDatagram (d : Datagram) (s : State) : Out := .next (s.launchDatagram d)
/-- PLACE_TEAM (R425). -/
def execPlaceTeam (die : Nat) (s : State) : Out := .next (if die < 2 then s.place die else s)
/-- NODE_DRAIN_MESSAGE (R423). -/
def execNodeDrainMessage (queue : Nat) (s : State) : Out := .next (s.drainNode queue)
/-- PRIVILEGED_DISTRIBUTE (R428). -/
def execPrivilegedDistribute (queue : Nat) (s : State) : Out := .next (s.distribute queue)
/-- DISTRIBUTOR_STEAL (R428). -/
def execDistributorSteal (launch cluster : Nat) (s : State) : Out := .next (s.steal launch cluster)
/-- TASK_TAKE (R381, R382). -/
def execTaskTake (core part : Nat) (s : State) : Out := .next (if core < 256 ∧ part < 8 then s.takeTask core part else s)
/-- LAUNCH_COMPLETE (R434). -/
def execLaunchComplete (launch : Nat) (s : State) : Out := .next (s.endLaunch launch)

end Sys2Proof.Machine
end

