-- ==== Sys2Proof/Machine/Remote.lean ====
section
/-!
DEFINITION. Traffic with other devices and the host window: requests of peers at this device's homes (R149, R208, R345, R349),
replies (R149, R474), refusals (R144), silence (R348).
-/

namespace Sys2Proof.Machine

/-! Requests of peers. -/

/-- The bytes a peer's request touches. -/
def opSpan (o : PeerOp) : Nat :=
  match o with
  | .read n => max n 1
  | .line _ _ => 128
  | .write bs _ => max bs.length 1
  | .atom _ wt _ _ => wtBytes wt
  | .arrive _ => 16
  | .bbinit _ => 16
  | .heapPush _ _ => 64
  | .heapClr _ _ => 64
  | .heapDrain _ _ => 64
  | .frzq => 1

/-- Performs a request that takes effect once (R349): a tag that was performed is answered with what it gave. -/
def State.onceFor (s : State) (r : PeerRequest) (n : Nat) (run : State → Except Nat (State × List Nat)) : State × Nat × List Byte :=
  let hist := mgetD s.atomHist r.dev []
  match hist.find? (fun h => h.1 == r.tag) with
  | some h => (s, 0, (h.2.map (fun v => leBytes n v.toNat)).flatten)
  | none =>
    match run s with
    | .error x => (s, x, [])
    | .ok (s1, olds) =>
      let all := hist ++ [(r.tag, olds.map (BitVec.ofNat 64))]
      ({ s1 with atomHist := mput s1.atomHist r.dev (all.drop (all.length - 4096)) }, 0, (olds.map (leBytes n)).flatten)

/-- A peer's read of a line for a copy (R118): whole, as a replica where an entry covers it for that device; only the bytes wanted
where the line is not to be kept, in an open heap (R309) or a declared range (R110). -/
def State.serveLine (s : State) (r : PeerRequest) (off n : Nat) : State × Nat × List Byte × Option Nat :=
  let part := (s.rangeAt r.pa).isSome || s.heapHit r.pa 128 false
  match s.homeLoad r.owner (if part then r.pa + off else r.pa) (if part then n else 128) with
  | .error x => (s, x, [], none)
  | .ok (s1, bs, p) =>
    let ent := if part then none else s1.replicaEntry r.pa r.dev
    let s2 := match ent with | some e => s1.present e r.dev | none => s1
    (s2, if p then 10 else 0, if p && !part then bs ++ [(s2.linePoison (r.pa / 128)).setWidth 8] else bs, ent)

/-- A peer's request at this device's home: the device, the status, the data, a replica's entry (R118, R149). -/
def State.serveAt (s : State) (r : PeerRequest) : State × Nat × List Byte :=
  let did := fun (e : Except Nat State) => e.map (fun t => (t, []))
  if !inHbm r.pa (opSpan r.op) then (s, 7, [])
  else
    match r.op with
    | .read n =>
      match s.homeLoad r.owner r.pa n with
      | .error x => (s, x, [])
      | .ok (s1, bs, p) =>
        if p then (s1, 10, if n = 128 then bs ++ [(s1.linePoison (r.pa / 128)).setWidth 8] else bs) else (s1, 0, bs)
    | .line _ _ => (s, 7, [])
    | .write bs mark =>
      match s.homeStore r.owner (maskedCells r.pa bs) mark with
      | .error x => (s, x, [])
      | .ok s1 => (s1, 0, [])
    | .atom op wt _ ops =>
      s.onceFor r (wtBytes wt) (fun s =>
        (s.homeAtom op.toNat wt.toNat (ops.map (fun o =>
          { lane := 0, owner := r.owner, pa := r.pa, n := wtBytes wt, x := o.1, y := o.2 }))).map
          (fun t => (t.1, t.2.map (·.2))))
    | .arrive n => s.onceFor r 0 (fun s => did (s.homeArrive r.owner r.pa n))
    | .bbinit v => s.onceFor r 0 (fun s => did (s.homeBbinit r.owner r.pa v))
    | .heapPush k t => s.onceFor r 0 (fun s => did (s.homeHpush r.owner r.pa k t))
    | .heapClr cap dir => s.onceFor r 0 (fun s => did (s.homeHclr r.owner r.pa cap dir))
    | .heapDrain keep n =>
      let h := s.heapHdr r.owner r.pa
      if h.ok && h.count != n then (s, 255, [])
      else
        match s.homeHdrain r.owner r.pa keep with
        | .error x => (s, x, [])
        | .ok (s1, _, es) => (s1, 0, entriesBytes es)
    | .frzq => (s, 0, leBytes 4 (s.frzqWord r.pa).toNat)

/-- The same with the entry that a replica fill carries (R118). -/
def State.serve (s : State) (r : PeerRequest) : State × Nat × List Byte × Option Nat :=
  match r.op with
  | .line off n => if inHbm r.pa 128 then s.serveLine r off n else (s, 7, [], none)
  | _ => let o := s.serveAt r; (o.1, o.2.1, o.2.2, none)

/-- A peer's request is performed and answered; dies that are not released answer nothing (R483). -/
def State.request (s : State) (r : PeerRequest) : State :=
  if !s.rot.released then s
  else
    let o := s.serve r
    o.1.send (.reply r.dev r.tag o.2.1 o.2.2.1 o.2.2.2)

/-! Replies. -/

/-- The class of a request's access (R452). -/
def opCls (o : PeerOp) : Nat := match o with | .read _ => 1 | .line _ _ => 1 | .write _ _ => 2 | .frzq => 4 | _ => 3

/-- The class of the access that a request is of, by its requester (R452). -/
def PeerReq.cls (q : PeerReq) : Nat :=
  if saveWho 0 ≤ q.crew then 10
  else if fetchWho 0 ≤ q.crew then 0
  else if 262144 ≤ q.crew ∧ q.crew < 262656 then (match q.what with | .read _ => 7 | _ => 8)
  else if 393216 ≤ q.crew ∧ q.crew < 409600 then (match q.what with | .read _ => 6 | w => opCls w)
  else opCls q.what

/-- The fault of a request (R93, R144). -/
def PeerReq.failRec (q : PeerReq) (xlc cls : Nat) : FaultRec :=
  { xlc := xlc, pc := q.tag.pc, va := q.tag.va, fent := q.tag.leaf, aclass := cls, level := q.tag.level, flane := q.lane % 64 }

/-- Takes a request off the lists of those that wait. -/
def State.forgetReq (s : State) (id : Nat) : State :=
  { s with peerReqs := s.peerReqs.filter (fun q => q.id != id), hostReqs := s.hostReqs.filter (fun q => q.id != id) }

/-- Holds a request with its fault for a resume (R144, R348). -/
def State.holdReq (s : State) (id : Nat) (f : FaultRec) : State :=
  { s with peerReqs := s.peerReqs.map (fun q => if q.id = id then { q with held := some f } else q),
           hostReqs := s.hostReqs.map (fun q => if q.id = id then { q with held := some f } else q) }

/-- Whether a status lets a read's data be used: performed, or marked poisoned (R91). -/
def readOk (status : Nat) : Bool := status == 0 || status == 10

/-- The bytes of a read's reply. -/
def readBytes (o : PeerOp) (data : List Byte) : List Byte := match o with | .read n => data.take n | _ => data

/-- Whether a request reads, and is asked again when its access is tried again. -/
def opReads (o : PeerOp) : Bool := match o with | .read _ => true | .line _ _ => true | _ => false

/-- The fault of an engine's request (R187): the line of a poisoned or frozen byte. -/
def PeerReq.chainRec (q : PeerReq) (xlc cls : Nat) : FaultRec :=
  Sys2Proof.Machine.chainRec xlc cls (recVa xlc q.tag.va) q.tag.leaf q.tag.level

/-- A reply to an engine's request: read data goes to its buffer; a unit whose writes have all been acknowledged counts as
acknowledged, and the beat ends with its last (R188); a refusal is the chain's fault (R187), and all of its unit is sent again. -/
def State.chainReply (s : State) (h : Nat) (q : PeerReq) (status : Nat) (data : List Byte) : State :=
  match q.what with
  | .read _ =>
    if readOk status then
      s.modChain h (fun c => { c with buf := c.buf ++ [(q.lane, readBytes q.what data, status == 10)] })
    else s.chainFault h (q.chainRec status 7)
  | _ =>
    if !((mget s.chains h).map (fun c => c.ids.any (fun i => i.1 == q.id))).getD false then s
    else if status = 0 then
      (s.modChain h (fun c =>
        let ids := c.ids.filter (fun i => i.1 != q.id)
        if q.op = doneUnit || ids.any (fun i => i.2 == q.op) then { c with ids := ids }
        else { c with ids := ids, acked := c.acked ++ [q.op] })).beatDone h
    else
      let s1 := s.modChain h (fun c => { c with ids := c.ids.filter (fun i => i.2 != q.op) })
      let s2 := if q.op = doneUnit then s1.modChain h (fun c => { c with cur := c.cur.map (fun e =>
        { e with phase := if e.phase = 2 then 1 else if e.phase = 5 then 6 else if e.phase = 7 then 0 else e.phase }) }) else s1
      s2.chainFault h (q.chainRec status 8)

/-- A reply to a cluster's plotter or to a deferred completion (R322, R334). -/
def State.clusterReply (s : State) (key : Nat) (q : PeerReq) (status : Nat) (data : List Byte) : State :=
  let k := s.clus key
  match q.what with
  | .read n =>
    let ins := k.quads.findSome? (fun e => (e.2.find? (fun o => o.task == q.lane && o.reads q.op)).map (fun o => (e.1, o.pc)))
    if readOk status then
      let mark : BitVec 4 := if status = 10 then (data.getD n 0xF).setWidth 4 else 0
      s.modClus key (fun k => k.hold { task := q.lane, vln := q.op, tgt := .peer q.dev q.pa, owner := q.owner, data := data.take n,
                                       poison := mark })
    else s.matrixFault key (ins.map (·.1)) { (q.failRec status 6) with pc := (ins.map (·.2)).getD 0, flane := 0 }
  | _ =>
    let mine := fun (d : Deferred) => d.ids.contains q.id
    let pc := ((k.defer.find? mine).map (·.pc)).getD 0
    if status = 0 then s.modClus key (fun k => { k with defer := k.defer.map (fun d => if mine d then { d with ids := [] } else d) })
    else
      (s.modClus key (fun k => { k with defer := k.defer.map (fun d => if mine d then { d with stage := 0, ids := [] } else d) })).matrixFault
        key none { (q.failRec status 3) with pc := pc, flane := 0 }

/-- A reply to a wait point's request (R175, R184, R312, R354). -/
def State.waitReply (s : State) (id : Nat) (w : Wait) (q : PeerReq) (status : Nat) (data : List Byte) : State :=
  let bad := fun cls => s.waitFault id { (q.failRec status cls) with flane := (lowest w.lanes).getD 0 }
  match w.op with
  | .grpdef g del rec buf =>
    if readOk status then (s.setWaitOp id (.grpdef g del rec (buf ++ [(q.lane, readBytes q.what data, status == 10)]))).tryWait id
    else bad 1
  | .hdrain _ _ _ _ _ _ =>
    match q.what with
    | .write _ _ => if status = 0 then s.tryWait id else bad 2
    | _ => s.hdrainReply id status data
  | _ => if readOk status then (s.judge id (readBytes q.what data) (status == 10)).tryWait id else bad 1

/-- Data for a lane of a load (R134, R149): a whole line goes into the L1, as a replica where the reply carries an entry (R118),
and the lane takes its bytes. A fault past a fence waits for the fence (R202). -/
def State.loadReply (s : State) (id : Nat) (c : Crew) (q : PeerReq) (status : Nat) (data : List Byte) (entry : Option Nat) : State :=
  let ld := c.loads.find? (fun l => l.op == q.op)
  let pol := (ld.map (·.pol)).getD 0
  let line := (match q.what with | .line _ _ => true | _ => false) && decide (128 ≤ data.length)
  let mark : BitVec 4 := if status = 10 then (if line then (data.getD 128 0xF).setWidth 4 else 0xF) else 0
  let kind := match entry with | some e => LineKind.replica e | none => .ordinary
  let s1 := if line && q.fill && readOk status then
      let t := (s.ownerCheck c.core q.dev (q.pa / 128) q.owner).l1Fill c.core id q.dev (q.pa / 128) q.owner 0 (data.take 128) kind mark (pol == 1)
      if pol = 3 then t.dropCleanWhere c.core (fun l => l.at q.dev (q.pa / 128)) else t
    else s
  match ld with
  | none => s1
  | some ld =>
    match ld.accs.find? (fun a => a.lane == q.lane) with
    | none => s1
    | some a =>
      if !readOk status then
        if c.pastFence q.op then s1.modCrew id (·.fenceWait)
        else s1.crewFault id { (a.failRec status ld.pc 1) with flane := (ld.vrest.map (·.2)).getD a.lane }
      else if ld.has a.lane then s1
      else
        let off := if line then a.pa % 128 else 0
        let s2 := s1.modCrew id (fun d => d.putGot s.devnum q.op a ((data.drop off).take a.n) (mark.getLsbD (off / 32)))
        match (mget s2.crews id).bind (fun d => d.loads.find? (fun l => l.op == q.op)) with
        | some l => if l.vrest.isSome then s2.vrestStep id l else s2.finishLoad id q.op
        | none => s2

/-- The old values that come back for an atomic, lane by lane (R147, R149). -/
def PeerReq.olds (q : PeerReq) (data : List Byte) : List (Nat × Nat) :=
  match q.what with
  | .atom _ wt _ _ => q.lanes.zipIdx.map (fun l => (l.1, leNat ((data.drop (wtBytes wt * l.2)).take (wtBytes wt))))
  | _ => []

/-- A reply to a request of a crew. -/
def State.crewReply (s : State) (c : Crew) (q : PeerReq) (status : Nat) (data : List Byte) (entry : Option Nat) : State :=
  let id := q.crew
  let gone := s.forgetReq q.id
  match c.wait.filter (fun w => w.num == q.op && !c.sq.any (fun e => e.op == q.op)) with
  | some w => gone.waitReply id w q status data
  | none =>
    match q.what with
    | .frzq =>
      if status = 0 then gone.both id (fun d => d.fillPend q.op (fun _ => (.u (BitVec.ofNat 32 (leNat data)), 0)))
      else (s.holdReq q.id (q.failRec status 4)).queueFault q.tag (q.failRec status 4)
    | .read n => if n = 0 then gone.tookAck q.id else gone.loadReply id c q status data none
    | .line _ _ => gone.loadReply id c q status data entry
    | _ =>
      if status = 0 then
        (gone.modSq id q.op (fun e => { e with got := e.got ++ q.olds data })).tookAck q.id
      else (s.holdReq q.id (q.failRec status (opCls q.what))).queueFault q.tag (q.failRec status (opCls q.what))

/-- A reply to the management core's read of a chain list (R504). -/
def State.mgmtReply (s : State) (q : PeerReq) (status : Nat) (data : List Byte) : State :=
  { s with ctxWait := s.ctxWait.map (fun p =>
      if readOk status then { p with buf := p.buf ++ [(q.lane, readBytes q.what data, status == 10)] } else { p with bad := true }) }

/-- A reply reaches whoever asked (R149). -/
def State.answer (s : State) (q : PeerReq) (status : Nat) (data : List Byte) (entry : Option Nat := none) : State :=
  let gone := s.forgetReq q.id
  if q.crew = collWho then gone.collReply q.id status
  else if q.crew = mgmtWho then gone.mgmtReply q status data
  else if q.crew = recordWho then (if status = 0 then gone else gone.recordLost q.op (BitVec.ofNat 32 q.lane) status)
  else if 262144 ≤ q.crew ∧ q.crew < 262656 then gone.chainReply (q.crew - 262144) q status data
  else if 393216 ≤ q.crew ∧ q.crew < 409600 then gone.clusterReply (q.crew - 393216) q status data
  else if saveWho 0 ≤ q.crew then
    if status = 0 then gone else gone.crewFault (q.crew - saveWho 0) (q.failRec status 10)
  else if fetchWho 0 ≤ q.crew then
    let id := q.crew - fetchWho 0
    if readOk status then gone.modCrew id (fun c => { c with fbuf := c.fbuf ++ [(q.lane, readBytes q.what data, status == 10)] })
    else
      match gone.viewCrew id with
      | some c => gone.fetchFault id c { xlc := status, level := q.tag.level, ent := q.tag.leaf } q.tag.va
      | none => gone
  else
    match mget s.crews q.crew with
    | some c => s.crewReply c q status data entry
    | none =>
      if opReads q.what || q.what == .frzq || status == 0 then gone
      else (s.holdReq q.id (q.failRec status (opCls q.what))).queueFault q.tag (q.failRec status (opCls q.what))

/-- A peer's reply (R149): one that nothing waits for, or that comes after its silence, is discarded (R348). -/
def State.peerReply (s : State) (r : PeerReply) : State :=
  match s.peerReqs.find? (fun q => q.id == r.op) with
  | some q => if q.held.isSome then s else s.answer q r.status r.data r.entry
  | none => s

/-! The host window (R473, R474). -/

/-- A host-window request as a request. -/
def HostReq.asPeer (r : HostReq) : PeerReq :=
  { id := r.id, tag := r.tag, dev := 0, crew := r.crew, op := r.op, lane := r.lane, pa := r.off, owner := 0,
    what := if r.write then .write (r.data.map some) false else .read r.len, held := none }

/-- The request that a host-window reply answers (R474): one without a reply, that the session which brings the reply has carried. -/
def State.hostAsked (s : State) (r : HostReply) : Option HostReq :=
  let num := (mget s.sessions r.ident).map (·.num)
  s.hostReqs.find? (fun q => q.sent && q.held.isNone && q.ident == r.ident && q.reqid == r.reqid && num == some q.sess)

/-- A host-window reply datagram (R474). -/
def State.hostReply (s : State) (r : HostReply) : State :=
  match s.accept r.ident r.seq with
  | none => s.portDrop r.port
  | some s =>
  match s.hostAsked r with
  | none => s.portDrop r.port
  | some q =>
    let fits := if q.write then r.op == 0x82 && r.len == 0 else r.op == 0x81 && r.len.toNat == q.len && r.data.length == q.len
    s.answer q.asPeer (if fits && r.status == 0 then 0 else 7) r.data

/-! Silence (R348). -/

/-- A request that no reply has come to in time. Those that change something are held, to be sent again under the same number
(R349); a read is asked again when its access is tried again. -/
def State.silentReq (s : State) (q : PeerReq) : State :=
  let f := q.failRec 18 q.cls
  let gone := s.forgetReq q.id
  let kept := s.holdReq q.id f
  let isRead := opReads q.what
  if q.crew = collWho then gone.collReply q.id 18
  else if q.crew = recordWho then gone.recordLost q.op (BitVec.ofNat 32 q.lane) 18
  else if 262144 ≤ q.crew ∧ q.crew < 262656 then
    (if isRead then gone else kept).chainFault (q.crew - 262144) (q.chainRec 18 (if isRead then 7 else 8))
  else if 393216 ≤ q.crew ∧ q.crew < 409600 then
    if isRead then gone.clusterReply (q.crew - 393216) q 18 [] else kept.matrixFault (q.crew - 393216) none f
  else if isRead || decide (saveWho 0 ≤ q.crew) then s.answer q 18 []
  else
    match (mget s.crews q.crew).bind (·.wait) with
    | some w => if w.num = q.op && !(((mget s.crews q.crew).map (fun c => c.sq.any (fun e => e.op == q.op))).getD false) then
        s.answer q 18 [] else kept.queueFault q.tag f
    | none => kept.queueFault q.tag f

/-- PEER_SILENCE_TIMEOUT: a request's number, or that of a FREEZE that waits for acknowledgements. -/
def State.silence (s : State) (op : Nat) : State :=
  match s.peerReqs.find? (fun q => q.id == op && q.held.isNone) with
  | some q => s.silentReq q
  | none =>
    match s.hostReqs.find? (fun q => q.id == op && q.held.isNone) with
    | some q => s.silentReq q.asPeer
    | none =>
      match s.crews.find? (fun e => match e.2.wait with
        | some w => w.num == op && (match w.op with
          | .freeze 3 i _ _ _ _ => ((mget s.freezes i).map (fun f => !f.acks.isEmpty)).getD false
          | _ => false)
        | none => false) with
      | some (id, c) =>
        match c.waitOp with
        | some (.freeze _ i _ _ _ _) =>
          ({ s with freezes := mmod s.freezes i (fun e => { e with retry := true }) } : State).freezeFault id 18
        | _ => s
      | none => s

/-! The meanings. -/

/-- REMOTE_REQUEST (R149, R208). -/
def execRemoteRequest (r : PeerRequest) (s : State) : Out := .next (s.request r)
/-- REMOTE_REPLY (R149). -/
def execRemoteReply (r : PeerReply) (s : State) : Out := .next (s.peerReply r)
/-- HOST_WINDOW_REPLY (R474). -/
def execHostWindowReply (r : HostReply) (s : State) : Out := .next (s.hostReply r)
/-- PEER_SILENCE_TIMEOUT (R348). -/
def execPeerSilenceTimeout (op : Nat) (s : State) : Out := .next (s.silence op)

end Sys2Proof.Machine
end

