-- ==== Sys2Proof/Machine/Stop.lean ====
section
/-!
DEFINITION. Stopping and going on: save areas (R242, R460), stop records (R447 to R455), pre-emption (R456, R457), resume
(R458, R459), the watchdog (R460).
-/

namespace Sys2Proof.Machine

/-! Pieces of saved state. -/

/-- What an edit of a saved field changes before a resume (R242, R402, R440, R451, R459); fixed fields take none. -/
inductive Edit where
  | fixed
  | path (i : Nat)
  | rpc (i : Nat)
  | lc10
  | lc2
  | xdist
  | pred (n : Nat)
  | ix (n : Nat)
  | latch (n : Nat)
  | oc (n : Nat)
  | reg (n : Nat)
deriving DecidableEq, Repr

/-- A piece of a record or of a save area: whose it is, what an edit of it changes, its bytes with their poison marks, and its
reserved bits, which are ignored where the device reads it back (R3). -/
structure Piece where
  crew  : Nat
  edit  : Edit
  bytes : List (Byte × Bool)
  res   : Nat := 0
deriving DecidableEq, Repr

/-- A piece of a number of n bytes with its reserved bits. -/
def piece (crew : Nat) (e : Edit) (n v : Nat) (res : Nat := 0) : Piece :=
  { crew := crew, edit := e, bytes := (leBytes n v).map (fun b => (b, false)), res := res }

/-- The mask of bits hi to lo. -/
def bitsFrom (hi lo : Nat) : Nat := 2 ^ (hi + 1) - 2 ^ lo

/-- The reserved bits of a cause word (R450). -/
def causeRes : Nat := bitsFrom 23 16 + bitsFrom 7 7

/-- The pieces of a crew's register state as its save area holds them (R242). DESIGN CHOICE: the codes of the tag directory's last
word that stand for no register of the crew are 0. Log entry 135. -/
def savePieces (id : Nat) (c : Crew) (spill : Dword) : List Piece :=
  let word := fun (e : Word × Bool) => (leBytes 4 e.1.toNat).map (fun b => (b, e.2))
  let body := fun (r : Option Reg) => ((slotWords c r).map word).flatten
  let upper := fun (m : NatMap Reg) (n : Nat) (mk : Nat → Edit) =>
    match mget m n with
    | none => []
    | some r => [piece id .fixed 4 (shapeCode (some r) + c.w * 256), { crew := id, edit := mk n, bytes := body (some r) }]
  let dir := (List.range ((c.nregs + 15) / 16)).map (fun i =>
    piece id .fixed 4 ((List.range 16).foldl (fun n j =>
      if 16 * i + j < c.nregs then n + shapeCode (mget c.regs (16 * i + j)) * 4 ^ j else n) 0))
  let valid := (List.range 8).foldl (fun n i => n + (if (mget c.oc i).isSome then 2 ^ i else 0)) 0 +
    (List.range 4).foldl (fun n i => n + (if (mget c.latches i).isSome then 2 ^ (8 + i) else 0)) 0
  let mid := [piece id .fixed 8 valid, piece id .xdist 8 (c.xsel.toNat * 2 ^ 32 + c.xdist.toNat), piece id .fixed 8 0,
      piece id .fixed 8 spill.toNat, piece id .fixed 24 0] ++
    (List.range 12).map (fun n => piece id (.pred n) 8 (c.pred n).toNat) ++
    (List.range 4).map (fun n =>
      { crew := id, edit := .ix n, bytes := ((List.range c.w).map (fun l => word (c.ixAt n l, false))).flatten }) ++
    dir ++
    ((List.range 4).map (fun n => upper c.latches n .latch)).flatten ++
    ((List.range 8).map (fun n => upper c.oc n .oc)).flatten ++
    ((List.range c.nregs).map (fun n =>
      match mget c.regs n with
      | none => []
      | some r => [{ crew := id, edit := .reg n, bytes := body (some r) }])).flatten
  let used := 8 + (mid.map (fun p => p.bytes.length)).foldl (· + ·) 0
  piece id .fixed 8 (used * 2 ^ 32 + c.w * 2 ^ 16 + c.nregs) :: mid

/-- Writes a run of bytes with their marks at a virtual address for the save class, sector by sector. -/
def State.saveBytes (s : State) (id : Nat) (c : Crew) (va : Dword) (bs : List (Byte × Bool)) : Except FaultRec State :=
  (List.range ((bs.length + 31) / 32)).foldlM (fun (s : State) i =>
    let part := (bs.drop (32 * i)).take 32
    s.saveWrite id c (va + BitVec.ofNat 64 (32 * i)) (part.map (·.1)) (part.any (·.2))) s

/-- Writes the records of a crew's spilled paths as they stand (R401, R402). -/
def State.saveSpills (s : State) (id : Nat) (c : Crew) : Except FaultRec State :=
  (c.paths.filter (·.spilled)).foldlM (fun (s : State) p => s.saveWrite id c (s.spillPlace c p) p.record false) s

/-- Writes a crew's registers to its save area, and its spilled paths (R242, R401, R460); a helper group has paths alone. A failure
is a fault of class 10, and the device keeps the crew's state until a resume. -/
def State.saveCrew (s : State) (id : Nat) : State :=
  match mget s.crews id with
  | none => s
  | some c =>
    let all := if c.isHelper then [] else ((savePieces id c (s.spillRegion c)).map (·.bytes)).flatten
    match s.saveBytes id c (s.saveSlot c) all >>= fun t => t.saveSpills id c with
    | .ok s1 => s1.modCrew id (fun d => { d with kept := false })
    | .error f => (s.modCrew id (fun d => { d with kept := true })).crewFault id f

/-! Reading back. -/

/-- A register's new words from its saved bytes: its tag stays, and an element stays marked where its sector still is. -/
def Reg.reread (c : Crew) (r : Reg) (bs : List (Byte × Bool)) : Reg :=
  let word := fun (i : Nat) => BitVec.ofNat 32 (leNat (((bs.drop (4 * i)).take 4).map (·.1)))
  let mark := fun (i : Nat) => ((bs.drop (4 * i)).take 4).any (·.2)
  match r.shape with
  | .u _ => { shape := .u (word 0), poison := if mark 0 then r.poison else 0 }
  | .a _ _ => { shape := .a (word 0) (word 1), poison := if mark 0 || mark 1 then r.poison else 0 }
  | .g _ => { shape := .g ((List.range c.w).map word), poison := r.poison &&& lanesWhere c.w mark }

/-- Applies a saved field to its crew. -/
def Crew.applyEdit (c : Crew) (e : Edit) (bs : List (Byte × Bool)) : Crew :=
  let v := leNat (bs.map (·.1))
  let put := fun (m : NatMap Reg) (n : Nat) => mmod m n (fun r => r.reread c bs)
  match e with
  | .fixed => c
  | .path i => { c with paths := c.paths.zipIdx.map (fun p => if p.2 = i then p.1.rereadPc v else p.1) }
  | .rpc i => { c with frames := c.frames.zipIdx.map (fun f => if f.2 = i then { f.1 with rpc := BitVec.ofNat 64 v } else f.1) }
  | .lc10 => { c with lc := (BitVec.ofNat 32 v, BitVec.ofNat 32 (v / 2 ^ 32), c.lc.2.2) }
  | .lc2 => { c with lc := (c.lc.1, c.lc.2.1, BitVec.ofNat 32 v) }
  | .xdist => { c with xdist := BitVec.ofNat 32 v, xsel := BitVec.ofNat 32 (v / 2 ^ 32) }
  | .pred n => { c with preds := mput c.preds n (BitVec.ofNat 64 v &&& allLanes c.w) }
  | .ix n => { c with ix := mput c.ix n ((List.range c.w).map (fun l => BitVec.ofNat 32 (leNat (((bs.drop (4 * l)).take 4).map (·.1))))) }
  | .latch n => { c with latches := put c.latches n }
  | .oc n => { c with oc := put c.oc n }
  | .reg n => { c with regs := put c.regs n }

/-- Whether a field may be read back as found: a fixed one unchanged but for its reserved bits (R3, R459). -/
def editOk (p : Piece) (new : List Byte) : Bool :=
  match p.edit with
  | .fixed => leNat (p.bytes.map (·.1)) ||| p.res == leNat new ||| p.res
  | _ => true

/-- Bytes of a save area as they stand, with the sector's poison mark, or the fault of a sector that cannot be read back: marked
anew, or where the translation fails. -/
def State.saveRead (s : State) (c : Crew) (va : Dword) (old : List (Byte × Bool)) : Except FaultRec (State × List (Byte × Bool)) :=
  match s.saveFetch c va old.length with
  | .error f => .error f
  | .ok (s1, none) => .ok (s1, old)
  | .ok (s1, some (bs, none)) => .ok (s1, bs.map (fun b => (b, false)))
  | .ok (s1, some (bs, some f)) => if old.any (·.2) then .ok (s1, bs.map (fun b => (b, true))) else .error f

/-- Reads a save area back, sector by sector. -/
def State.saveReadAll (s : State) (c : Crew) (va : Dword) (old : List (Byte × Bool)) : Except FaultRec (State × List (Byte × Bool)) :=
  (List.range ((old.length + 31) / 32)).foldlM (fun (r : State × List (Byte × Bool)) i =>
    (r.1.saveRead c (va + BitVec.ofNat 64 (32 * i)) ((old.drop (32 * i)).take 32)).map (fun o => (o.1, r.2 ++ o.2))) (s, [])

/-- Applies pieces that have been read back: none where a fixed one has changed and the reading is strict. -/
def applyPieces (strict : Bool) (c : Crew) (ps : List Piece) (now : List (Byte × Bool)) : Option Crew :=
  (ps.foldlM (fun (r : Crew × List (Byte × Bool)) p =>
    let n := p.bytes.length
    let bs := r.2.take n
    if strict && !editOk p (bs.map (·.1)) then none else some (r.1.applyEdit p.edit bs, r.2.drop n)) (c, now)).map (·.1)

/-- A path record (R402), its PC to be edited. -/
def pathPieces (id i : Nat) (p : Path) : List Piece :=
  let bs := p.record.map (fun b => (b, false))
  [{ crew := id, edit := .path i, bytes := bs.take 8 }, { crew := id, edit := .fixed, bytes := (bs.drop 8).take 8 },
   { crew := id, edit := .fixed, bytes := (bs.drop 16).take 8, res := bitsFrom 63 32 + bitsFrom 23 18 + bitsFrom 15 8 },
   { crew := id, edit := .fixed, bytes := bs.drop 24, res := bitsFrom 63 0 }]

/-- What the device has written of a crew outside its stop record, by place: the registers, and the records of spilled paths. -/
def State.savedParts (s : State) (id : Nat) (c : Crew) : List (Dword × List Piece) :=
  (if c.isHelper then [] else [(s.saveSlot c, savePieces id c (s.spillRegion c))]) ++
  (c.paths.zipIdx.filter (fun p => p.1.spilled)).map (fun p => (s.spillPlace c p.1, pathPieces id p.2 p.1))

/-- A crew with its registers and paths as its save area and spill region hold them (R242, R402, R459): the fault of a part that
cannot be read back, none where a fixed field has changed. DESIGN CHOICE where the reading is not strict, as when the scheduler
restores a crew: such changes are ignored. Log entry 117. -/
def State.readCrew (s : State) (id : Nat) (strict : Bool) : Except FaultRec (Option State) :=
  match mget s.crews id with
  | none => .ok none
  | some c =>
    match (s.savedParts id c).foldlM (fun (r : State × Option Crew) part =>
        (r.1.saveReadAll c part.1 ((part.2.map (·.bytes)).flatten)).map (fun o =>
          (o.1, r.2.bind (fun d => applyPieces strict d part.2 o.2)))) (s, some c) with
    | .error f => .error f
    | .ok (s1, d) => .ok (d.map (fun d => s1.setCrew id d))

/-! Stop records. -/

/-- The bytes of a frame (R440), its RPC to be edited. -/
def framePieces (id i : Nat) (f : Frame) : List Piece :=
  [piece id .fixed 8 f.pc.toNat, piece id (.rpc i) 8 f.rpc.toNat, piece id .fixed 8 f.cause.toNat (bitsFrom 63 32 + bitsFrom 15 8),
   piece id .fixed 8 f.tm.toNat, piece id .fixed 8 f.lmask.toNat, piece id .fixed 8 f.aux0.toNat, piece id .fixed 8 f.aux1.toNat,
   piece id .fixed 8 0 (bitsFrom 63 0)]

/-- A crew record (R451): its paths and frames follow; of an exited crew only the header. -/
def State.crewRecord (s : State) (id : Nat) (c : Crew) : List Piece :=
  let f := c.frec
  let num := fun (g : FaultRec → Nat) => (f.map g).getD 0
  let np := if c.done then 0 else c.paths.length
  let nd := if c.done then 0 else c.frames.length
  let b := fun (x : Bool) (k : Nat) => if x then 2 ^ k else 0
  let h := c.helperFault
  let w := if c.evicted then c.wait else none
  let recr := match c.hgroup with
    | some g => ((mget s.crews g.recruiter).map (·.crewid)).getD 0
    | none => 0
  [piece id .fixed 8 (b c.done 63 + b c.isHelper 62 + np * 2 ^ 48 + nd * 2 ^ 32 + c.cause.word.toNat)
     (bitsFrom 61 56 + bitsFrom 47 35 + causeRes),
   piece id .fixed 8 (num (fun f => f.pc.toNat)), piece id .fixed 8 (num (fun f => f.va.toNat)),
   piece id .fixed 8 (num (fun f => f.fent.toNat)),
   piece id .fixed 8 (c.crewid * 2 ^ 32 + c.core * 2 ^ 16 + num (fun f => f.aclass * 2 ^ 8 + f.level % 4 * 2 ^ 6 + f.flane % 64))
     (bitsFrom 63 48),
   piece id .fixed 8 c.exmask.toNat, piece id .fixed 8 (((s.viewCrew id).getD c).counterWord).toNat,
   piece id .lc10 8 (c.lc.2.1.toNat * 2 ^ 32 + c.lc.1.toNat),
   piece id .lc2 4 c.lc.2.2.toNat, piece id .fixed 4 ((h.map (·.2)).getD 0),
   piece id .fixed 8 (recr * 2 ^ 32 + b h.isSome 8 + ((h.map (·.1)).getD 0)) (bitsFrom 63 48 + bitsFrom 31 9),
   piece id .fixed 8 ((w.map (fun w => w.val.toNat * 2 ^ 32 + w.dst.toNat * 2 ^ 16 + w.det % 256 * 2 ^ 8 + w.kind)).getD 0) (bitsFrom 31 25),
   piece id .fixed 8 ((w.map (fun w => w.addr.toNat)).getD 0), piece id .fixed 32 0 (bitsFrom 255 0)] ++
  (if c.done then [] else
    (c.paths.zipIdx.map (fun p => pathPieces id p.2 p.1)).flatten ++ (c.frames.zipIdx.map (fun f => framePieces id f.2 f.1)).flatten)

/-- The two dwords of a tile descriptor (R320). -/
def TileDesc.bytes (d : TileDesc) : List Byte := leBytes 8 d.base.toNat ++ leBytes 8 ((d.rows * 2 ^ 16 + d.klen) * 2 ^ 32 + d.stride.toNat)

/-- The surveyor's sections (R453): quadrants, then deferred completions. -/
def State.survRecord (s : State) (id : Nat) (c : Crew) : List Piece :=
  let k := s.clus c.clus
  let raw := fun (bs : List Byte) => ({ crew := id, edit := .fixed, bytes := bs.map (fun b => (b, false)) } : Piece)
  let tile := fun (d : TileDesc) => { raw d.bytes with res := bitsFrom 127 120 }
  let op := fun (o : QOp) =>
    [raw (leBytes 8 o.pc.toNat ++ leBytes 8 o.raw.toNat), tile o.da, tile o.db,
     raw ((List.range 20).map (fun i => leBytes 4 (o.sc.getD i 0).toNat)).flatten]
  let quad := fun (q : Nat) =>
    let os := mgetD k.quads q []
    [piece id .fixed 8 ((os.head?.map (·.block)).getD 0 * 2 ^ 32 + os.length), piece id .fixed 8 0 (bitsFrom 63 0)] ++ (os.map op).flatten
  (s.crewRecord id c) ++ ((List.range 4).map quad).flatten ++
  [piece id .fixed 8 k.defer.length] ++
  (k.defer.map (fun d => [piece id .fixed 8 (d.token.toNat * 2 ^ 32 + d.dep % 64), piece id .fixed 8 ((d.bar.getD 0)).toNat])).flatten

/-- Whether the homes have acknowledged every unit of one of the two lines of a chain's current beat. -/
def Chain.lineAcked (ch : Chain) (odd : Bool) : Bool :=
  let us := (ch.units.zipIdx.filter (fun u =>
    u.1.toNat / 256 == (ch.units.headD 0).toNat / 256 && u.1.getLsbD 7 == odd)).map (·.2)
  !us.isEmpty && us.all (fun u => ch.acked.contains u)

/-- A chain record (R454): the mask names the lines of the current beat whose writes are all acknowledged, its bit 0 the lower
line of the 256-byte block; an entry whose COMPSEQ has risen is current until SEQADDR holds it. -/
def Chain.record (ch : Chain) (h : Nat) : Piece :=
  let cc := match ch.stopped with | some f => f.xlc | none => 0
  let mask := (if ch.lineAcked false then 1 else 0) + (if ch.lineAcked true then 2 else 0)
  let seq := match ch.cur with | some e => (if e.phase = 5 ∨ e.phase = 6 then ch.compseq else ch.next) | none => ch.next
  let va : Dword := match ch.stopped with | some f => f.va | none => ch.slot seq
  let ent : Dword := match ch.stopped with | some f => f.fent | none => 0
  { crew := 0, edit := .fixed,
    bytes := (leBytes 8 (seq.toNat * 2 ^ 32 + cc % 256 * 2 ^ 24 + mask * 2 ^ 22 + h) ++ leBytes 8 ch.beats ++
      leBytes 8 va.toNat ++ leBytes 8 ent.toNat).map (fun b => (b, false)),
    res := bitsFrom 21 9 + bitsFrom 127 96 }

/-- A held access (R455): the number of its instruction, its queue tag, cause, class, addresses. -/
structure Held where
  op     : Nat
  tag    : QTag
  xlc    : Nat
  aclass : Nat
  va     : Dword
  pa     : Nat
deriving DecidableEq, Repr

/-- The record of a held access (R455). DESIGN CHOICE: an engine's shows CORE and CREWID 0 and is of no crew that has exited. Log entry
125. -/
def State.heldRecord (s : State) (h : Held) : Piece :=
  let at_ := s.placeOf h.tag.crew
  let gone := !isEngine h.tag.crew && ((mget s.crews (crewOf h.tag.crew)).map (·.done)).getD true
  let off := (h.tag.pc - h.tag.entry).toNat / 2 % 2 ^ 32
  { crew := 0, edit := .fixed,
    bytes := (leBytes 8 ((if gone then 2 ^ 63 else 0) + h.xlc % 256 * 2 ^ 48 + h.aclass * 2 ^ 40 + at_.1 * 2 ^ 16 + at_.2) ++
      leBytes 8 off ++ leBytes 8 h.va.toNat ++ leBytes 8 h.pa).map (fun b => (b, false)),
    res := bitsFrom 62 56 + bitsFrom 39 32 + bitsFrom 127 96 }

/-- A pod physical address (R79, R455). -/
def State.podPa (s : State) (t : Target) : Nat :=
  match t with
  | .hbm pa => s.devnum * 2 ^ 44 + pa
  | .peer d pa => d * 2 ^ 44 + pa
  | .host off => off
  | .gaz off => s.devnum * 2 ^ 44 + 0xF0000000000 + off

/-- The access that a store-queue entry's instruction makes (R83, R452). -/
def SqKind.acc (k : SqKind) : Acc :=
  match k with
  | .store _ | .txfer _ _ _ | .qfence _ _ _ => .store
  | .nqret => .range
  | _ => .atomic

/-- Whether a fault is one of translation (R92, R150): not so a NOPA of the home, whose leaf the kind checks let through. -/
def State.failedXlate (s : State) (ctx : Nat) (f : FaultRec) : Bool :=
  let acc : Acc := if f.aclass = 3 then .atomic else .store
  if f.xlc = 7 ∨ f.xlc = 13 then
    match s.kindCheck ctx acc f.fent (leafPa f.fent (pageBits f.level) f.va) with | .ok _ => false | .error _ => true
  else f.aclass == 5 || decide (1 ≤ f.xlc ∧ f.xlc ≤ 9)

/-- The XLC and class of a held access of a class, and its pod physical address: 0 where its translation has failed (R455). -/
def State.heldAs (s : State) (ctx : Nat) (f : Option FaultRec) (cls pa : Nat) : Nat × Nat × Nat :=
  match f with
  | none => (0, cls, pa)
  | some f => (f.xlc, f.aclass, if s.failedXlate ctx f then 0 else pa)

/-- Puts an element behind those of the same crew with numbers that are not higher, and crews in ascending order. -/
def insertQueued {α : Type} (key : α → Nat × Nat) (e : α) (l : List α) : List α :=
  match l with
  | [] => [e]
  | x :: r =>
    if (key e).1 < (key x).1 ∨ ((key e).1 = (key x).1 ∧ (key e).2 < (key x).2) then e :: x :: r else x :: insertQueued key e r

/-- The elements of a list by crew, and those of a crew in queue order (R455, R459). -/
def inQueueOrder {α : Type} (key : α → Nat × Nat) (l : List α) : List α := l.foldl (fun r e => insertQueued key e r) []

/-- The crews of a context. -/
def State.ctxCrews (s : State) (ctx : Nat) : List (Nat × Crew) := s.crews.filter (fun e => e.2.ctx == ctx)

/-- Whether a message of a context is kept back by a held one (R144). -/
def State.keptBack (s : State) (m : Msg) : Bool :=
  s.net.any (fun x => x.core == m.core && x.ln == m.ln && x.tag.ctx == m.tag.ctx && x.held.isSome && decide (x.id < m.id))

/-- The messages that the memory system holds of a context: refused ones and those queued behind them. -/
def State.heldMsgs (s : State) (ctx : Nat) : List Msg := s.net.filter (fun m => m.tag.ctx == ctx && (m.held.isSome || s.keptBack m))

/-- The requests to peers that the memory system holds of a context. -/
def State.heldPeers (s : State) (ctx : Nat) : List PeerReq := s.peerReqs.filter (fun q => q.tag.ctx == ctx && q.held.isSome)

/-- The host-window requests that it holds: those without a reply, and those that wait for a session. -/
def State.heldHosts (s : State) (ctx : Nat) : List HostReq :=
  s.hostReqs.filter (fun q => q.tag.ctx == ctx && (q.held.isSome || !q.sent))

/-- The accesses of a load that have not been performed. -/
def LoadOp.waiting (l : LoadOp) : List LaneAcc := l.accs.filter (fun a => !l.has a.lane)

/-- Whether the accesses of a store-queue entry are held in the queue: it has sent nothing. -/
def SqEntry.queued (e : SqEntry) : Bool := e.msgs.isEmpty && decide (e.stage < 3)

/-- What the memory system holds of a context (R448, R455): queued entries, loads, messages and requests; the records of a crew in
queue order. -/
def State.heldAll (s : State) (ctx : Nat) : List Held :=
  let mk := fun (op : Nat) (tag : QTag) (f : Option FaultRec) (cls : Nat) (va : Dword) (pa : Nat) =>
    let h := s.heldAs ctx f cls pa
    ({ op := op, tag := tag, xlc := h.1, aclass := h.2.1, va := va, pa := h.2.2 } : Held)
  let acc := fun (id : Nat) (c : Crew) (op : Nat) (pc : Dword) (cls : Nat) (a : LaneAcc) =>
    mk op (c.tag id pc a.va) (c.frec.filter (fun f => f.pc == pc && f.va == a.va)) cls a.va (s.podPa a.tgt)
  let crew := fun (e : Nat × Crew) =>
    ((e.2.sq.filter SqEntry.queued).map (fun q => q.accs.map (acc e.1 e.2 q.op q.pc (accClass q.kind.acc)))).flatten ++
    (e.2.loads.map (fun l => l.waiting.map (acc e.1 e.2 l.op l.pc 1))).flatten
  let msg := fun (m : Msg) =>
    mk m.op m.tag m.held m.cls ((m.held.map (·.va)).getD (m.failRec 0).va)
      (s.devnum * 2 ^ 44 + 128 * m.ln + (m.failRec 0).va.toNat % 128)
  let req := fun (q : PeerReq) (pa : Nat) => mk q.op q.tag q.held q.cls q.tag.va pa
  inQueueOrder (fun h => (h.tag.crew, h.op))
    (((s.ctxCrews ctx).map crew).flatten ++ (s.heldMsgs ctx).map msg ++
     (s.heldPeers ctx).map (fun q => req q (q.dev * 2 ^ 44 + q.pa)) ++
     ((s.heldHosts ctx).filter (fun q => q.write)).map (fun q => req q.asPeer q.off))

/-- The stop area of a context (R449): the crews and surveyors given, its chains, what is held; whole records, as many as fit. -/
def State.areaPieces (s : State) (x : Ctx) (ctx : Nat) (crews : List (Nat × Crew)) (rest : Bool) : List Piece :=
  let vec := crews.filter (fun e => !e.2.surv)
  let sv := crews.filter (fun e => e.2.surv)
  let chains := if rest then s.chains.filter (fun e => e.2.ctx == ctx) else []
  let held := if rest then s.heldAll ctx else []
  let recs := vec.map (fun e => s.crewRecord e.1 e.2) ++ sv.map (fun e => s.survRecord e.1 e.2) ++
    chains.map (fun e => [e.2.record e.1]) ++ held.map (fun h => [s.heldRecord h])
  let size := fun (ps : List Piece) => (ps.map (fun p => p.bytes.length)).foldl (· + ·) 0
  let room := 65536 * x.stopsize - 64
  let fit := recs.foldl (fun (r : List Piece × Nat × Bool) ps =>
    if r.2.2 || decide (room < r.2.1 + size ps) then (r.1, r.2.1, true) else (r.1 ++ ps, r.2.1 + size ps, false)) ([], 0, false)
  [piece 0 .fixed 8 (x.haltseq.toNat * 2 ^ 32 + x.cause.word.toNat) causeRes,
   piece 0 .fixed 8 (vec.length % 65536 * 2 ^ 48 + sv.length % 65536 * 2 ^ 32 + chains.length % 65536 * 2 ^ 16 + held.length % 65536),
   piece 0 .fixed 8 ((if fit.2.2 then 2 ^ 63 else 0) + fit.2.1), piece 0 .fixed 40 0 (bitsFrom 319 0)] ++ fit.1

/-- Writes a stop area (R449): under PTOWN, with no translation. -/
def State.writeArea (s : State) (ctx : Nat) (x : Ctx) (ps : List Piece) : State :=
  let bs := (ps.map (fun p => p.bytes.map (·.1))).flatten
  let s1 := s.homeWrite x.ptown (maskedCells x.stoppa (bs.map some)) false
  s1.modCtx ctx (fun x => { x with stopImage := bs })

/-- Whether a context's memory system has stopped (R448): nothing of it is on its way but what is held, and what stays queued
behind it (R144) or until its identity has a session. -/
def State.memStopped (s : State) (ctx : Nat) : Bool :=
  !s.net.any (fun m => m.tag.ctx == ctx && m.held.isNone && !s.keptBack m) &&
  !s.peerReqs.any (fun q => q.tag.ctx == ctx && q.held.isNone) &&
  !s.hostReqs.any (fun q => q.tag.ctx == ctx && q.sent && q.held.isNone) &&
  s.acks.isEmpty

/-- STOP_RECORDS_WRITE (R449): registers to the save areas, then the records. -/
def State.stopRecords (s : State) (ctx : Nat) : State :=
  match mget s.ctxs ctx with
  | none => s
  | some x0 =>
    if !x0.halted || x0.recorded || !s.memStopped ctx then s
    else
      let save := (s.ctxCrews ctx).filter (fun e => !e.2.evicted && !e.2.done)
      let s1 := save.foldl (fun (s : State) e => s.saveCrew e.1) s
      match mget s1.ctxs ctx with
      | none => s1
      | some x => (s1.writeArea ctx x (s1.areaPieces x ctx (s1.ctxCrews ctx) true)).modCtx ctx (fun x => { x with recorded := true })

/-! Causes (R458). -/

/-- Takes causes out of a word: those of a mask of bits. -/
def Cause.clear (c : Cause) (m : BitVec 8) : Cause :=
  let left := c.bits &&& ~~~m
  if left = 0 then Cause.none
  else
    let live := fun (n : BitVec 4) => n != 15 && left.getLsbD n.toNat
    let two := [c.first, c.second].filter live
    { bits := left, xlc := if left.getLsbD causeFault then c.xlc else 0, first := two.getD 0 15, second := two.getD 1 15 }

/-- Clears causes of a context's parties; PEER goes with the last of the others (R458). -/
def State.clearCauses (s : State) (ctx : Nat) (m : BitVec 8) : State :=
  let go := fun (s : State) (m : BitVec 8) =>
    ({ s with crews := s.crews.map (fun e => if e.2.ctx = ctx then (e.1, { e.2 with cause := e.2.cause.clear m }) else e) } : State).modCtx
      ctx (fun x => { x with own := x.own.clear m })
  let s1 := go s m
  let other := fun (c : Cause) => (c.bits &&& ~~~(0x28#8)) != 0
  if (s1.ctxCrews ctx).any (fun e => other e.2.cause) || ((mget s1.ctxs ctx).map (fun x => other x.own)).getD false then s1
  else go s1 0x08

/-- Whether a party of a context still holds a cause; an evicted crew's YIELD is none (R458, log entry 41). -/
def State.causesLeft (s : State) (ctx : Nat) : Bool :=
  (s.ctxCrews ctx).any (fun e => (e.2.cause.bits &&& ~~~(0x20#8)) != 0) ||
  ((mget s.ctxs ctx).map (fun x => x.own.bits != 0)).getD false

/-! Resume (R459). -/

/-- Reads a stop area back (R459): each editable field goes to its crew; none where another has been changed. -/
def State.readArea (s : State) (x : Ctx) (ps : List Piece) : Option State :=
  let step := fun (r : State × Nat) (p : Piece) =>
    let n := p.bytes.length
    let old := (x.stopImage.drop r.2).take n
    let new := s.homeRead x.ptown (x.stoppa + r.2) n
    if !editOk { p with bytes := old.map (fun b => (b, false)) } new then none
    else if new = old then some (r.1, r.2 + n)
    else some (r.1.modCrew p.crew (fun c => c.applyEdit p.edit (new.map (fun b => (b, false)))), r.2 + n)
  (ps.foldlM step (s, 0)).map (·.1)

/-- The unit that translates for a requester (R84). -/
def State.unitOf (s : State) (who : Nat) : Nat :=
  if 262144 ≤ who ∧ who < 262656 then 320 + (who - 262144) / 16
  else if 393216 ≤ who ∧ who < 409600 then 256 + (who - 393216) % 64
  else ((mget s.crews who).map Crew.unit).getD (who % 65536 / 256)

/-- The accesses of a message, and the message with others. -/
def MsgKind.accs (k : MsgKind) : List LaneAcc :=
  match k with
  | .store as => as
  | .atom _ _ _ as => as
  | .arrive _ a => [a]
  | .bbinit _ a => [a]
  | .nodePush a _ => [a]
  | .heapPush a _ _ => [a]
  | .writeBack _ _ _ _ => []
  | .hold => []
def MsgKind.withAccs (k : MsgKind) (as : List LaneAcc) : MsgKind :=
  match k, as with
  | .store _, as => .store as
  | .atom wt opc ret _, as => .atom wt opc ret as
  | .arrive n _, a :: _ => .arrive n a
  | .bbinit v _, a :: _ => .bbinit v a
  | .nodePush _ n, a :: _ => .nodePush a n
  | .heapPush _ key t, a :: _ => .heapPush a key t
  | k, _ => k

/-- Translates the accesses of a message anew (R459). -/
def State.retranslate (s : State) (unit ctx : Nat) (acc : Acc) (as : List LaneAcc) : Except (Dword × XFail) (State × List LaneAcc) :=
  as.foldlM (fun (r : State × List LaneAcc) a =>
    match r.1.translate unit ctx a.va acc with
    | (_, .error x) => .error (a.va, x)
    | (s1, .ok t) => .ok (s1, r.2 ++ [{ a with tgt := t.tgt, owner := t.owner, leaf := t.leaf, level := t.level }])) (s, [])

/-- The numbers that a wait point waits for, changed. -/
def WaitOp.mapIds (o : WaitOp) (f : List Nat → List Nat) : WaitOp :=
  match o with
  | .release act sent ids => .release act sent (f ids)
  | .hdrain heap out keep stage n ids => .hdrain heap out keep stage n (f ids)
  | .freeze stage entry base len pod ids => .freeze stage entry base len pod (f ids)
  | .promote victim parts all stage ids => .promote victim parts all stage (f ids)
  | .finish ids => .finish (f ids)
  | o => o

/-- Whatever waits for one access waits for those that stand for it now. -/
def State.standFor (s : State) (old : Nat) (new : List Nat) : State :=
  let sub := fun (l : List Nat) => (l.map (fun i => if i = old then new else [i])).flatten
  let two := fun (l : List (Nat × List Nat)) => l.map (fun e => (e.1, sub e.2))
  { s with
    crews := s.crews.map (fun e => (e.1, { e.2 with
      sq := e.2.sq.map (fun q => { q with msgs := sub q.msgs }), unacked := two e.2.unacked, rwOps := two e.2.rwOps
      wait := e.2.wait.map (fun w => { w with op := w.op.mapIds sub }) }))
    chains := s.chains.map (fun e => (e.1, { e.2 with
      ids := (e.2.ids.map (fun i => if i.1 = old then new.map (fun n => (n, i.2)) else [i])).flatten }))
    clusters := s.clusters.map (fun e => (e.1, { e.2 with defer := e.2.defer.map (fun d => { d with ids := sub d.ids }) })) }

/-- A held message that stays one of this device goes on to the home of its line. -/
def State.resend (s : State) (m : Msg) (pa owner : Nat) (kind : MsgKind) : State :=
  { s with net := s.net.map (fun x => if x.id = m.id then { x with ln := pa / 128, owner := owner, kind := kind, held := none } else x) }

/-- Sends bytes that a write is to leave to the host window, one request for each run of them; their numbers. -/
def State.hostRuns (s : State) (tag : QTag) (op lane off : Nat) (bs : List (Option Byte)) : State × List Nat :=
  (byteRuns bs).foldl (fun (r : State × List Nat) b =>
    let o := r.1.askHost tag op lane (off + b.1) b.2.length true b.2
    (o.1, r.2 ++ [o.2])) (s, [])

/-- A held message whose page now lies outside this device goes on as the requests that stand for it. -/
def State.sendAway (s : State) (m : Msg) (o : State × List Nat) : State :=
  if o.2.isEmpty then s.ackMsg m
  else ({ o.1 with net := o.1.net.filter (fun x => x.id != m.id) } : State).standFor m.id o.2

/-- What a message that is no store asks of a peer (R149); a node's page is never a peer's (R393). -/
def State.askKind (s : State) (m : Msg) (dev : Nat) (a : LaneAcc) (as : List LaneAcc) (order : BitVec 2) : Option (State × List Nat) :=
  let one := fun (w : PeerOp) =>
    let o := s.askPeer m.tag m.op a.lane dev a.pa a.owner w
    some (o.1, [o.2])
  match m.kind with
  | .atom wt opc _ _ =>
    some ((peerElems as).foldl (fun (r : State × List Nat) g =>
      let o := r.1.askAtom (fun va leaf level => { m.tag with va := va, leaf := leaf, level := level }) m.op wt opc order g
      (o.1, r.2 ++ [o.2])) (s, []))
  | .arrive n _ => one (.arrive n)
  | .bbinit v _ => one (.bbinit v)
  | .heapPush _ k t => one (.heapPush k t)
  | _ => none

/-- The order of the atomic that a message is of, which its request carries (R149). -/
def State.msgOrder (s : State) (m : Msg) : BitVec 2 :=
  (((mget s.crews m.tag.crew).bind (fun c => c.sq.find? (fun e => e.op == m.op))).map (·.order)).getD 0

/-- A held message is tried again (R459); one that fails again is held again. A write to a page of KIND 11 is ignored (R15). -/
def State.replayMsg (s : State) (m : Msg) : State :=
  let bad := fun (s : State) (va : Dword) (x : XFail) =>
    s.refuseMsg m { (m.failRec x.xlc) with va := va, fent := x.ent, level := x.level, aclass := x.cls m.cls }
  match m.kind with
  | .writeBack mask data marks _ =>
    let va := m.tag.va - BitVec.ofNat 64 (m.tag.va.toNat % 128)
    match s.translate (s.unitOf m.tag.crew) m.tag.ctx va .store with
    | (s1, .error x) => bad s1 va x
    | (s1, .ok t) =>
      match t.tgt with
      | .hbm pa => s1.resend m pa t.owner m.kind
      | .peer d pa =>
        if !s1.peerPath d then bad s1 va { xlc := 17, level := t.level, ent := t.leaf }
        else
          let o := s1.askPeer { m.tag with leaf := t.leaf, level := t.level } m.op 0 d pa t.owner (.write (maskBytes mask data) (marks != 0))
          s1.sendAway m (o.1, [o.2])
      | .host off => s1.sendAway m (s1.hostRuns m.tag m.op 0 off (maskBytes mask data))
      | .gaz _ => s1.ackMsg m
  | .hold => s.resend m (128 * m.ln) m.owner .hold
  | k =>
    let isStore := match k with | .store _ => true | _ => false
    match s.retranslate (s.unitOf m.tag.crew) m.tag.ctx (if isStore then .store else .atomic) k.accs with
    | .error (va, x) => bad s va x
    | .ok (s1, as) =>
      match as with
      | [] => s1
      | a :: _ =>
        let no := fun xlc => bad s1 a.va { xlc := xlc, level := a.level, ent := a.leaf }
        match a.tgt with
        | .hbm pa => s1.resend m pa a.owner (k.withAccs as)
        | .peer d pa =>
          if !s1.peerPath d then no 17
          else if isStore then
            let o := s1.askPeer m.tag m.op a.lane d (pa / 128 * 128) a.owner (.write (lineBytes as) (as.any (·.poison)))
            s1.sendAway m (o.1, [o.2])
          else
            match s1.askKind m d a as (s1.msgOrder m) with
            | some o => s1.sendAway m o
            | none => no 19
        | .host off => if isStore then s1.sendAway m (s1.hostRuns m.tag m.op a.lane (off / 128 * 128) (lineBytes as)) else no 13
        | .gaz _ => if isStore then s1.ackMsg m else no 13

/-- A held request is tried again under its number (R349, R459). -/
def State.replayReq (s : State) (q : PeerReq) (h : Option HostReq) : State :=
  let acc : Acc := match q.what with | .write _ _ => .store | .read _ => .load | .line _ _ => .load | .frzq => .range | _ => .atomic
  let bad := fun (s : State) (x : XFail) =>
    let f : FaultRec := { (q.failRec x.xlc (x.cls q.cls)) with fent := x.ent, level := x.level }
    (s.holdReq q.id f).queueFault q.tag f
  let again := fun (s : State) (r : PeerReq) =>
    let t := s.forgetReq q.id
    { t with peerReqs := t.peerReqs ++ [r], outbox := t.outbox ++ [.peer r] }
  let unit := s.unitOf q.tag.crew
  if h.isNone && decide (1024 ≤ q.dev) then
    if s.peerPath q.dev then again s { q with held := none } else bad s { xlc := 17, level := q.tag.level, ent := q.tag.leaf }
  else
    match s.translate unit q.tag.ctx q.tag.va acc with
    | (s1, .error x) => bad s1 x
    | (s1, .ok t) =>
      let no := fun xlc => bad s1 { xlc := xlc, level := t.level, ent := t.leaf }
      match t.tgt with
      | .peer d pa => if s1.peerPath d then again s1 { q with dev := d, pa := pa, owner := t.owner, held := none } else no 17
      | .hbm pa =>
        if !s1.reach (unitDie unit) pa then no 17
        else
          let r := s1.serve { dev := s1.devnum, tag := q.id, owner := t.owner, pa := pa, op := q.what }
          r.1.answer { q with held := none } r.2.1 r.2.2.1 r.2.2.2
      | .host off =>
        match h, q.what with
        | some r, _ => (s1.forgetReq q.id).sendHost { r with off := off, held := none, sent := false }
        | none, .write bs _ =>
          let o := s1.hostRuns q.tag q.op q.lane off bs
          if o.2.isEmpty then s1.answer { q with held := none } 0 [] else (o.1.forgetReq q.id).standFor q.id o.2
        | none, .frzq => s1.answer { q with held := none } 0 []
        | none, _ => no 13
      | .gaz off =>
        match q.what with
        | .read n => s1.answer { q with held := none } 0 (s1.gazRead off n)
        | .write _ _ => s1.answer { q with held := none } 0 []
        | .frzq => s1.answer { q with held := none } 0 []
        | _ => no 13

/-- Translates the accesses of a queued entry or of a load anew, lane by lane; those of done lanes stay. -/
def State.retryAccs (s : State) (unit ctx : Nat) (acc : Acc) (as : List LaneAcc) (done : LaneAcc → Bool) :
    Except (LaneAcc × XFail) (State × List LaneAcc) :=
  as.foldlM (fun (r : State × List LaneAcc) a =>
    if done a then .ok (r.1, r.2 ++ [a])
    else
      match r.1.translate unit ctx a.va acc with
      | (_, .error x) => .error (a, x)
      | (s1, .ok t) => .ok (s1, r.2 ++ [{ a with tgt := t.tgt, owner := t.owner, leaf := t.leaf, level := t.level }])) (s, [])

/-- A held store-queue entry is translated anew (R459) and stays queued. -/
def State.replayEntry (s : State) (id op : Nat) : State :=
  match mget s.crews id with
  | none => s
  | some c =>
    match c.sq.find? (fun e => e.op == op) with
    | none => s
    | some e =>
      match s.retryAccs c.unit c.ctx e.kind.acc e.accs (fun a => !e.queued && e.got.any (fun g => g.1 == a.lane)) with
      | .error (a, x) => s.crewFault id (x.record e.pc a.va e.kind.acc a.lane)
      | .ok (s1, as) => s1.modSq id op (fun e => { e with accs := as })

/-- A held load is translated anew (R459); its lanes take their data as before. -/
def State.replayLoad (s : State) (id op : Nat) : State :=
  match mget s.crews id with
  | none => s
  | some c =>
    match c.loads.find? (fun l => l.op == op) with
    | none => s
    | some l =>
      match s.retryAccs c.unit c.ctx .load l.accs (fun a => l.has a.lane) with
      | .error (a, x) => s.crewFault id (x.record l.pc a.va .load ((l.vrest.map (·.2)).getD a.lane))
      | .ok (s1, as) => s1.modCrew id (fun d => { d with loads := d.loads.map (fun q => if q.op = op then { q with accs := as } else q) })

/-- Something the memory system holds, by its number. -/
inductive HeldItem where
  | entry (crew op : Nat)
  | load (crew op : Nat)
  | msg (id : Nat)
  | peer (id : Nat)
  | host (id : Nat)
deriving DecidableEq, Repr

/-- What the memory system holds of a context, by crew and in queue order (R459). -/
def State.heldItems (s : State) (ctx : Nat) : List HeldItem :=
  let crew := fun (e : Nat × Crew) =>
    (e.2.sq.filter (fun q => !q.accs.isEmpty)).map (fun q => ((e.1, q.op), HeldItem.entry e.1 q.op)) ++
    e.2.loads.map (fun l => ((e.1, l.op), HeldItem.load e.1 l.op))
  (inQueueOrder (fun (h : (Nat × Nat) × HeldItem) => h.1)
    (((s.ctxCrews ctx).map crew).flatten ++ (s.heldMsgs ctx).map (fun m => ((m.tag.crew, m.op), .msg m.id)) ++
     (s.heldPeers ctx).map (fun q => ((q.tag.crew, q.op), .peer q.id)) ++
     (s.heldHosts ctx).map (fun q => ((q.tag.crew, q.op), .host q.id)))).map (·.2)

/-- One of them is tried again (R459). -/
def State.replayItem (s : State) (i : HeldItem) : State :=
  match i with
  | .entry c op => s.replayEntry c op
  | .load c op => s.replayLoad c op
  | .msg n => match s.net.find? (fun m => m.id == n) with | some m => s.replayMsg m | none => s
  | .peer n => match s.peerReqs.find? (fun q => q.id == n) with | some q => s.replayReq q none | none => s
  | .host n => match s.hostReqs.find? (fun q => q.id == n) with | some q => s.replayReq q.asPeer (some q) | none => s

/-- The held accesses of a context are tried again, crew by crew in queue order, while none of them halts it anew (R459). -/
def State.replayAll (s : State) (ctx : Nat) : State :=
  (s.heldItems ctx).foldl (fun (s : State) i => if s.ctxRuns ctx then s.replayItem i else s) s

/-- A chain goes on from its stop (R188, R365): its entry and records are read again, but for an entry whose COMPSEQ has risen. -/
def Chain.goOn (ch : Chain) : Chain :=
  match ch.cur with
  | some e =>
    if e.phase = 5 ∨ e.phase = 6 then { ch with stopped := none, buf := [] }
    else { ch with stopped := none, buf := [], back := e.prog, backPhase := e.phase, backCount := e.count, cur := none }
  | none => { ch with stopped := none, buf := [] }

/-- A context's parties go on (R459), once its areas have been read back. -/
def State.restart (s : State) (ctx : Nat) : State :=
  let s1 : State := { s with
    crews := s.crews.map (fun e => if e.2.ctx = ctx then (e.1, { e.2 with frec := none, helperFault := none, kept := false }) else e)
    chains := s.chains.map (fun e => if e.2.ctx = ctx then (e.1, e.2.goOn) else e)
    clusters := s.clusters.map (fun e => if e.1 / 64 = ctx then (e.1, { e.2 with obuf := [] }) else e) }
  (s1.modCtx ctx (fun x =>
    { x with halted := false, recorded := false, cause := Cause.none, own := Cause.none, raiser := none, stopImage := [] })).replayAll ctx

/-- The records of spilled paths take the PCs that a resume has found in the stop records (R401, R402). -/
def State.respill (s : State) (ctx : Nat) : State :=
  (s.ctxCrews ctx).foldl (fun (s : State) e =>
    if e.2.evicted || e.2.done then s
    else
      match s.saveSpills e.1 e.2 with
      | .ok t => t
      | .error f => s.crewFault e.1 f) s

/-- Reads the areas back and goes on (R459): none where a context is not halted with its records written, where a cause is
left, or where an area does not read back. -/
def State.resumeCtx (s : State) (ctx : Nat) : Option State :=
  match mget s.ctxs ctx with
  | none => none
  | some x =>
    if !x.halted || !x.recorded || s.causesLeft ctx then none
    else
      let back := (s.ctxCrews ctx).filter (fun e => !e.2.evicted && !e.2.done && !e.2.kept)
      match back.foldlM (fun (s : State) e => match s.readCrew e.1 true with | .ok t => t | .error _ => none) s with
      | none => none
      | some s1 =>
        match s1.readArea x (s.areaPieces x ctx (s.ctxCrews ctx) true) with
        | none => none
        | some s2 => some ((s2.restart ctx).respill ctx)

/-! Pre-emption (R456, R457). -/

/-- TIME_SLICE_EXPIRY (R456): the yield request. -/
def State.askYield (s : State) (ctx : Nat) : State :=
  match mget s.ctxs ctx with
  | none => s
  | some x =>
    if x.tslice = 0 then s
    else
      ({ s with crews := s.crews.map (fun e => if e.2.ctx = ctx then (e.1, { e.2 with yreq := true }) else e) } : State).modCtx ctx
        (fun x => { x with yieldReq := true })

/-- Whether a crew's accesses have returned (R456); an operation of kind 8 goes on without it. -/
def Crew.quiet (c : Crew) : Bool :=
  c.loads.isEmpty && c.unacked.isEmpty && c.rwOps.isEmpty && c.accReads.isEmpty && c.hold.isNone && c.fence.isNone &&
  (c.sq.isEmpty || (match c.waitOp with | some (.sqEntry _) => true | _ => false))

/-- Whether a crew stands at a blocking point (R456): a wait point, with the rule of R391 for an open recruitment. -/
def Crew.blocked (c : Crew) : Bool :=
  match c.wait with
  | none => false
  | some w => decide (1 ≤ w.kind) && (c.recruit.isNone || w.op == .hjoin)

/-- The helpers of a recruiter that is to be evicted leave at their next boundary (R389, R391). -/
def State.releaseHelpers (s : State) (c : Crew) : State :=
  ((c.recruit.map (·.groups)).getD []).foldl (fun (s : State) g =>
    s.modCrew g (fun d => { d with hgroup := d.hgroup.map (fun h => { h with release := true }) })) s

/-- Whether a context's crews have all been evicted. -/
def State.allEvicted (s : State) (ctx : Nat) : Bool := (s.ctxCrews ctx).all (fun e => e.2.evicted || e.2.done || e.2.hgroup.isSome)

/-- The bytes of a context's device-state area (R460): 2 MiB for each cluster and 64 KiB for each core it uses. -/
def State.stateArea (s : State) (ctx : Nat) : Nat :=
  let cores := ((s.ctxCrews ctx).map (fun e => e.2.core)).eraseDups
  2097152 * (cores.map clusterOf).eraseDups.length + 65536 * cores.length

/-- Saves a context's device state when its last crew is evicted (R460). The layout is private to the part: the bytes are free
values, and the state itself stays in State. Log entry 76. -/
def State.saveDevice (s : State) (id : Nat) (c : Crew) : State :=
  match mget s.ctxs c.ctx with
  | none => s
  | some x =>
    match (List.range (s.stateArea c.ctx / 32)).foldlM (fun (t : State) i =>
        t.saveWrite id c (x.csaveva + BitVec.ofNat 64 (32 * i)) ((Config.stateBytes s.free i).take 32) false)
        { s with free := s.free + 1 } with
    | .ok s1 => s1
    | .error f => (s.modCrew id (fun d => { d with kept := true })).crewFault id f

/-- Reads a context's device-state area back (R460): the fault of a sector that cannot be read. -/
def State.loadDevice (s : State) (c : Crew) : Except FaultRec State :=
  match mget s.ctxs c.ctx with
  | none => .ok s
  | some x => (List.range (s.stateArea c.ctx / 32)).foldlM (fun (t : State) i =>
      (t.saveRead c (x.csaveva + BitVec.ofNat 64 (32 * i)) (List.replicate 32 (0, false))).map (·.1)) s

/-- CREW_EVICT (R456): registers to the save area, a record with YIELD and the wake condition, and the slot is free. -/
def State.evictCrew (s : State) (id : Nat) : State :=
  match mget s.crews id with
  | none => s
  | some c =>
    if !c.yreq || c.evicted || c.done || c.hgroup.isSome || !s.ctxRuns c.ctx || !c.blocked then s
    else
      let s0 := s.releaseHelpers c
      if !c.quiet || s.lentLanes id != 0 || !((c.recruit.map (·.groups)).getD []).isEmpty then s0
      else
        let last := (s0.ctxCrews c.ctx).all (fun e => e.1 == id || e.2.evicted || e.2.done || e.2.hgroup.isSome)
        let t := s0.saveCrew id
        let s1 := if last && t.ctxRuns c.ctx then t.saveDevice id c else t
        if !s1.ctxRuns c.ctx then s1
        else
          let s2 := s1.modCrew id (fun d => { d.leaveLoadSet with evicted := true, active := false, cause := d.cause.add causeYield 0 })
          let s3 := if s2.allEvicted c.ctx then s2.modCtx c.ctx (fun x => { x with evicted := true }) else s2
          let s4 := match mget s3.ctxs c.ctx with
            | some x => s3.writeArea c.ctx x (s3.areaPieces x c.ctx ((s3.ctxCrews c.ctx).filter (fun e => e.2.evicted)) false)
            | none => s3
          s4.refill c.core (c.crewid / 32) 8

/-- TSLICE_ESCALATION (R457): a crew that has not been evicted in time. -/
def State.escalate (s : State) (ctx : Nat) : State :=
  match mget s.ctxs ctx with
  | none => s
  | some x =>
    if !x.yieldReq || x.halted || s.allEvicted ctx then s
    else
      let s1 := (s.raiseLine ctx (Cause.none.add causeTslice 0) none).modCtx ctx (fun y => { y with own := x.own })
      { s1 with crews := s1.crews.map (fun e =>
          if e.2.ctx = ctx ∧ !e.2.evicted then (e.1, { e.2 with cause := (e.2.cause.clear 0x08).add causeTslice 0 }) else e) }

/-- Whether a place of its partition is free for a crew that comes back. -/
def State.placeFree (s : State) (c : Crew) : Bool :=
  let part := c.crewid / 32
  if c.surv then ((mget s.crews c.slot).map (fun d => d.evicted || d.done)).getD true
  else
    decide (part < 8) && decide (c.nregs * c.w ≤ s.freeWords c.core part 0 [] false) &&
    !((s.residents c.core part).any (fun d => d.crewid == c.crewid))

/-- No yield is asked of a restored context (R457). -/
def State.endYield (s : State) (ctx : Nat) : State :=
  ({ s with crews := s.crews.map (fun e => if e.2.ctx = ctx then (e.1, { e.2 with yreq := false }) else e) } : State).modCtx ctx
    (fun x => { x with yieldReq := false, evicted := false })

/-- What an evicted crew's wait owed is paid when it is back (R456): the acquire, then the word. -/
def State.payOwed (s : State) (id : Nat) : State :=
  match mget s.crews id with
  | none => s
  | some c =>
    match c.wait with
    | none => s
    | some w =>
      match w.owed with
      | some v => (s.wakeAcquire c w.scope).endWait id v
      | none => s.tryWait id

/-- An evicted crew stands in its slot again (R456), in the active set where it has a free entry (R431). -/
def State.standBack (s : State) (id : Nat) (c : Crew) : State :=
  let s1 := if c.slot = id then s else (s.clearKey c.slot).rename id c.slot
  let s2 := s1.modCrew c.slot (fun d => { d with evicted := false, active := c.surv, readyAt := s.clk, cause := d.cause.clear 0x20 })
  let free := !c.surv && decide (((s2.partCrews c.core (c.crewid / 32)).filter (fun e => e.2.active && !e.2.done)).length < 8)
  if free then s2.enterActive c.slot else s2

/-- An evicted crew comes back (R456): its registers are read back, and with the first crew of a context the device state (R460). -/
def State.bringBack (s : State) (id : Nat) (c : Crew) : State :=
  let all := ((mget s.ctxs c.ctx).map (fun x => x.evicted)).getD false
  match (if all then s.loadDevice c else .ok s) >>= fun t => t.readCrew id false with
  | .error f => s.crewFault id f
  | .ok none => s
  | .ok (some s1) => ((s1.standBack id c).endYield c.ctx).payOwed c.slot

/-- CREW_RESTORE (R456 to R458): the scheduler restores an evicted crew, or a context that its time slice has halted. -/
def State.restoreCrew (s : State) (id : Nat) : State :=
  match mget s.crews id with
  | none => s
  | some c =>
    match mget s.ctxs c.ctx with
    | none => s
    | some x =>
      if x.halted then
        if !x.recorded || !(s.ctxCrews c.ctx).any (fun e => e.2.cause.bits.getLsbD causeTslice) then s
        else
          let s1 := (s.clearCauses c.ctx 0x04).endYield c.ctx
          match s1.resumeCtx c.ctx with
          | some s2 => s2
          | none => s
      else if !c.evicted || (x.yieldReq && !s.allEvicted c.ctx) || !s.placeFree c then s
      else s.bringBack id c

/-- WATCHDOG_EXPIRY (R460): a crew that waits too long at one wait point. -/
def State.watchdog (s : State) (id : Nat) : State :=
  match mget s.crews id with
  | none => s
  | some c =>
    let on := ((mget s.ctxs c.ctx).map (fun x => x.wdog != 0)).getD false
    let waits := match c.wait with | some w => decide (1 ≤ w.kind) | none => false
    if !on || !waits || c.evicted || !s.ctxRuns c.ctx then s
    else
      let cause := c.cause.add causeWdog 0
      (s.setCrew id { c with cause := cause }).raiseLine c.ctx (Cause.none.add causeWdog 0) (some id)

/-! The meanings. -/

/-- STOP_RECORDS_WRITE (R449). -/
def execStopRecordsWrite (ctx : Nat) (s : State) : Out := .next (s.stopRecords ctx)
/-- TIME_SLICE_EXPIRY (R456). -/
def execTimeSliceExpiry (ctx : Nat) (s : State) : Out := .next (s.askYield ctx)
/-- TSLICE_ESCALATION (R457). -/
def execTsliceEscalation (ctx : Nat) (s : State) : Out := .next (s.escalate ctx)
/-- WATCHDOG_EXPIRY (R460). -/
def execWatchdogExpiry (crew : Nat) (s : State) : Out := .next (s.watchdog crew)
/-- CREW_EVICT (R456). -/
def execCrewEvict (crew : Nat) (s : State) : Out := .next (s.evictCrew crew)
/-- CREW_RESTORE (R456). -/
def execCrewRestore (crew : Nat) (s : State) : Out := .next (s.restoreCrew crew)

end Sys2Proof.Machine
end

