-- ==== Sys2Proof/Machine/Manage.lean ====
section
/-!
DEFINITION. Management commands (R469 to R478, R492, R504): contexts, queues, halts and resumes, translations, keys of owners,
host access to memory and control blocks, reports; and the messages that every command may find on their way.
-/

namespace Sys2Proof.Machine

/-! Messages on their way. -/

/-- Performs the i-th message of the net, of whatever kind, where it is its turn. -/
def State.anyMsg (s : State) (i : Nat) : State :=
  match s.net[i]? with
  | none => s
  | some m =>
    match m.kind with
    | .writeBack _ _ _ _ => s.msgStep i (fun _ => true) homeMerge
    | .store _ => s.msgStep i (fun _ => true) homeStores
    | .atom _ _ _ _ => s.msgStep i (fun _ => true) homeAtoms
    | .hold => s.msgStep i (fun _ => true) homeHold
    | .arrive _ _ => s.msgStep i (fun _ => true) homeBar
    | .bbinit _ _ => s.msgStep i (fun _ => true) homeBar
    | .heapPush _ _ _ => s.msgStep i (fun _ => true) homePush
    | .nodePush _ _ => s.nodePushAt i

/-- Every message that can be performed is, oldest first. -/
def State.passNet (s : State) : State :=
  ((List.range s.net.length).foldl (fun (r : State × Nat) _ =>
    let t := r.1.anyMsg r.2
    (t, if t.net.length < r.1.net.length then r.2 else r.2 + 1)) (s, 0)).1

/-- Every acknowledgement arrives. -/
def State.passAcks (s : State) : State :=
  (List.range s.acks.length).foldl (fun (s : State) _ =>
    match s.acks with
    | a :: r => ({ s with acks := r } : State).tookAck a.1
    | [] => s) s

/-! A command and its response (R469, R470). -/

/-- The statuses of R469. -/
def stOk : Nat := 0
def stBadcmd : Nat := 1
def stDenied : Nat := 2
def stBusy : Nat := 3
def stFrozen : Nat := 4
def stState : Nat := 5
def stRange : Nat := 6
def stPoison : Nat := 7
def stHeapopen : Nat := 8

/-- What a command answers: the device after it, the status, the payload. -/
abbrev Answer := State × Nat × List Byte

/-- A command that is refused has no effect (R470). -/
def State.no (s : State) (status : Nat) : Answer := (s, status, [])

/-- A command that is done, with no payload. -/
def State.yes (s : State) : Answer := (s, stOk, [])

/-- A response (R469): its 16-byte header, then its payload. -/
def respBytes (code : Nat) (tag : Word) (status : Nat) (payload : List Byte) : List Byte :=
  leBytes 8 (tag.toNat * 2 ^ 32 + payload.length % 65536 * 2 ^ 16 + code % 65536) ++ leBytes 8 (status % 2 ^ 32) ++ payload

/-- The command log's entry and the response (R470, R478). -/
def State.answered (h : CmdHdr) (code slot : Nat) (r : Answer) : State :=
  let n := r.1.logs.cmddone + 1
  let e : List Dword := [BitVec.ofNat 64 (n % 2 ^ 32 * 2 ^ 32 + code % 2 ^ 16 * 2 ^ 16 + slot * 2 ^ 8 + r.2.1),
    BitVec.ofNat 64 (h.tag.toNat * 2 ^ 32), BitVec.ofNat 64 r.1.clk, 0]
  { r.1 with
    logs := { r.1.logs with cmddone := n % 2 ^ 64, cmdlog := mput r.1.logs.cmdlog ((n - 1) % 256) e }
    outbox := r.1.outbox ++ [.response h.ident (respBytes code h.tag r.2.1 r.2.2)] }

/-- A command's datagram at its port (R466): accepted, unless it has been already. -/
def State.received (s : State) (h : CmdHdr) : Option State :=
  if s.admitted then some { s with admitted := false } else s.accept h.ident h.seq

/-- A command performed in its identity's session (R470): a datagram that the port discards is counted (R466); one that comes while
one before it is not complete waits for that one. -/
def State.onCommand (s : State) (h : CmdHdr) (op : CmdOp) (run : State → Session → State) : State :=
  match s.received h with
  | none => s.portDrop h.port
  | some t =>
    if t.tlbWait.isSome || t.ctxWait.isSome then { t with cmds := t.cmds ++ [(h, op)] }
    else
      match mget t.sessions h.ident with
      | none => t
      | some q => run t q

/-- A command that is answered at once (R470). -/
def State.command (s : State) (h : CmdHdr) (op : CmdOp) (run : State → Session → Answer) : State :=
  s.onCommand h op (fun s q => State.answered h op.code q.slot (run s q))

/-- Whether a session is the administrator's (R467). -/
def Session.admin (q : Session) : Bool := q.root == 0

/-- A command on a context of the identity (R467): RANGE for a number above 255, STATE where there is none. -/
def State.onCtx (s : State) (h : CmdHdr) (ctx : Nat) (run : Ctx → Answer) : Answer :=
  if 255 < ctx then s.no stRange
  else
    match mget s.ctxs ctx with
    | none => s.no stState
    | some x => if x.ident ≠ h.ident then s.no stDenied else run x

/-! Contexts (R471, R504). -/

/-- A chain list's entries (R461): four dwords each. -/
def listOf (bs : List Byte) : List (List Dword) :=
  (List.range (bs.length / 32)).map (fun i =>
    (List.range 4).map (fun j => BitVec.ofNat 64 (leNat ((bs.drop (32 * i + 8 * j)).take 8))))

/-- Reads the chain list of a descriptor under its own tables (R461, R504), as the context that it is to be; what lies on a peer is
asked for. -/
def State.readList (s : State) (n : Nat) (x : Ctx) (buf : List (Nat × List Byte × Bool)) : Reading :=
  let rd : Reader := { die := s.rot.die, unit := 128 * s.rot.die, ctx := n, who := mgmtWho, num := 0 }
  let r := State.bufRead { s with ctxs := mput s.ctxs n x, tlbs := [], walks := [] } rd .load buf (x.dw 7) (32 * bits (x.dw 8) 0 10)
  { r with s := { r.s with ctxs := s.ctxs, tlbs := s.tlbs, walks := s.walks } }

/-- Whether a chain list has an entry that R504 refuses. -/
def badList (es : List (List Dword)) : Bool :=
  let hs := es.map (fun e => (e.getD 0 0).toNat)
  hs.any (fun h => decide (511 < h)) || hs.length != hs.eraseDups.length ||
  es.any (fun e =>
    let n := bits (e.getD 2 0) 0 17
    decide (n < 16 ∨ 65536 < n) || n &&& (n - 1) != 0 || (e.getD 1 0).toNat % 65536 != 0)

/-- The conditions of R504 on a descriptor's fields that give RANGE. -/
def badDescriptor (x : Ctx) : Bool :=
  !inHbm x.ptbase 65536 ||
  decide (x.stopsize = 0 ∨ x.stoppa % 65536 ≠ 0) || !inHbm x.stoppa (65536 * x.stopsize) ||
  decide (x.savestride = 0 ∨ x.saveva.toNat % 65536 ≠ 0 ∨ (x.dw 9).toNat % 65536 ≠ 0) ||
  decide (512 < bits (x.dw 8) 0 10 ∨ 5 < x.cpart)

/-- The clusters of a new context's collective partition (R366): the lowest available ones of each die, which contexts share. -/
def State.partition (s : State) (cpart : Nat) : List Nat :=
  let n := if cpart = 0 then 1 else cpart - 1
  let pick := fun (die : Nat) => (((List.range 32).map (fun c => 32 * die + c)).filter (fun k => s.clusterAvail k)).take n
  pick 0 ++ pick 1

/-- A chain slot as it is bound (R158). -/
def boundChain (ctx : Nat) (e : List Dword) : Chain :=
  { ctx := ctx, rbase := e.getD 1 0, rsize := bits (e.getD 2 0) 0 17, seqaddr := e.getD 3 0, wptr := 1, compseq := 0, ready := [],
    owners := [], nops := [], cur := none, buf := [], ids := [], acked := [], units := [], beats := 0, mqGot := 0, back := [], backPhase := 0, step := none,
    stopped := none, xops := [] }

/-- A new context of an identity (R460). -/
def newCtx (ident : Nat) (desc : List Dword) : Ctx :=
  { ident := ident, desc := (List.range 16).map (fun i => desc.getD i 0), halted := false, cause := Cause.none, haltseq := 0,
    recorded := false, own := Cause.none, yieldReq := false, evicted := false, groups := [], window := none, collClus := [],
    stopImage := [] }

/-- How far a CTXCREATE has come: it is answered, or its chain list is still being read. -/
inductive Creation where
  | done (a : Answer)
  | wait (s : State) (buf : List (Nat × List Byte × Bool))

/-- CTXCREATE (R504): the conditions in the table's order. DESIGN CHOICE: a chain list that translates and cannot be read is RANGE too.
Log entry 87. -/
def State.createCtx (s : State) (p : CreateCmd) : Creation :=
  let x := newCtx p.hdr.ident p.desc
  if s.rot.lcs = 1 ∨ s.rot.lcs = 4 then .done (s.no stState)
  else
    match mfree s.ctxs 256 with
    | none => .done (s.no stBusy)
    | some n =>
      if badDescriptor x || p.bad then .done (s.no stRange)
      else
        let r := s.readList n x p.buf
        match r.got with
        | .wait => .wait r.s r.buf
        | .fail _ _ => .done (s.no stRange)
        | .data bs mark =>
          let es := listOf bs
          if mark || badList es then .done (s.no stRange)
          else if es.any (fun e => (mget s.chains (e.getD 0 0).toNat).isSome) then .done (s.no stBusy)
          else
            let s1 : State := { r.s with
              ctxs := mput r.s.ctxs n { x with collClus := r.s.partition x.cpart }
              chains := es.foldl (fun m e => mput m (e.getD 0 0).toNat (boundChain n e)) r.s.chains }
            .done (s1, stOk, leBytes 8 n)

/-- A CTXCREATE goes on: it is answered, or waits for its chain list (R470). The second part says whether it is answered. -/
def State.tryCreate (s : State) (p : CreateCmd) : State × Bool :=
  match s.createCtx p with
  | .done a => (State.answered p.hdr 0x01 p.slot a, true)
  | .wait t buf => ({ t with ctxWait := some { p with buf := buf } }, false)

/-- The commands that waited for one that was not complete are next (R470). -/
def State.nextCmds (s : State) : State := { s with agenda := s.cmds.map (fun e => .queued e.1 e.2) ++ s.agenda, cmds := [] }

/-- The CTXCREATE that waits for its chain list goes on. -/
def State.endCreate (s : State) : State :=
  match s.ctxWait with
  | none => s
  | some p =>
    let r := State.tryCreate { s with ctxWait := none } p
    if r.2 then r.1.nextCmds else r.1

/-- Takes away a queue's messages that are not fully placed, and its binding (R471): placed teams run on. -/
def State.unbind (s : State) (q : Nat) : State :=
  { s with
    queues := mdel s.queues q
    launches := (s.launches.filter (fun e => e.2.queue != q || e.2.placed || !e.2.teams.isEmpty || !e.2.survs.isEmpty)).map (fun e =>
      if e.2.queue = q then (e.1, { e.2 with queue := noQueue, placed := true, ranges := [] }) else e) }

/-- Discards all the state of a context (R471). -/
def State.dropCtx (s : State) (ctx : Nat) : State :=
  let qs := (s.queues.filter (fun e => e.2.ctx == ctx)).map (·.1)
  let s1 := qs.foldl (fun (s : State) q => s.unbind q) s
  let crews := (s1.crews.filter (fun e => e.2.ctx == ctx)).map (·.1)
  let teams := (s1.teams.filter (fun e => e.2.ctx == ctx)).map (·.1)
  let nodes := (s1.nodes.filter (fun e => e.2.ctx == ctx)).map (·.1)
  let held := fun (m : Msg) => m.tag.ctx == ctx && (m.held.isSome || (match m.kind with | .nodePush _ _ => true | _ => false))
  { s1 with
    crews := s1.crews.filter (fun e => e.2.ctx != ctx)
    fenceShots := s1.fenceShots.filter (fun e => !crews.contains e.1)
    teams := s1.teams.filter (fun e => e.2.ctx != ctx)
    deques := s1.deques.map (fun e => (e.1, e.2.filter (fun t => t.ctx != ctx)))
    launches := s1.launches.map (fun e => (e.1, { e.2 with
      teams := e.2.teams.filter (fun t => !teams.contains t), survs := e.2.survs.filter (fun k => !crews.contains k) }))
    nodes := s1.nodes.filter (fun e => e.2.ctx != ctx)
    pools := s1.pools.map (fun e => (e.1, { e.2 with wait := e.2.wait.filter (fun n => !nodes.contains n) }))
    sealedQ := s1.sealedQ.filter (fun t => t.ctx != ctx)
    chains := s1.chains.filter (fun e => e.2.ctx != ctx)
    clusters := s1.clusters.filter (fun e => e.1 / 64 != ctx)
    colls := s1.colls.filter (fun c => c.ctx != ctx)
    net := s1.net.filter (fun m => !held m)
    peerReqs := s1.peerReqs.filter (fun q => q.tag.ctx != ctx)
    hostReqs := s1.hostReqs.filter (fun q => q.tag.ctx != ctx)
    ctxs := mdel s1.ctxs ctx }

/-- CTXDESTROY (R471): the halt line rises, what is on its way arrives, and the rest goes. -/
def State.destroyCtx (s : State) (ctx : Nat) : State := ((s.raiseLine ctx Cause.none none).passNet.passAcks).dropCtx ctx

/-! Queues (R420, R471). -/

/-- BINDQ. -/
def State.bindQueue (s : State) (h : CmdHdr) (q ctx : Nat) (caddr : Dword) (priv : Bool) : Answer :=
  if 4095 < q ∨ caddr.toNat % 8 ≠ 0 then s.no stRange
  else s.onCtx h ctx (fun _ =>
    if (mget s.queues q).isSome then s.no stBusy
    else
      let b : Queue := { ctx := ctx, ident := h.ident, caddr := caddr, priv := priv, expseq := 1, cseq := 0, msgs := [], finished := [] }
      State.yes { s with queues := mput s.queues q b })

/-- UNBINDQ. -/
def State.unbindQueue (s : State) (h : CmdHdr) (q : Nat) : Answer :=
  match mget s.queues q with
  | none => s.no stState
  | some b => if b.ident ≠ h.ident then s.no stDenied else (s.unbind q).yes

/-! Halts and resumes (R436, R447, R458, R459). -/

/-- The debugger's halt (R436): every party of the context on the device records DEBUG, in place of the PEER that the line
alone would give. -/
def State.debugHalt (s : State) (ctx : Nat) : State :=
  let was := ((mget s.ctxs ctx).map (·.halted)).getD false
  let s1 := s.raiseLine ctx (Cause.none.add causeDebug 0) none
  let mark := fun (c : Cause) => (if was then c else c.clear 0x08).add causeDebug 0
  ({ s1 with crews := s1.crews.map (fun e =>
      if e.2.ctx = ctx ∧ !e.2.evicted then (e.1, { e.2 with cause := mark e.2.cause }) else e) } : State).modCtx ctx
    (fun x => { x with own := x.own.add causeDebug 0, cause := x.cause.add causeDebug 0 })

/-! Translations (R86). -/

/-- Whether two ranges of virtual addresses meet; length 0 means all (R471). -/
def vaMeets (va len a n : Nat) : Bool := len == 0 || rangesMeet va len a n

/-- Whether a crew has an access on its way that was translated before (R86). -/
def Crew.oldAccess (c : Crew) : Bool :=
  !c.loads.isEmpty || !c.sq.isEmpty || !c.unacked.isEmpty || !c.rwOps.isEmpty ||
  (match c.waitOp with
   | some (.hdrain _ _ _ _ _ _) => true
   | some (.promote _ _ _ _ _) => true
   | some (.freeze _ _ _ _ _ _) => true
   | _ => false)

/-- Translates the access of a wait point anew (R86). -/
def State.freshAcc (s : State) (id : Nat) (c : Crew) (a : LaneAcc) (acc : Acc) (mk : LaneAcc → WaitOp) : State :=
  match s.translate c.unit c.ctx a.va acc with
  | (s1, .ok t) => s1.setWaitOp id (mk { a with tgt := t.tgt, owner := t.owner, leaf := t.leaf, level := t.level })
  | (s1, .error x) => s1.waitFault id (x.record ((c.wait.map (·.pc)).getD 0) a.va acc a.lane)

/-- The same for whatever a crew waits for. -/
def State.freshWait (s : State) (id : Nat) : State :=
  match mget s.crews id with
  | none => s
  | some c =>
    match c.waitOp with
    | some (.seqMem a) => s.freshAcc id c a .load .seqMem
    | some (.bbwait a) => s.freshAcc id c a .load .bbwait
    | some (.nqtake a) => s.freshAcc id c a .atomic .nqtake
    | _ => s

/-- The partials that a pick names, in the L1s and in the pools of spilled ones (R107, R109). -/
def State.partials (s : State) (pick : Line → Bool) : List Line :=
  ((s.l1s.map (fun e => e.2.filter Line.isPart)).flatten ++ (s.spills.map (fun e => e.2.map (·.line))).flatten).filter pick

/-- Combines the partials that a pick names into their homes; one that cannot be combined is its access's fault (R110, R144). -/
def State.recallParts (s : State) (pick : Line → Bool) : State :=
  (s.partials pick).foldl (fun (s : State) l => s.recallLine l false) s

/-- TLBINV (R86): the entries go and what used them reaches its home: every dirty line is written back and every partial combined,
since a line may hold bytes that an older translation placed. The second part says whether all of it has. -/
def State.invalidate (s : State) (asn : Nat) (va len : Dword) : State × Bool :=
  let n := len.toNat
  let mine := fun (ctx : Nat) => ((mget s.ctxs ctx).map (fun x => x.asn == asn)).getD false
  let s1 : State := { s with
    tlbs := s.tlbs.map (fun e => (e.1, e.2.filter (fun t =>
      !(t.asn == asn && vaMeets va.toNat n (t.page <<< t.bits) (2 ^ t.bits)))))
    walks := s.walks.map (fun e => (e.1, e.2.filter (fun w => w.asn != asn))) }
  let s2 := ((s1.l1s.foldl (fun (s : State) e => s.writeBackWhere e.1 (fun _ => true)) s1).passNet.passAcks).recallParts (fun _ => true)
  let crews := s2.crews.filter (fun e => mine e.2.ctx)
  let s3 := crews.foldl (fun (s : State) e => s.freshWait e.1) s2
  let recorded := fun (ctx : Nat) => ((mget s3.ctxs ctx).map (fun x => x.halted && x.recorded)).getD false
  let busy := crews.any (fun e => e.2.oldAccess && !recorded e.2.ctx) ||
    s3.net.any (fun m => mine m.tag.ctx && !recorded m.tag.ctx) ||
    s3.peerReqs.any (fun q => mine q.tag.ctx && !recorded q.tag.ctx) ||
    s3.hostReqs.any (fun q => mine q.tag.ctx && !recorded q.tag.ctx)
  (s3, !busy)

/-- The TLBINV that the management core has begun is answered once it is complete; the commands that waited for it are next (R86,
R470). -/
def State.endTlbinv (s : State) : State :=
  match s.tlbWait with
  | none => s
  | some p =>
    let r := s.invalidate p.asn p.va p.len
    if r.2 then
      (State.answered p.hdr 0x09 p.slot (State.yes { r.1 with tlbWait := none })).nextCmds
    else r.1

/-! Owners' keys (R89, R492). -/

/-- OWNKEY (R492). -/
def State.replaceKey (s : State) (owner : Nat) : State :=
  let s1 := s.recallParts (fun l => l.owner == owner)
  let s2 := (s1.l1s.foldl (fun (s : State) e => s.l1Rwi e.1 (fun l => l.owner == owner)) s1).passNet
  { s2 with
    clusters := s2.clusters.map (fun e => (e.1, { e.2 with obuf := e.2.obuf.filter (fun o => o.owner != owner) }))
    keyGen := mput s2.keyGen owner (mgetD s2.keyGen owner 0 + 1) }

/-! Memory (R472). -/

/-- Whether an identity may use an owner's key (R472). -/
def State.mayUse (s : State) (h : CmdHdr) (q : Session) (owner : Nat) : Bool :=
  q.admin || s.ctxs.any (fun e => e.2.ident == h.ident && e.2.ptown == owner)

/-- The lines that n bytes touch. -/
def linesOf (pa n : Nat) : List Nat := if n = 0 then [] else (List.range ((pa + n - 1) / 128 - pa / 128 + 1)).map (fun i => pa / 128 + i)

/-- Recalls every line that n bytes touch (R110), or the failure. -/
def State.recallLines (s : State) (pa n : Nat) : Except Nat State :=
  (linesOf pa n).foldlM (fun (s : State) ln => s.recallAt (128 * ln)) s

/-- Whether n bytes meet the entries of an open heap (R309, R472). -/
def State.entriesHit (s : State) (pa n : Nat) : Bool :=
  s.heaps.any (fun e => s.heapOpen e.2 e.1 && rangesMeet (e.1 + 64) (8 * heapCap (s.homeDw e.2 e.1)) pa n)

/-- MEMRD (R472). -/
def State.memRead (s : State) (h : CmdHdr) (q : Session) (pa owner n : Nat) : Answer :=
  if !s.mayUse h q owner then s.no stDenied
  else if 255 < owner ∨ 1000 < n ∨ !inHbm pa n then s.no stRange
  else if s.entriesHit pa n then s.no stHeapopen
  else
    match s.recallLines pa n with
    | .error _ => s.no stPoison
    | .ok s1 => if s1.poisoned pa n then s.no stPoison else (s1, stOk, s1.homeRead owner pa n)

/-- MEMWR (R472): the L1s' own dirty bytes come after. -/
def State.memWrite (s : State) (h : CmdHdr) (q : Session) (pa owner : Nat) (bs : List Byte) : Answer :=
  let n := bs.length
  if !s.mayUse h q owner then s.no stDenied
  else if 255 < owner ∨ 992 < n ∨ !inHbm pa n then s.no stRange
  else if s.frozenAt pa n then s.no stFrozen
  else if s.heapHit pa n false then s.no stHeapopen
  else
    match s.recallLines pa n with
    | .error _ => s.no stPoison
    | .ok s1 =>
      let s2 := (linesOf pa n).foldl (fun (s : State) ln => s.touch ln) (s1.homeWrite owner (maskedCells pa (bs.map some)) false)
      let pick := fun (l : Line) => l.dev == s2.devnum && (linesOf pa n).contains l.ln
      (s2.l1s.foldl (fun (s : State) e => s.l1Rwi e.1 pick) s2).passNet.yes

/-! Control blocks (R463, R464, R478, R479). -/

/-- MGCSTAT (R478). -/
def State.mgcstat (s : State) : Dword :=
  BitVec.ofNat 64 (s.powerLimit * 2 ^ 48 + s.power % 2 ^ 16 * 2 ^ 32 + s.rot.boot * 2 ^ 8 + (if s.rot.warm then 2 else 0) + s.rot.die)

/-- SNAPCTL (R463). -/
def Snap.word (p : Snap) : Dword :=
  let b := fun (x : Bool) (i : Nat) => if x then 2 ^ i else 0
  BitVec.ofNat 64 (p.gen.toNat * 2 ^ 32 + b p.halten 3 + b p.pinen 2 + b p.progen 1 + b p.arm 0)

/-- The units as they are (R463, R464). -/
def State.units (s : State) : Units :=
  { crews := s.crews, l1s := s.l1s, mem := s.mem, spills := s.spills, clusters := s.clusters, chains := s.chains,
    freezes := s.freezes, ranges := s.ranges, ctxs := s.ctxs, queues := s.queues, launches := s.launches, tlbs := s.tlbs,
    walks := s.walks }

/-- The state of one unit of a kind (R464). DESIGN CHOICE, after R479: the index of a register file, of crew state and of an L1 is the
core, that of an accumulator tile 32 times the cluster plus the tile. Log entry 24. -/
def Units.only (u : Units) (kind i : Nat) : Units :=
  let at_ := fun {α : Type} (m : NatMap α) => m.filter (fun e => e.1 == i)
  let z := Units.empty
  match kind with
  | 1 | 2 => { z with crews := u.crews.filter (fun e => e.2.core == i) }
  | 3 => { z with l1s := at_ u.l1s }
  | 4 => { z with mem := { cells := u.mem.cells.filter (fun c => homeSlice c.1 == i)
                           keys := u.mem.keys.filter (fun c => homeSlice (16 * c.1) == i)
                           poison := u.mem.poison.filter (fun c => homeSlice (32 * c.1) == i) } }
  | 5 => { z with clusters := u.clusters.filter (fun e => e.1 % 64 == i / 32) }
  | 6 => { z with clusters := u.clusters.filter (fun e => e.1 % 64 == i) }
  | 7 => { z with chains := at_ u.chains }
  | 8 => { z with freezes := u.freezes }
  | 9 => { z with ranges := at_ u.ranges, spills := at_ u.spills }
  | 10 => { z with ctxs := at_ u.ctxs }
  | 11 => { z with queues := at_ u.queues, launches := u.launches.filter (fun e => e.2.queue == i) }
  | _ => { z with tlbs := at_ u.tlbs, walks := at_ u.walks }

/-- A dword of the readback window of a die (R464): of the snapshot copy or of live state; what is not assigned reads zero. -/
def State.readWindow (s : State) (die off : Nat) : Dword :=
  let sel := if die = 0 then s.snap.rbsel0 else s.snap.rbsel1
  let kind := bits sel 32 16
  let unit := bits sel 16 16
  if kind = 0 ∨ 12 < kind ∨ Config.unitPages die kind unit ≤ bits sel 0 16 then 0
  else Config.readback sel off ((if sel.getLsbD 63 then s.snap.copy else s.units).only kind unit)

/-- A register of a control block by its offset (R81, R463, R464, R478, R479); what is not listed reads zero. -/
def State.ctlReg (s : State) (block o : Nat) : Dword :=
  let row := fun (m : NatMap (List Dword)) (base : Nat) => (mgetD m ((o - base) / 32) []).getD ((o - base) / 8 % 4) 0
  match block with
  | 1 =>
    if o = 0 then s.mgcstat
    else if o = 8 then BitVec.ofNat 64 s.logs.cmddone
    else if o = 0x20 then s.logs.porterr0
    else if o = 0x28 then s.logs.porterr1
    else if 0x1000 ≤ o ∧ o < 0x9000 then mgetD s.logs.qerr ((o - 0x1000) / 8) 0
    else if 0x10000 ≤ o ∧ o < 0x12000 then row s.logs.cmdlog 0x10000
    else 0
  | 2 =>
    if o = 0 then s.snap.word else if o = 0x100 then s.snap.rbsel0
    else if 0x10000 ≤ o ∧ o < 0x20000 then s.readWindow 0 (o - 0x10000) else 0
  | 3 =>
    if o = 0x100 then s.snap.rbsel1 else if 0x10000 ≤ o ∧ o < 0x20000 then s.readWindow 1 (o - 0x10000) else 0
  | 4 =>
    if o < 0xC0 then mgetD s.logs.counts (o / 8) 0
    else if o = 0x100 then BitVec.ofNat 64 s.logs.evcount
    else if 0x1000 ≤ o ∧ o < 0x9000 then row s.logs.events 0x1000
    else 0
  | _ => 0

/-- A write to a register of a control block (R81, R478): those that are not RW ignore it. -/
def State.setCtlReg (s : State) (block o : Nat) (v : Dword) : State :=
  match block with
  | 1 =>
    if o = 0x20 then { s with logs := { s.logs with porterr0 := v } }
    else if o = 0x28 then { s with logs := { s.logs with porterr1 := v } }
    else if 0x1000 ≤ o ∧ o < 0x9000 then { s with logs := { s.logs with qerr := mput s.logs.qerr ((o - 0x1000) / 8) v } }
    else s
  | 2 =>
    if o = 0 then
      { s with snap := { s.snap with halten := v.getLsbD 3, pinen := v.getLsbD 2, progen := v.getLsbD 1, arm := v.getLsbD 0 } }
    else if o = 0x100 then { s with snap := { s.snap with rbsel0 := v } }
    else s
  | 3 => if o = 0x100 then { s with snap := { s.snap with rbsel1 := v } } else s
  | 4 => if o < 0xC0 then { s with logs := { s.logs with counts := mput s.logs.counts (o / 8) v } } else s
  | _ => s

/-- Bytes of a control block. -/
def State.ctlBytes (s : State) (block off n : Nat) : List Byte :=
  (List.range n).map (fun i => (leBytes 8 (s.ctlReg block ((off + i) / 8 * 8)).toNat).getD ((off + i) % 8) 0)

/-- Writes bytes to a control block, dword by dword: bytes not written keep their register's. -/
def State.ctlPut (s : State) (block off : Nat) (bs : List Byte) : State :=
  let ds := ((List.range bs.length).map (fun i => (off + i) / 8)).eraseDups
  ds.foldl (fun (s : State) d =>
    let old := leBytes 8 (s.ctlReg block (8 * d)).toNat
    let new := old.zipIdx.map (fun b => if off ≤ 8 * d + b.2 then bs.getD (8 * d + b.2 - off) b.1 else b.1)
    s.setCtlReg block (8 * d) (BitVec.ofNat 64 (leNat new))) s

/-- CTLRD and CTLWR reach blocks 1 to 4 for the administrator, and the reserved blocks, which read zero and ignore writes (R81,
R467, R471). -/
def State.ctlAccess (s : State) (q : Session) (block off n most : Nat) (run : Answer) : Answer :=
  if !q.admin then s.no stDenied
  else if block < 1 ∨ 255 < block ∨ most < n ∨ 2 ^ 28 < off + n then s.no stRange
  else run

/-! Reports (R475, R476). -/

/-- The records of an identity's contexts and queues. -/
def State.reportRecords (s : State) (ident : Nat) : List (List Byte) :=
  let ctx := fun (e : Nat × Ctx) =>
    let st := if e.2.halted then 1 else if e.2.evicted then 2 else 0
    leBytes 8 ((if st = 0 then 0 else e.2.cause.word.toNat) * 2 ^ 32 + st * 2 ^ 16 + e.1 * 2 ^ 8 + 1) ++ leBytes 8 e.2.haltseq.toNat
  let queue := fun (e : Nat × Queue) =>
    leBytes 8 (e.2.expseq.toNat * 2 ^ 32 + e.1 * 2 ^ 16 + e.2.ctx * 2 ^ 8 + 2) ++
      leBytes 8 (e.2.msgs.length * 2 ^ 32 + e.2.cseq.toNat)
  (s.ctxs.filter (fun e => e.2.ident == ident)).map ctx ++ (s.queues.filter (fun e => e.2.ident == ident)).map queue

/-- REPORT's payload (R476). -/
def State.reportBytes (s : State) (ident first : Nat) : List Byte :=
  let rest := (s.reportRecords ident).drop first
  let now := rest.take 62
  leBytes 8 ((if now.length < rest.length then 256 else 0) + now.length) ++ leBytes 8 0 ++ now.flatten

/-! The meanings. -/

/-- CTXCREATE (R504): it responds when its chain list has been read; until then the commands that follow wait. -/
def execCtxcreate (c : CmdHdr) (desc : List Dword) (s : State) : Out :=
  .next (s.onCommand c { code := 0x01, ops := desc.map (·.toNat), str := [] } (fun s q =>
    (s.tryCreate { hdr := c, slot := q.slot, desc := desc, buf := [], bad := false }).1))
/-- CTXDESTROY (R471). -/
def execCtxdestroy (c : CmdHdr) (ctx : Nat) (s : State) : Out :=
  .next (s.command c { code := 0x02, ops := [ctx], str := [] } (fun s _ => s.onCtx c ctx (fun _ => (s.destroyCtx ctx).yes)))
/-- BINDQ (R420, R471). -/
def execBindq (c : CmdHdr) (queue ctx : Nat) (caddr : Dword) (priv : Bool) (s : State) : Out :=
  .next (s.command c { code := 0x03, ops := [queue, ctx, caddr.toNat, priv.toNat], str := [] } (fun s _ => s.bindQueue c queue ctx caddr priv))
/-- UNBINDQ (R471). -/
def execUnbindq (c : CmdHdr) (queue : Nat) (s : State) : Out := .next (s.command c { code := 0x04, ops := [queue], str := [] } (fun s _ => s.unbindQueue c queue))
/-- HALT (R436, R471). -/
def execHalt (c : CmdHdr) (ctx : Nat) (s : State) : Out :=
  .next (s.command c { code := 0x05, ops := [ctx], str := [] } (fun s _ => s.onCtx c ctx (fun _ => (s.debugHalt ctx).yes)))
/-- RELEASE (R458): DEBUG is cleared. -/
def execRelease (c : CmdHdr) (ctx : Nat) (s : State) : Out :=
  .next (s.command c { code := 0x06, ops := [ctx], str := [] } (fun s _ => s.onCtx c ctx (fun _ => (s.clearCauses ctx 0x02).yes)))
/-- FAULTCLR (R458): FAULT, WDOG and TRAPOVF are cleared. -/
def execFaultclr (c : CmdHdr) (ctx : Nat) (s : State) : Out :=
  .next (s.command c { code := 0x07, ops := [ctx], str := [] } (fun s _ => s.onCtx c ctx (fun _ => (s.clearCauses ctx 0x51).yes)))
/-- RESUME (R459). -/
def execResume (c : CmdHdr) (ctx : Nat) (s : State) : Out :=
  .next (s.command c { code := 0x08, ops := [ctx], str := [] } (fun s _ => s.onCtx c ctx (fun _ =>
    match s.resumeCtx ctx with
    | some s1 => s1.yes
    | none => s.no stState)))
/-- TLBINV (R86, R470): it responds when it is complete; until then the commands that follow wait. -/
def execTlbinv (c : CmdHdr) (asn : Nat) (va len : Dword) (s : State) : Out :=
  .next (s.onCommand c { code := 0x09, ops := [asn, va.toNat, len.toNat], str := [] } (fun s q =>
    State.endTlbinv { s with tlbWait := some { hdr := c, slot := q.slot, asn := asn, va := va, len := len } }))
/-- OWNKEY (R492). -/
def execOwnkey (c : CmdHdr) (owner : Nat) (s : State) : Out :=
  .next (s.command c { code := 0x0A, ops := [owner], str := [] } (fun s _ =>
    if 255 < owner then s.no stRange
    else if s.ctxs.any (fun e => e.2.ptown == owner) then s.no stState
    else (s.replaceKey owner).yes))
/-- THAWFORCE (R477): the device it names drops its replicas, this one where it is named. -/
def execThawforce (c : CmdHdr) (entry dev : Nat) (s : State) : Out :=
  .next (s.command c { code := 0x0B, ops := [entry, dev], str := [] } (fun s _ =>
    match mget s.freezes entry with
    | none => s.no stState
    | some f =>
      if f.state == .thawing && f.asked.contains dev then
        ((if dev = s.devnum then s.forcedOut else s).collected entry dev).yes
      else s.no stState))
/-- SNAPTRIG (R463). -/
def execSnaptrig (c : CmdHdr) (s : State) : Out := .next (s.command c { code := 0x0C, ops := [], str := [] } (fun s _ => s.trigger.yes))
/-- POWERLIM (R14, R471). -/
def execPowerlim (c : CmdHdr) (watts : Nat) (s : State) : Out :=
  .next (s.command c { code := 0x0D, ops := [watts], str := [] } (fun s _ => if watts < 1200 ∨ 2100 < watts then s.no stRange else State.yes { s with powerLimit := watts }))
/-- MEMRD (R472). -/
def execMemrd (c : CmdHdr) (pa owner len : Nat) (s : State) : Out :=
  .next (s.command c { code := 0x0E, ops := [pa, owner, len], str := [] } (fun s q => s.memRead c q pa owner len))
/-- MEMWR (R472). -/
def execMemwr (c : CmdHdr) (pa owner : Nat) (bytes : List Byte) (s : State) : Out :=
  .next (s.command c { code := 0x0F, ops := [pa, owner], str := bytes } (fun s q => s.memWrite c q pa owner bytes))
/-- CTLRD (R467, R471). -/
def execCtlrd (c : CmdHdr) (block off len : Nat) (s : State) : Out :=
  .next (s.command c { code := 0x10, ops := [block, off, len], str := [] } (fun s q => s.ctlAccess q block off len 1000 (s, stOk, s.ctlBytes block off len)))
/-- CTLWR (R467, R471). -/
def execCtlwr (c : CmdHdr) (block off : Nat) (bytes : List Byte) (s : State) : Out :=
  .next (s.command c { code := 0x11, ops := [block, off], str := bytes } (fun s q => s.ctlAccess q block off bytes.length 992 (s.ctlPut block off bytes).yes))
/-- HOSTWIN (R473). -/
def execHostwin (c : CmdHdr) (ctx base size : Nat) (s : State) : Out :=
  .next (s.command c { code := 0x12, ops := [ctx, base, size], str := [] } (fun s _ =>
    if size % 65536 ≠ 0 ∨ 2 ^ 44 < size then s.no stRange
    else s.onCtx c ctx (fun _ => (s.modCtx ctx (fun x => { x with window := some (BitVec.ofNat 64 base, size) })).yes)))
/-- PODJOIN (R18, R471). -/
def execPodjoin (c : CmdHdr) (dev size : Nat) (s : State) : Out :=
  .next (s.command c { code := 0x13, ops := [dev, size], str := [] } (fun s _ =>
    if !s.ctxs.isEmpty then s.no stState
    else if size ≤ dev ∨ 1024 < size then s.no stRange
    else State.yes { s with devnum := dev, podsize := size }))
/-- LINKKEY (R344, R471). -/
def execLinkkey (c : CmdHdr) (port : Nat) (key : List Byte) (s : State) : Out :=
  .next (s.command c { code := 0x14, ops := [port], str := key } (fun s _ =>
    if 15 < port ∨ key.length ≠ 64 then s.no stRange else State.yes { s with linkKeys := mput s.linkKeys port key }))
/-- EPSET (R347, R471). -/
def execEpset (c : CmdHdr) (idx : Nat) (bytes : List Byte) (s : State) : Out :=
  .next (s.command c { code := 0x15, ops := [idx], str := bytes } (fun s _ =>
    if 4095 < idx then s.no stRange else State.yes { s with endpoints := mput s.endpoints idx bytes }))
/-- REPORT (R475, R476). -/
def execReport (c : CmdHdr) (first : Nat) (s : State) : Out :=
  .next (s.command c { code := 0x16, ops := [first], str := [] } (fun s _ => (s, stOk, s.reportBytes c.ident first)))
/-- A code that R471 does not list: BADCMD. -/
def execUnassignedCommand (c : CmdHdr) (code : Nat) (s : State) : Out :=
  .next (if 1 ≤ code ∧ code ≤ 0x18 then s else s.command c { code := code, ops := [], str := [] } (fun s _ => s.no stBadcmd))

end Sys2Proof.Machine
end

