-- ==== Sys2Proof/Machine/Trust.lean ====
section
/-!
DEFINITION. The root-of-trust block and the management core's registers (R481 to R486, R488 to R492), the SPDM responder
(R466, R487), the debug unlock and the lifecycle (R489 to R491).
-/

namespace Sys2Proof.Machine

/-- Changes the root-of-trust block. -/
def State.modRot (s : State) (f : Rot → Rot) : State := { s with rot := f s.rot }

/-- A 512-bit digest as its 64 bytes. -/
def digestBytes (d : BitVec 512) : List Byte := leBytes 64 d.toNat

/-- MEASn (R482): MEAS0 is the ROM digest, an empty register reads zero. -/
def Rot.measAt (r : Rot) (n : Nat) : BitVec 512 := if n = 0 then Config.romDigest else mgetD r.meas n 0

/-- MEMPTY (R482): bit n set while MEASn is empty. -/
def Rot.mempty (r : Rot) : Nat := ((List.range 8).map (fun n => if n = 0 ∨ (mget r.meas n).isSome then 0 else 2 ^ n)).foldl (· + ·) 0

/-! The management core's addresses (R481, R482). -/

/-! The device identity (R486). -/

/-- HMAC-SHA-512 of a message under a key of at most 128 bytes. PRESUMED: as RFC 2104 builds it from the hash of R482, which the spec
names without its construction. Log entry 124. -/
def hmac512 (key msg : List Byte) : BitVec 512 :=
  let pad := fun (x : Byte) => (List.range 128).map (fun i => key.getD i 0 ^^^ x)
  Config.sha512 (pad 0x5C ++ digestBytes (Config.sha512 (pad 0x36 ++ msg)))

/-- A key's seed: the first 32 bytes of HMAC-SHA-512 of a message under the fused device secret. -/
def seedOf (msg : List Byte) : List Byte := (digestBytes (hmac512 ((List.range 64).map Config.deviceSecret) msg)).take 32

/-- The DeviceID key's seed: of the text DVX-DEVICEID. -/
def deviceIdSeed : List Byte := seedOf [0x44, 0x56, 0x58, 0x2D, 0x44, 0x45, 0x56, 0x49, 0x43, 0x45, 0x49, 0x44]

/-- The alias key's seed: of MEAS0, MEAS1, MEAS2 and the LCS byte, which nothing changes but what derives it again. -/
def Rot.aliasSeed (r : Rot) : List Byte :=
  seedOf (digestBytes (r.measAt 0) ++ digestBytes (r.measAt 1) ++ digestBytes (r.measAt 2) ++ [r.lcs])

/-- Certificate slot 0: the Dvoryx root, DeviceID, and the alias certificate that was issued last. -/
def Rot.certChain (r : Rot) : List (List Byte) :=
  [Config.rootCert, Config.deviceIdCert, Config.aliasCert deviceIdSeed r.aliasSeed r.aliasGen]

/-- A root-of-trust register at its offset from 0x1000_0000 (R482); WO registers and what is not listed read zero. DESIGN CHOICE: a byte
of RXBUF or TXBUF that nothing has written reads zero, where the map gives no reset value. Log entries 7 and 20. -/
def Rot.reg (r : Rot) (o : Nat) : Nat :=
  let b := fun (x : Bool) (i : Nat) => if x then 2 ^ i else 0
  let area := fun (m : List (Nat × Byte)) (base : Nat) => leNat ((List.range 8).map (fun i => mgetD m (o - base + i) 0))
  match o with
  | 0x0000 => r.hsrc.toNat
  | 0x0008 => r.hlen.toNat
  | 0x0018 => b r.hbusy 0 + b r.herr 1
  | 0x1000 => r.ekey.toNat
  | 0x1008 => r.esig.toNat
  | 0x1010 => r.emsg.toNat
  | 0x1018 => r.emlen.toNat
  | 0x1028 => b r.ebusy 0 + b r.evalid 1 + b r.ekeymode 2
  | 0x2200 => r.mempty
  | 0x3000 => Config.uid0.toNat
  | 0x3008 => Config.uid1.toNat
  | 0x3010 => r.lcf.toNat
  | 0x3018 => r.lcs.toNat
  | 0x3028 => r.die
  | 0x4008 => b r.kbusy 0 + b r.wiped 1 + b r.kerr 2
  | 0x5000 => b r.dbg 0
  | 0x6000 => r.rxlen.toNat
  | 0x6010 => (Config.entropy r.rngs).toNat
  | o =>
    if 0x40 ≤ o ∧ o < 0x80 then r.hdig.toNat >>> (8 * (o - 0x40)) % 2 ^ 64
    else if 0x2000 ≤ o ∧ o < 0x2200 then (r.measAt ((o - 0x2000) / 64)).toNat >>> (8 * (o % 64)) % 2 ^ 64
    else if 0x6100 ≤ o ∧ o < 0x6500 then area r.rxbuf 0x6100
    else if 0x6600 ≤ o ∧ o < 0x6A00 then area r.txbuf 0x6600
    else 0

/-- The bytes of a boot image's header (R484). -/
def BootHdr.bytes (h : BootHdr) : List Byte :=
  leBytes 8 (h.version.toNat * 2 ^ 32 + h.magic.toNat) ++ leBytes 8 (h.entry.toNat * 2 ^ 32 + h.plen.toNat) ++
  ((List.range 6).map (fun i => leBytes 8 (h.rest.getD i 0).toNat)).flatten ++ digestBytes h.sig

/-- A byte of SRAM that no register write has written: the image's header and payload, which the boot has read to its base (R483,
R484), or one of the bytes the boot leaves there. -/
def Rot.sramAt (r : Rot) (i : Nat) : Byte :=
  if r.boot < 2 then Config.sramByte i
  else if i < 128 then r.image.bytes.getD i 0
  else if i - 128 < r.image.plen.toNat then Config.imageByte (i - 128)
  else Config.sramByte i

/-- Whether the image's SIG is a signature of the digest of its payload under the vendor image key at 0xF000 of the ROM (R484). -/
def BootHdr.signed (h : BootHdr) (digest : BitVec 512) : Bool :=
  Config.ed25519 ((List.range 32).map (fun i => Config.romByte (0xF000 + i))) (digestBytes h.sig) (digestBytes digest)

/-- A byte at an address of the management core's map (R481): none where it is unreadable. -/
def State.mgmtByte (s : State) (a : Nat) : Option Byte :=
  let pa := a - 0x100000000000
  if a < 0x10000 then some (Config.romByte a)
  else if 0x1000000 ≤ a ∧ a < 0x1100000 then some ((mget s.rot.sram (a - 0x1000000)).getD (s.rot.sramAt (a - 0x1000000)))
  else if 0x10000000 ≤ a ∧ a < 0x10007000 then
    (leBytes 8 (s.rot.reg ((a - 0x10000000) / 8 * 8)))[a % 8]?
  else if a < 0x100000000000 then none
  else if inHbm pa 1 then
    match s.homeLoad 0 pa 1 with
    | .ok (_, bs, false) => bs.head?
    | _ => none
  else if 0xF0000000000 ≤ pa ∧ pa < 0xF0010000000 then (s.gazRead (pa - 0xF0000000000) 1).head?
  else if 0xF0010000000 ≤ pa ∧ pa < 0xF1000000000 then (s.ctlBytes ((pa - 0xF0000000000) / 2 ^ 28) (pa % 2 ^ 28) 1).head?
  else none

/-- n bytes of the map. -/
def State.mgmtBytes (s : State) (a n : Nat) : Option (List Byte) := (List.range n).mapM (fun i => s.mgmtByte (a + i))

/-- A read of RNG (R482): it has returned the next 8 bytes of the entropy source. -/
def Rot.readRng (r : Rot) : Rot := { r with rng := Config.entropy r.rngs, rngs := r.rngs + 1 }

/-- A read of n bytes of the map, which may read RNG. -/
def Rot.passRng (r : Rot) (a n : Nat) : Rot := if a < 0x10006018 ∧ 0x10006010 < a + n then r.readRng else r

/-! The hash engine and the measurements (R482, R485). -/

/-- HCTL: a write of 1 starts a hash. -/
def State.startHash (s : State) (v : Dword) : State :=
  if v = 1 ∧ !s.rot.hbusy then s.modRot (fun r => { r with hbusy := true }) else s

/-- A hash that runs completes: the digest, or ERR where the source is unreadable. -/
def State.endHash (s : State) : State :=
  if !s.rot.hbusy then s
  else
    match (if 2 ^ 32 ≤ s.rot.hlen.toNat then none else s.mgmtBytes s.rot.hsrc.toNat s.rot.hlen.toNat) with
    | none => s.modRot (fun r => { r with hbusy := false, herr := true })
    | some bs => s.modRot (fun r => { r.passRng r.hsrc.toNat r.hlen.toNat with hbusy := false, herr := false, hdig := Config.sha512 bs })

/-- MEXT (R485): it waits until the hash engine is idle. -/
def Rot.extend (r : Rot) (n : Nat) : Rot :=
  if n = 0 ∨ 7 < n ∨ r.herr then r
  else
    { r with
      meas := mput r.meas n (match mget r.meas n with
        | none => r.hdig
        | some m => Config.sha512 (digestBytes m ++ digestBytes r.hdig))
      aliasGen := if n ≤ 2 then r.aliasGen + 1 else r.aliasGen }

/-! The verify engine and tokens (R482, R489, R490). -/

/-- Whether a message is a token of this part in its lifecycle (R490). -/
def Rot.tokenFits (r : Rot) (msg : List Byte) : Bool :=
  msg.length == 64 && (msg.getD 4 0) == r.lcf && (msg.drop 8).take 16 == leBytes 8 Config.uid0.toNat ++ leBytes 8 Config.uid1.toNat

/-- The result of a verify of a message, in key mode for EKEY 0xF020 (R490). -/
def Rot.verified (r : Rot) (keymode : Bool) (key sig msg : Option (List Byte)) : Rot :=
  let ok := match key, sig, msg with
    | some k, some g, some m => Config.ed25519 k g m && decide (m.length ≤ 4096) && (!keymode || r.tokenFits m)
    | _, _, _ => false
  { r with ebusy := false, evalid := ok, ekeymode := keymode,
           etarget := if ok && keymode then msg.map (fun m => (m.getD 5 0).toNat) else none }

/-- ECTL: a write of 1 starts a verify. -/
def State.startVerify (s : State) (v : Dword) : State :=
  if v = 1 ∧ !s.rot.ebusy then s.modRot (fun r => { r with ebusy := true }) else s

/-- A verify that runs completes. -/
def State.endVerify (s : State) : State :=
  if !s.rot.ebusy then s
  else
    let n := s.rot.emlen.toNat
    s.modRot (fun r => (((r.passRng r.ekey.toNat 32).passRng r.esig.toNat 64).passRng r.emsg.toNat n).verified (r.ekey == 0xF020)
      (s.mgmtBytes r.ekey.toNat 32) (s.mgmtBytes r.esig.toNat 64) (if 4096 < n then none else s.mgmtBytes r.emsg.toNat n))

/-- The verify of a token that the management core makes with the debug-unlock key (R490, R491). -/
def State.verifyToken (s : State) (token : List Byte) : State :=
  s.modRot (fun r => Rot.verified { r with
    ekey := 0xF020, esig := Config.tokenAddr + 64, emsg := Config.tokenAddr, emlen := 64 } true
    (s.mgmtBytes 0xF020 32) (some (token.drop 64)) (some (token.take 64)))

/-! Keys and lifecycle (R486, R488, R491). -/

/-- A change of LCS derives the alias key again (R486). -/
def Rot.setLcs (r : Rot) (v : BitVec 8) : Rot := { r with lcs := v, aliasGen := r.aliasGen + 1 }

/-- Whether UNLOCK takes effect (R491). -/
def Rot.mayUnlock (r : Rot) : Bool := r.evalid && r.ekeymode && r.etarget == some 0 && r.wiped

/-- UNLOCK (R491). -/
def Rot.unlock (r : Rot) (v : Dword) : Rot := if v = 1 ∧ r.mayUnlock then r.setLcs 3 else r

/-- Every owner's key replaced (R87, R491). -/
def State.newKeys (s : State) : State := { s with keyGen := (List.range 256).map (fun o => (o, mgetD s.keyGen o 0 + 1)) }

/-- The wipe of R491: every cached copy is discarded without write-back, and every owner's key is replaced. -/
def State.wipe (s : State) : State :=
  let s1 : State := { s with
    l1s := [], spills := [], net := [], acks := []
    clusters := s.clusters.map (fun e => (e.1, { e.2 with obuf := [] })) }
  s1.newKeys.modRot (fun r => { r with kbusy := false, wiped := true, kerr := false })

/-- KCTL (R491): a wipe begins, or fails while any context exists. -/
def State.startWipe (s : State) (v : Dword) : State :=
  if v ≠ 1 then s
  else if !s.ctxs.isEmpty then s.modRot (fun r => { r with kerr := true })
  else s.modRot (fun r => { r with kbusy := true })

/-- A wipe that runs completes. -/
def State.endWipe (s : State) : State :=
  if !s.rot.kbusy then s
  else if !s.ctxs.isEmpty then s.modRot (fun r => { r with kbusy := false, kerr := true })
  else s.wipe

/-- DBGCTL (R4, R482): RWL while LCS is 3. -/
def Rot.setDbg (r : Rot) (v : Dword) : Rot :=
  if r.lcs = 3 ∧ !r.dbgLock then { r with dbg := v.getLsbD 0, dbgLock := true } else r

/-- Every session closes (R480, R491). -/
def State.closeSessions (s : State) : State := { (s.modRot (fun r => { r with conns := [] })) with sessions := [] }

/-- The token's 128 bytes (R489). -/
def tokenOf (bs : List Byte) : List Byte := (List.range 128).map (fun i => bs.getD i 0)

/-- DBGUNLOCK (R491): the routine unlock. A command that fails leaves no effect but KSTAT.ERR, and the wipe where it has been made
(R470, R491). -/
def State.debugUnlock (s : State) (bs : List Byte) : Answer :=
  let t := tokenOf bs
  if !s.rot.tokenFits (t.take 64) || t.getD 5 0 != 0 then s.no stState
  else
    let s1 := s.verifyToken t
    if !s1.rot.evalid then s.no stState
    else if !s.ctxs.isEmpty then (s.startWipe 1).no stState
    else
      let s2 := (s1.startWipe 1).endWipe
      let s3 := s2.modRot (fun r => (r.unlock 1).setDbg 1)
      if s3.rot.lcs ≠ 3 ∨ !s3.rot.dbg then ((s.startWipe 1).endWipe).no stState else s3.closeSessions.yes

/-- LCADVANCE (R488, R490): the fuse is blown, and LCF changes at the next power-on reset. -/
def State.advanceLc (s : State) (bs : List Byte) : Answer :=
  let t := tokenOf bs
  let target := t.getD 5 0
  if !((s.rot.lcf == 1 && target == 2) || (s.rot.lcf == 2 && target == 4)) then s.no stState
  else
    let s1 := s.verifyToken t
    if !s1.rot.evalid then s.no stState else (s1.modRot (fun r => { r with lcfNext := target })).yes

/-! Registers written by the management core (R4, R482). -/

/-- Puts bytes into a byte area. -/
def putBytes (m : List (Nat × Byte)) (o : Nat) (bs : List Byte) : List (Nat × Byte) :=
  bs.zipIdx.foldl (fun m b => mput m (o + b.2) b.1) m

/-- A write to a RW register of 64 bits that only stores (R4); what is RO or not listed ignores it. -/
def Rot.write (r : Rot) (o : Nat) (v : Dword) : Rot :=
  match o with
  | 0x0000 => { r with hsrc := v }
  | 0x0008 => { r with hlen := v }
  | 0x1000 => { r with ekey := v }
  | 0x1008 => { r with esig := v }
  | 0x1010 => { r with emsg := v }
  | 0x1018 => { r with emlen := v }
  | _ => r

/-- Bytes of TXBUF as it stands. -/
def Rot.txBytes (r : Rot) (n : Nat) : List Byte := (List.range (min n 0x400)).map (fun i => mgetD r.txbuf i 0)

/-- TXLEN: n bytes of TXBUF are sent. -/
def State.sendTx (s : State) (conn : Nat) (v : Dword) : State :=
  (s.modRot (fun r => { r with txlen := v })).send (.spdm conn (s.rot.txBytes v.toNat))

/-- A write to a root-of-trust register (R4, R482): a WO register performs its action. -/
def State.rotWrite (s : State) (o : Nat) (v : Dword) : State :=
  match o with
  | 0x0010 => s.startHash v
  | 0x1020 => s.startVerify v
  | 0x2208 => s.endHash.modRot (fun r => r.extend v.toNat)
  | 0x2210 => s.modRot (fun r => { r with hbeat := s.clk })
  | 0x3020 => s.modRot (fun r => r.unlock v)
  | 0x4000 => s.startWipe v
  | 0x5000 => s.modRot (fun r => r.setDbg v)
  | 0x6000 => s.modRot (fun r => { r with rxlen := v })
  | 0x6008 => s.sendTx 0 v
  | o => s.modRot (fun r => r.write o v)

/-- REGISTER_WRITE: n bytes, 1, 2, 4 or 8 and aligned, at an address of the management core's map (R4, R481). SRAM, RXBUF, TXBUF and
HBM take bytes; the registers are 64 bits wide (R482). DESIGN CHOICE: a write of fewer bytes to a 64-bit register is ignored, and a
write that is not aligned. Log entry 138. -/
def State.mgmtWrite (s : State) (a : Nat) (v : Dword) (n : Nat) : State :=
  let pa := a - 0x100000000000
  let bs := leBytes n v.toNat
  if !(n == 1 || n == 2 || n == 4 || n == 8) || a % n ≠ 0 then s
  else if 0x1000000 ≤ a ∧ a < 0x1100000 then s.modRot (fun r => { r with sram := putBytes r.sram (a - 0x1000000) bs })
  else if 0x10006100 ≤ a ∧ a < 0x10006500 then s.modRot (fun r => { r with rxbuf := putBytes r.rxbuf (a - 0x10006100) bs })
  else if 0x10006600 ≤ a ∧ a < 0x10006A00 then s.modRot (fun r => { r with txbuf := putBytes r.txbuf (a - 0x10006600) bs })
  else if 0x10000000 ≤ a ∧ a < 0x10007000 then (if n = 8 then s.rotWrite (a - 0x10000000) v else s)
  else if a < 0x100000000000 then s
  else if inHbm pa n then
    match s.homeStore 0 (maskedCells pa (bs.map some)) false with
    | .ok s1 => s1
    | .error _ => s
  else if 0xF0010000000 ≤ pa ∧ pa < 0xF0050000000 then (if n = 8 then s.setCtlReg ((pa - 0xF0000000000) / 2 ^ 28) (pa % 2 ^ 28) v else s)
  else s

/-! The SPDM responder (R466, R487). -/

/-- The request codes of R487, as the model numbers them. -/
def reqVersion : Nat := 0x84
def reqCapabilities : Nat := 0xE1
def reqAlgorithms : Nat := 0xE3
def reqDigests : Nat := 0x81
def reqCertificate : Nat := 0x82
def reqChallenge : Nat := 0x83
def reqMeasurements : Nat := 0xE0
def reqKeyExchange : Nat := 0xE4
def reqFinish : Nat := 0xE5
def reqHeartbeat : Nat := 0xE8
def reqKeyUpdate : Nat := 0xE9
def reqEndSession : Nat := 0xEC

/-- How far a connection has come. -/
def Rot.stage (r : Rot) (conn : Nat) : Nat := ((mget r.conns conn).map (·.1)).getD 0

/-- A response leaves: TXBUF holds it, it is sent, and RXBUF is free. -/
def State.respond (s : State) (conn : Nat) (bs : List Byte) : State :=
  (s.modRot (fun r => { r with txbuf := putBytes r.txbuf 0 bs, rxlen := 0, txlen := BitVec.ofNat 64 bs.length })).send (.spdm conn bs)

/-- A request comes into RXBUF (R482). -/
def State.receive (s : State) (req : List Byte) : State := s.modRot (fun r => { r with rxbuf := putBytes r.rxbuf 0 req })

/-- Whether the responder takes no request: RXBUF is not free (R482), or boot step 7 is not done (R483). -/
def Rot.silent (r : Rot) : Bool := r.rxlen != 0 || decide (r.boot < 7)

/-- The n-th response as the DMTF specification has it, with the algorithms of R487 and the certificates and the key of R486. -/
def Rot.response (r : Rot) (code conn n : Nat) : List Byte :=
  (Config.spdmBytes code conn Config.algorithms r.certChain r.aliasSeed n).take 0x400

/-- A request is answered so where RXBUF is free; then the connection goes on. -/
def State.exchange (s : State) (code conn : Nat) (go : State → State) : State :=
  if s.rot.silent then s
  else
    let n := s.free
    let s1 := (State.receive { s with free := s.free + 1 } ((Config.spdmRequest code conn n).take 0x400))
    (go s1).respond conn (s.rot.response code conn n)

/-- A request that the responder does not support (R487): ERROR with code 0x07; its last byte is free. -/
def State.unsupported (s : State) (code conn : Nat) : State :=
  if s.rot.silent then s
  else
    let r := s.freshFree
    (r.1.receive ((Config.spdmRequest code conn s.free).take 0x400)).respond conn [0x12, 0x7F, 0x07, r.2.setWidth 8]

/-- Puts a connection at a stage. -/
def State.setConn (s : State) (conn stage : Nat) (ident : Option Nat) : State :=
  s.modRot (fun r => { r with conns := mput r.conns conn (stage, ident) })

/-- The next n 8-byte reads of RNG (R482). -/
def Rot.noise (r : Rot) (n : Nat) : List Byte := ((List.range n).map (fun i => leBytes 8 (Config.entropy (r.rngs + i)).toNat)).flatten

/-- The block of the routine meas for an index 1 to 9 (R487). -/
def State.measBlock (s : State) (idx : Nat) : List Byte :=
  let hdr := fun (len size : Byte) (ty lo hi : Byte) =>
    ([0x12, 0x60, 0x00, 0x00, 0x01, len, 0x00, 0x00, BitVec.ofNat 8 idx, 0x01, size, 0x00, ty, lo, hi] : List Byte)
  if idx = 9 then hdr 0x0F 0x0B 0x82 0x08 0x00 ++ [s.rot.lcs, s.rot.lcf, BitVec.ofNat 8 s.rot.die, 0, 0, 0, 0, 0]
  else hdr 0x47 0x43 (if idx = 1 then 0x00 else 0x01) 0x40 0x00 ++ digestBytes (s.rot.measAt (idx - 1))

/-- The routine meas (R487): the scratch words that it leaves in RXBUF hold the nonce. -/
def State.runMeas (s : State) (conn : Nat) (req : List Byte) : State :=
  let idx := (req.getD 3 0).toNat
  let s1 := s.receive req
  if req.take 3 ≠ [0x12, 0xE0, 0x00] ∨ idx = 0 ∨ 9 < idx then s1.respond conn [0x12, 0x7F, 0x01, 0x00]
  else
    let nonce := s.rot.noise 4
    (s1.modRot (fun r => { r with rxbuf := putBytes r.rxbuf 0x300 nonce, rng := Config.entropy (r.rngs + 3), rngs := r.rngs + 4 })).respond conn
      (s.measBlock idx ++ nonce ++ [0, 0])

/-- GET_MEASUREMENTS (R487): the ROM serves an unsigned request for a single index, the firmware every other. -/
def State.measurements (s : State) (conn : Nat) (req : List Byte) : State :=
  let single := req.length == 4 && req.take 3 == [0x12, 0xE0, 0x00] && req.getD 3 0 != 0 && req.getD 3 0 != 0xFF
  if s.rot.silent then s
  else if single && decide (1 ≤ s.rot.stage conn) then s.runMeas conn req
  else
    let n := s.free
    (State.receive { s with free := s.free + 1 } (req.take 0x400)).respond conn (s.rot.response reqMeasurements conn n)

/-- The host-window requests that waited for a session of an identity are sent (R473). -/
def State.sendWaiting (s : State) (ident : Nat) : State :=
  let wait := s.hostReqs.filter (fun q => q.ident == ident && !q.sent && q.held.isNone)
  wait.foldl (fun (s : State) q => State.sendHost { s with hostReqs := s.hostReqs.filter (fun r => r.id != q.id) } q) s

/-- FINISH (R466): the session opens, and an older one of the identity closes. -/
def State.openSession (s : State) (conn : Nat) (cert : HostCert) : State :=
  match cert.root with
  | none => s.setConn conn 1 none
  | some root =>
    let ident := cert.digest.toNat
    let others := s.sessions.filter (fun e => e.1 != ident)
    let slot := match mget s.sessions ident with
      | some q => some q.slot
      | none => (List.range 8).find? (fun i => !s.sessions.any (fun e => e.2.slot == i))
    match slot with
    | none => s.setConn conn 1 none
    | some k =>
      let s1 := s.modRot (fun r => { r with conns := r.conns.map (fun e => if e.2.2 = some ident then (e.1, (1, none)) else e) })
      let q : Session := { slot := k, root := root, reqid := 0, num := s1.opSeq }
      (State.setConn { s1 with sessions := mput others ident q, opSeq := s1.opSeq + 1 } conn 3 (some ident)).sendWaiting ident

/-- END_SESSION (R487). -/
def State.endSession (s : State) (conn : Nat) : State :=
  match mget s.rot.conns conn with
  | some (3, some ident) => State.setConn { s with sessions := mdel s.sessions ident } conn 1 none
  | _ => s

/-! Datagrams (R465, R466, R469, R474). -/

/-- How many 8-byte operands stand before a command's byte string (R471). -/
def strPlace (code : Nat) : Nat := if code = 0x0F ∨ code = 0x11 then 2 else if code = 0x14 ∨ code = 0x15 then 1 else 0

/-- A management command's datagram (R469, R471): its header, then 8-byte little-endian operands and, where R471 gives one, a byte
string. DESIGN CHOICE: the payload is what PLEN and the datagram both give, and an operand that it lacks reads zero. Log entry
122. -/
def cmdOf (port ident seq : Nat) (bs : List Byte) : CmdHdr × CmdOp :=
  let d0 := BitVec.ofNat 64 (leNat (bs.take 8))
  let p := (bs.drop 16).take (bits d0 16 16)
  ({ ident := ident, tag := hiWord d0, port := port, seq := seq },
    { code := bits d0 0 16, ops := (List.range 16).map (fun i => leNat ((p.drop (8 * i)).take 8)), str := p.drop (8 * strPlace (bits d0 0 16)) })

/-- A host-window reply's datagram (R474). -/
def replyOf (port ident seq : Nat) (bs : List Byte) : HostReply :=
  let d0 := BitVec.ofNat 64 (leNat (bs.take 8))
  { port := port, ident := ident, seq := seq, reqid := hiWord d0, op := d0.extractLsb' 24 8, len := d0.extractLsb' 16 8,
    status := d0.extractLsb' 8 8, data := bs.drop 16 }

/-- A datagram at a host port (R465, R466, R483): discarded and counted, or taken by whoever its UDP port names; a command is the next
that the management core performs (R470). -/
def State.secured (s : State) (m : SecMsg) : State :=
  if !m.auth || (s.accept m.ident m.seq).isNone then s.portDrop m.port
  else if m.dport = 0x5A30 then s.launchDatagram { port := m.port, ident := m.ident, seq := m.seq, bytes := m.bytes }
  else if m.dport = 0x5A32 then s.hostReply (replyOf m.port m.ident m.seq m.bytes)
  else
    match s.accept m.ident m.seq with
    | none => s
    | some t =>
      if m.dport = 0x5A31 then
        let c := cmdOf m.port m.ident m.seq m.bytes
        { t with agenda := .queued c.1 c.2 :: t.agenda }
      else t

/-! The meanings. -/

/-- DBGUNLOCK (R491). -/
def execDbgunlock (c : CmdHdr) (token : List Byte) (s : State) : Out := .next (s.command c { code := 0x17, ops := [], str := token } (fun s _ => s.debugUnlock token))
/-- LCADVANCE (R490). -/
def execLcadvance (c : CmdHdr) (token : List Byte) (s : State) : Out := .next (s.command c { code := 0x18, ops := [], str := token } (fun s _ => s.advanceLc token))
/-- GET_VERSION (R487): the connection starts anew. -/
def execGetVersion (conn : Nat) (s : State) : Out :=
  .next (s.exchange reqVersion conn (fun s => s.modRot (fun r => { r with conns := mdel r.conns conn })))
/-- GET_CAPABILITIES (R487). -/
def execGetCapabilities (conn : Nat) (s : State) : Out := .next (s.exchange reqCapabilities conn id)
/-- NEGOTIATE_ALGORITHMS (R487). -/
def execNegotiateAlgorithms (conn : Nat) (s : State) : Out :=
  .next (s.exchange reqAlgorithms conn (fun s => if s.rot.stage conn = 0 then s.setConn conn 1 none else s))
/-- GET_DIGESTS (R487). -/
def execGetDigests (conn : Nat) (s : State) : Out := .next (s.exchange reqDigests conn id)
/-- GET_CERTIFICATE (R486, R487): slot 0 only. -/
def execGetCertificate (conn slot : Nat) (s : State) : Out :=
  .next (if slot = 0 then s.exchange reqCertificate conn id else s.unsupported (reqCertificate + 256 * slot) conn)
/-- CHALLENGE (R486, R487): slot 0, or an error. -/
def execChallenge (conn slot : Nat) (s : State) : Out := .next (s.exchange (reqChallenge + 256 * slot) conn id)
/-- GET_MEASUREMENTS (R487). -/
def execGetMeasurements (conn : Nat) (req : List Byte) (s : State) : Out := .next (s.measurements conn req)
/-- KEY_EXCHANGE (R466). -/
def execKeyExchange (conn : Nat) (s : State) : Out :=
  .next (s.exchange reqKeyExchange conn (fun s => if s.rot.stage conn = 1 then s.setConn conn 2 none else s))
/-- FINISH (R466). -/
def execFinish (conn : Nat) (cert : HostCert) (s : State) : Out :=
  .next (s.exchange reqFinish conn (fun s => if s.rot.stage conn = 2 then s.openSession conn cert else s))
/-- END_SESSION (R487). -/
def execEndSession (conn : Nat) (s : State) : Out := .next (s.exchange reqEndSession conn (fun s => s.endSession conn))
/-- HEARTBEAT (R487). -/
def execHeartbeat (conn : Nat) (s : State) : Out := .next (s.exchange reqHeartbeat conn id)
/-- KEY_UPDATE (R487): the session's transport keys, which no rule shows, change. -/
def execKeyUpdate (conn : Nat) (s : State) : Out := .next (s.exchange reqKeyUpdate conn id)
/-- A request that R487 does not list: ERROR with code 0x07. -/
def execUnsupportedRequest (conn : Nat) (s : State) : Out := .next (s.unsupported 0 conn)
/-- HCTL (R482). -/
def execHctl (v : Dword) (s : State) : Out := .next (s.startHash v)
/-- HASH_COMPLETE (R482). -/
def execHashComplete (s : State) : Out := .next s.endHash
/-- ECTL (R482). -/
def execEctl (v : Dword) (s : State) : Out := .next (s.startVerify v)
/-- VERIFY_COMPLETE (R482, R490). -/
def execVerifyComplete (s : State) : Out := .next s.endVerify
/-- MEXT (R485). -/
def execMext (v : Dword) (s : State) : Out := .next (s.rotWrite 0x2208 v)
/-- HBEAT (R480, R482). -/
def execHbeat (_v : Dword) (s : State) : Out := .next (s.modRot (fun r => { r with hbeat := s.clk }))
/-- UNLOCK (R491). -/
def execUnlock (v : Dword) (s : State) : Out := .next (s.modRot (fun r => r.unlock v))
/-- KCTL (R491). -/
def execKctl (v : Dword) (s : State) : Out := .next (s.startWipe v)
/-- WIPE_COMPLETE (R491). -/
def execWipeComplete (s : State) : Out := .next s.endWipe
/-- DBGCTL (R482, R491). -/
def execDbgctl (v : Dword) (s : State) : Out := .next (s.modRot (fun r => r.setDbg v))
/-- RXLEN (R482). -/
def execRxlen (v : Dword) (s : State) : Out := .next (s.modRot (fun r => { r with rxlen := v }))
/-- TXLEN (R482). -/
def execTxlen (v : Dword) (s : State) : Out := .next (s.sendTx 0 v)
/-- RNG (R482): a read returns 8 fresh bytes from the entropy source. -/
def execRng (s : State) : Out := .next (s.modRot Rot.readRng)
/-- A write to a register with no row of its own (R4). -/
def execRegisterWrite (addr : Nat) (v : WriteData) (s : State) : Out := .next (s.mgmtWrite addr v.val v.size)
/-- SECURED_MESSAGE (R466): a datagram at a host port. -/
def execSecuredMessage (m : SecMsg) (s : State) : Out := .next (s.secured m)

end Sys2Proof.Machine
end

