-- ==== Sys2Proof/Machine/Device.lean ====
section
/-!
DEFINITION. The device as a whole: capacity lost in the field (R19 to R21, R462), power (R14), snapshots (R463), power-on
(R483) and the failover of the management core (R480).
-/

namespace Sys2Proof.Machine

/-! Capacity (R19 to R21, R462). -/

/-- The die of a unit by its kind and index (R464); tables that both dies share have die 0. DESIGN CHOICE where the coding does not say.
Log entry 24. -/
def dieOfUnit (kind unit : Nat) : Nat :=
  match kind with
  | 1 | 2 | 3 => unit / 128
  | 4 => unit / 64
  | 5 => unit / 1024
  | 6 => unit / 32
  | 7 => unit / 256
  | 9 => unit
  | 12 => unitDie unit
  | _ => 0

/-- A row retirement in the event log of its die (R479): the unit's kind and index as RBSEL codes them, and whether the unit went. -/
def State.logRetired (s : State) (kind unit : Nat) (removed : Bool) : State :=
  s.logEvent (dieOfUnit kind unit % 2) 6 (BitVec.ofNat 64 (kind * 2 ^ 32 + unit * 2 ^ 16)) (if removed then 1 else 0)

/-- A cluster becomes unavailable (R20): a field that changes adds 1 to GZGEN (R21). -/
def State.loseCluster (s : State) (k : Nat) : State :=
  if s.gzcla.getLsbD k then { s with gzcla := s.gzcla &&& ~~~(1#64 <<< k), gzgen := s.gzgen + 1 } else s

/-- Puts a GZCORE register (R19). -/
def State.setGzcore (s : State) (core : Nat) (v : Dword) : State :=
  { s with gzcore := mput s.gzcore core v, gzgen := s.gzgen + 1 }

/-- A row of a partition goes (R19, R20): a partition without rows takes its cluster away. -/
def State.loseRow (s : State) (core part : Nat) : State :=
  let v := mgetD s.gzcore core 0x888888888
  let n := bits v (4 * part) 4
  let held := (s.residents core part).foldl (fun n c => n + c.nregs * c.w) 0
  if n = 0 ∨ 8192 * (n - 1) < held then s
  else
    let s1 := s.setGzcore core (v - BitVec.ofNat 64 (2 ^ (4 * part)))
    (if n = 1 then s1.loseCluster (core / 4) else s1).logRetired 1 core true

/-- A unit of an L1 goes (R19): its contents are written back. -/
def State.loseL1 (s : State) (core : Nat) : State :=
  let v := mgetD s.gzcore core 0x888888888
  if bits v 32 4 = 0 then s
  else
    let s1 := (s.l1 core).foldl (fun (s : State) l => s.evict core l) s
    (s1.setGzcore core (v - BitVec.ofNat 64 (2 ^ 32))).logRetired 3 core true

/-- A unit of an L2 slice goes (R19). -/
def State.loseL2 (s : State) (slice : Nat) : State :=
  let n := mgetD s.gzslice slice 16
  if n = 0 then s
  else (State.logRetired { s with gzslice := mput s.gzslice slice (n - 1), gzgen := s.gzgen + 1 } 4 slice true)

/-- Whether a context holds state in a cluster: a crew there, or its engine's state (R462). -/
def State.clusterHeld (s : State) (k : Nat) : Bool :=
  s.clusters.any (fun e => e.1 % 64 == k) || s.crews.any (fun e => e.2.core / 4 == k && !e.2.evicted)

/-- ROW_RETIRE (R19, R20, R462). -/
def State.retireRow (s : State) (r : RowLoss) : State :=
  match r with
  | .spared kind unit => s.logRetired kind unit false
  | .rfRow core part => if core < 256 ∧ part < 8 then s.loseRow core part else s
  | .l1Unit core => if core < 256 then s.loseL1 core else s
  | .l2Unit slice => if slice < 128 then s.loseL2 slice else s
  | .fixed kind cluster => if cluster < 64 ∧ !s.clusterHeld cluster then (s.loseCluster cluster).logRetired kind cluster true else s

/-! Snapshots (R463). -/

/-- SNAPSHOT_LATCH: 64 clk after its trigger. -/
def State.latchSnapshot (s : State) : State :=
  if s.snap.pending then { s with snap := { s.snap with gen := s.snap.gen + 1, arm := false, pending := false, copy := s.units } }
  else s

/-! Errors in protected stores (R90, R91, R462, R479). Log entry 86. -/

/-- Counts an error in a counter of control block 4, by its dword, up to its largest value (R478, R479). -/
def State.countError (s : State) (i : Nat) : State :=
  { s with logs := { s.logs with counts := mput s.logs.counts i (satField (mgetD s.logs.counts i 0) 0 64) } }

/-- The stack of an HBM address: four a die, of sixteen slices each (R82, R90). -/
def stackOf (pa : Nat) : Nat := homeSlice pa / 16

/-- n fresh free bytes. -/
def State.freeBytes (s : State) (n : Nat) : State × List Byte :=
  ({ s with free := s.free + n }, (List.range n).map (fun i => (Config.freeValue (s.free + i)).setWidth 8))

/-- A sector of HBM takes the poison pattern (R91), whose bytes are free, under the key of its blocks. -/
def State.poisonSector (s : State) (sec : Nat) : State :=
  let r := s.freeBytes 32
  let m := r.2.zipIdx.foldl (fun (m : Memory) b =>
    m.put ((mget m.keys ((32 * sec + b.2) / 16)).getD (s.keyOf 0)) (32 * sec + b.2) b.1) s.mem
  { r.1 with mem := { m with poison := mput m.poison sec () } }

/-- The event of an uncorrectable error at a line (R479): a line of another device has no local address, and its detail is free. -/
def State.logLine (s : State) (die kind : Nat) (place : Dword) (t : Target) : State :=
  match t with
  | .hbm pa => s.logEvent die kind place (BitVec.ofNat 64 (pa / 128 * 128))
  | _ => let r := s.freshFree; r.1.logEvent die kind place r.2

/-- Marks a lane of a register's shape. -/
def Reg.markLane (r : Reg) (lane : Nat) : Reg := { r with poison := r.poison ||| oneLane lane }

/-- An uncorrectable error in an element (R462): it is poisoned, and DETAIL names it (R479). A predicate has no such code. -/
def State.poisonElem (s : State) (id : Nat) (c : Crew) (d : Dst) (lane : Nat) : State :=
  let go := fun (n : Nat) (f : Crew → Crew) =>
    ((s.modCrew id f).countError 17).logEvent (c.core / 128) 2 (BitVec.ofNat 64 c.core) (BitVec.ofNat 64 (c.crewid * 2 ^ 16 + n))
  match d with
  | .reg n => go n (fun c => { c with regs := mmod c.regs n (fun r => r.markLane lane) })
  | .oc n => go (0x400 + n) (fun c => { c with oc := mmod c.oc n (fun r => r.markLane lane) })
  | .latch n => go (0x410 + n) (fun c => { c with latches := mmod c.latches n (fun r => r.markLane lane) })
  | .pred _ => s

/-- An uncorrectable error in a sector of an L1 line (R462): with dirty bytes there, the line's go home with the sector poisoned, or
a partial's are marked; clean bytes go, and come again from the home. -/
def State.poisonL1 (s : State) (core : Nat) (l : Line) (sector : Nat) : State :=
  let sec := byteMask (32 * sector) 32
  let bit := BitVec.ofNat 4 (2 ^ sector)
  let bad : Line := { l with poison := l.poison ||| bit, marks := l.marks ||| bit }
  let keep := fun (n : Line) => s.setL1 core ((s.l1 core).map (fun x => if x = l then n else x))
  let s1 :=
    if l.isPart then keep bad
    else if l.dirty &&& sec ≠ 0 then (s.setL1 core ((s.l1 core).filter (fun x => x != l))).sendDirty core bad
    else keep { l with valid := l.valid &&& ~~~sec }
  (s1.countError 21).logLine (core / 128) 4 (BitVec.ofNat 64 core) (if l.dev = s.devnum then .hbm (128 * l.ln) else .peer l.dev 0)

/-- What a code makes of the symbols of an HBM sector (R90), or the bits of a code word (R462), that are wrong: one is corrected, two
are detected. DESIGN CHOICE: so are more. Log entry 86. -/
inductive Verdict where
  | clean
  | corrected
  | uncorrectable
deriving DecidableEq, Repr

def verdict (wrong : List Nat) : Verdict :=
  match wrong.eraseDups with
  | [] => .clean
  | [_] => .corrected
  | _ => .uncorrectable

/-- An uncorrectable error poisons what it hit and is counted and logged as deferred, with no trap and no fault (R91, R462, R479). -/
def State.deferError (s : State) (e : EccErr) : State :=
  match e with
  | .hbm pa _ =>
    if !inHbm pa 1 then s
    else ((s.poisonSector (pa / 32)).countError (8 + stackOf pa)).logEvent (homeSlice pa / 64) 1
      (BitVec.ofNat 64 (pa / 32 * 32)) (BitVec.ofNat 64 (stackOf pa))
  | .elem id d lane _ =>
    match mget s.crews id with
    | some c => s.poisonElem id c d lane
    | none => s
  | .acc key tile pos _ =>
    let s1 : State := { s with clusters := mmod s.clusters key (fun k => { k with
      tiles := mmod k.tiles tile (fun t => { t with poison := if t.poison.contains pos then t.poison else t.poison ++ [pos] }) }) }
    (s1.countError 19).logEvent (key % 64 / 32) 3 (BitVec.ofNat 64 (key % 64)) (BitVec.ofNat 64 (tile * 2 ^ 16 + pos))
  | .l1 core i sector _ =>
    match (s.l1 core)[i]? with
    | some l => s.poisonL1 core l sector
    | none => s
  | .l2 pa _ =>
    if !inHbm pa 1 then s
    else ((s.poisonSector (pa / 32)).countError 23).logLine (homeSlice pa / 64) 5 (BitVec.ofNat 64 (homeSlice pa)) (.hbm pa)
  | .obuf key i sector _ =>
    match ((mget s.clusters key).bind (fun k => k.obuf[i]?)) with
    | none => s
    | some o =>
      let bad : OLine := { o with poison := o.poison ||| BitVec.ofNat 4 (2 ^ sector) }
      let s1 : State := { s with clusters := mmod s.clusters key (fun k => { k with
        obuf := k.obuf.map (fun x => if x = o then bad else x) }) }
      (s1.countError 23).logLine (key % 64 / 32) 5 (BitVec.ofNat 64 (0x10000 + key % 64)) o.tgt

/-- The counter of corrected errors of a store (R479): none where the error lies in no HBM. -/
def EccErr.counter (e : EccErr) : Option Nat :=
  match e with
  | .hbm pa _ => if inHbm pa 1 then some (stackOf pa) else none
  | .elem _ _ _ _ => some 16
  | .acc _ _ _ _ => some 18
  | .l1 _ _ _ _ => some 20
  | .l2 pa _ => if inHbm pa 1 then some 22 else none
  | .obuf _ _ _ _ => some 22

/-- What an error has made wrong. -/
def EccErr.wrong (e : EccErr) : List Nat :=
  match e with
  | .hbm _ w | .elem _ _ _ w | .acc _ _ _ w | .l1 _ _ _ w | .l2 _ w | .obuf _ _ _ w => w

/-- An error in a protected store (R90, R91, R462): one that the code corrects is counted. -/
def State.eccError (s : State) (e : EccErr) : State :=
  match verdict e.wrong with
  | .clean => s
  | .corrected => match e.counter with | some i => s.countError i | none => s
  | .uncorrectable => s.deferError e

/-! Power-on and failover (R480, R483). -/

/-- The first-stage boot (R483 step 3): the payload's digest, of bytes that lie in SRAM, verified under the vendor image key, goes into
MEAS1, and the firmware is entered. What fails stops the core in WFI. -/
def Rot.firstStage (r : Rot) : Rot × Bool :=
  if r.image.magic ≠ 0x335A5844 then (r, false)
  else
    let r1 : Rot := { r with hsrc := 0x1000080, hlen := r.image.plen.setWidth 64 }
    if 0xFFF80 < r.image.plen.toNat then ({ r1 with herr := true }, false)
    else
      let d := r.image.digest
      let r2 : Rot := { r1 with hdig := d, ekey := 0xF000, esig := 0x1000040, emsg := 0x10000040, emlen := 64, evalid := r.image.signed d }
      if r2.evalid then ({ r2.extend 1 with boot := 3, entered := some r.image.entryAt }, true) else (r2, false)

/-- One of the two parts of boot step 4 (R483): hash, verify, MEXT. -/
def Rot.measure (r : Rot) (n : Nat) : Rot × Bool :=
  let v := { r with hdig := Config.bootMeas r.die n, evalid := Config.bootVerified r.die n }
  if v.evalid then (v.extend n, true) else (v, false)

/-- A boot step in the root-of-trust block (R483), and whether the boot goes on. Step 4 leaves in the engines' operand registers what
the spec does not give: their power-on values here (log entry 20). -/
def Rot.bootStep (r : Rot) (n : Nat) : Rot × Bool :=
  match n with
  | 3 => r.firstStage
  | 4 =>
    let a := r.measure 2
    if !a.2 then a
    else
      let b := a.1.measure 3
      if !b.2 then b
      else ({ b.1 with boot := 4, hsrc := 0, hlen := 0, ekey := 0, esig := 0, emsg := 0, emlen := 0 }, true)
  | 7 => ({ r with boot := 7, warm := r.warm || r.die == 0 }, true)
  | n => ({ r with boot := n }, true)

/-- A boot step of the device (R483): owner keys at step 5, all-zero ciphertext at step 6, and at step 7 of a cold boot the power
limit. -/
def State.bootStep (s : State) (cold : Bool) (n : Nat) : State × Bool :=
  let r := s.rot.bootStep n
  let t : State := { s with rot := r.1 }
  (match n with
    | 5 => t.newKeys
    | 6 => { t with mem := Memory.reset }
    | 7 => if cold then { t with powerLimit := 2100 } else t
    | _ => t, r.2)

/-- Boot steps in their order, up to the first that stops the core. -/
def State.runBoot (s : State) (cold : Bool) (steps : List Nat) : State :=
  (steps.foldl (fun (r : State × Bool) n => if r.2 then r.1.bootStep cold n else r) (s, true)).1

/-- The device as power-on leaves it before the boot, with a root-of-trust block: capacity once lost stays lost, and the model's own
record goes on. -/
def State.unbooted (s : State) (r : Rot) : State :=
  { State.reset with
    agenda := s.agenda
    free := s.free
    opSeq := s.opSeq
    outbox := s.outbox
    gzcla := s.gzcla
    gzcore := s.gzcore
    gzslice := s.gzslice
    keyGen := s.keyGen
    rot := { r with rngs := s.rot.rngs, aliasGen := s.rot.aliasGen } }

/-- POWER_ON_RESET (R483): the boot runs to the release of the dies; a blown fuse is seen (R488). -/
def State.powerOn (s : State) : State :=
  (s.unbooted (Rot.powered 0 s.rot.lcfNext s.rot.image)).runBoot true [1, 2, 3, 4, 5, 6, 7]

/-- The twin's block before its boot: LCS and KSTAT carry over, and WARM is its own (R480). -/
def Rot.twin (r : Rot) (clk : Nat) : Rot :=
  { Rot.powered 1 r.lcf r.image with
    lcfNext := r.lcfNext, lcs := r.lcs, kbusy := r.kbusy, wiped := r.wiped, kerr := r.kerr, rngs := r.rngs,
    aliasGen := r.aliasGen, warm := r.warm, hbeat := clk }

/-- FAILOVER (R480): 100 ms without HBEAT; die 0's core stays in reset until power-on. Contexts, queues and the logs stay (R478). -/
def State.failOver (s : State) : State :=
  if s.rot.die ≠ 0 ∨ s.clk < s.rot.hbeat + Config.hbeatClk then s
  else if s.rot.warm then
    (State.runBoot { s.closeSessions with rot := s.rot.twin s.clk, tlbWait := none, ctxWait := none, cmds := [], admitted := false } false
      [1, 2, 3, 4, 7]).logEvent 1 10 1 0
  else
    (State.runBoot { s.unbooted (s.rot.twin s.clk) with clk := s.clk, ctxs := s.ctxs, queues := s.queues, logs := s.logs } true
      [1, 2, 3, 4, 5, 6, 7]).logEvent 1 10 1 1

/-! The meanings. -/

/-- ROW_RETIRE (R462). -/
def execRowRetire (r : RowLoss) (s : State) : Out := .next (s.retireRow r)
/-- POWER_LIMIT_THROTTLE (R14): issue slots are withheld, and no value changes but the power that MGCSTAT shows. -/
def execPowerLimitThrottle (watts : Nat) (s : State) : Out := .next { s with power := watts }
/-- SNAPIN_PIN (R463). -/
def execSnapinPin (s : State) : Out := .next (if s.snap.pinen then s.trigger else s)
/-- SNAPSHOT_LATCH (R463). -/
def execSnapshotLatch (s : State) : Out := .next s.latchSnapshot
/-- POWER_ON_RESET (R483). -/
def execPowerOnReset (s : State) : Out := .next s.powerOn
/-- FAILOVER (R480). -/
def execFailover (s : State) : Out := .next s.failOver

end Sys2Proof.Machine
end

