-- ==== Sys2Proof/Machine/Moves.lean ====
section
/-!
DEFINITION. The register-move instructions, index registers, the crossbar's registers, special registers and the operand
cache: opcodes 0x70 to 0x7A (R224 to R238, R272, R408, R438) and their compact and short forms (R39 to R41).
-/

namespace Sys2Proof

/-- Source A of an LI instruction. -/
def LI.srcA (f : LI) : Machine.Src :=
  { d := f.sa, xc := f.xa.toNat, dead := f.ka, k := 1, fld := 1, upper := true, zero := true }

/-- sext(IMM19) (R33). -/
def LI.immWord (f : LI) : Word := f.imm.signExtend 32

/-- An unused dead bit of a source that a form ignores. -/
def L3.srcN (f : L3) (k : Nat) : Machine.Src := { f.srcA with k := k }

end Sys2Proof

namespace Sys2Proof.Machine

/-- MOV and MOVX (R232): each word keeps its delivered shape. -/
def movBody (f : L3) (k : Nat) (x : Cx) : Iss Rsl := do
  needInsn (k != 0)
  dstCheck x.c f.dst k true
  let srcs := [f.srcN k]
  let r ← x.fetch srcs
  return x.writeResult f.dst f.ocw (some 3) srcs ((nthRun r 0).map (·.sh))

/-- The register count MOD6 names for MOVX, 0 where it is illegal (R232). -/
def movxCount (m6 : BitVec 6) : Nat :=
  match m6.toNat % 4 with
  | 1 => 2
  | 2 => 4
  | _ => 0

/-- MOVI (R233): MOD must be 0. -/
def moviBody (md : BitVec 4) (dst : Desig) (v : Word) (x : Cx) : Iss Rsl := do
  needInsn (md == 0)
  dstCheck x.c dst 1 true
  return x.writeResult dst 0 (some 3) [] [.u v]

/-- MOVI.hi (R233): the old D is a source. -/
def moviHiBody (md : BitVec 4) (dst : Desig) (hi : Nat) (x : Cx) : Iss Rsl := do
  needInsn (md == 1)
  dstCheck x.c dst 1 true
  let src : Src := { d := dst, xc := 0, dead := false, k := 1, fld := 0, upper := false, zero := true }
  let r ← x.fetch [src]
  let old := nthOpd r 0
  let at_ := fun l => BitVec.ofNat 32 (hi % 2 ^ 13 * 2 ^ 19) ||| (old.at l &&& 0x7FFFF)
  return x.writeResult dst 0 (some 3) [] [uniIf x old.isU at_]

/-- The trapping mask of the current frame (R408): every launched lane at depth 0. -/
def Crew.frameMask (c : Crew) : Lanes :=
  match c.frames.getLast? with
  | none => c.launched
  | some f => f.tm

/-- A special register as MOVS reads it (R234): its words with their shapes; none for a selector not in the table. -/
def Cx.special (x : Cx) (sel : Nat) : Option (List Shape) :=
  let c := x.c
  let one := fun (v : Word) => some [Shape.u v]
  let num := fun (v : Nat) => some [Shape.u (BitVec.ofNat 32 v)]
  let two := fun (v : Dword) => some [Shape.u (loWord v), Shape.u (hiWord v)]
  match sel with
  | 0x00 => some [normShape c.w (.a 0 1)]
  | 0x01 => num c.crewid
  | 0x02 => one c.teamid
  | 0x03 => num c.teampos
  | 0x04 => one c.grid.1
  | 0x05 => one c.grid.2.1
  | 0x06 => one c.grid.2.2
  | 0x07 => num c.w
  | 0x08 => num 64
  | 0x09 => two c.exmask
  | 0x0A => one c.xdist
  | 0x0B => one c.xsel
  | 0x0C => one c.hcount
  | 0x0D => num c.origin
  | 0x0E => num c.core
  | 0x0F => num (c.core / 128)
  | 0x10 => num x.s.devnum
  | 0x11 => num 3
  | 0x12 => one Config.feat0
  | 0x13 => one Config.feat1
  | 0x14 => one 0
  | 0x15 => one 0
  | 0x16 => one c.fpctl
  | 0x17 => one c.fpflags
  | 0x18 => one ((c.frames.getLast?.map (·.cause)).getD 0)
  | 0x19 => num c.frames.length
  | 0x1A => num ((if c.dre then 1 else 0) + (if c.yreq then 2 else 0))
  | 0x1B => two (BitVec.ofNat 64 x.s.clk)
  | 0x30 => num (c.cnt cG)
  | 0x31 => num (c.cnt cS)
  | 0x32 => num (c.cnt cA)
  | 0x33 => num (c.cnt cX)
  | 0x34 => num (c.cnt cM)
  | _ => none

/-- MOVS (R234): reads of in-flight counters are long-latency (R26). -/
def movsBody (f : L3) (x : Cx) : Iss Rsl := do
  let sel := f.mod6.toNat
  match x.special sel with
  | none => illOpnd 0 4
  | some shs =>
    dstCheck x.c f.dst shs.length true
    if 0x30 ≤ sel then return x.pendResult f.dst f.ocw (some 3) [] shs f.la.toNat 0
    else return x.writeResult f.dst f.ocw (some 3) [] shs

/-- The registers SMOV writes, with the number of words of each (R234); none for a read-only or unlisted selector. -/
def smovWords (sel : Nat) : Option Nat :=
  match sel with
  | 0x09 => some 2
  | 0x0A | 0x0B | 0x16 | 0x17 | 0x1A => some 1
  | _ => none

/-- FPCTL as a write leaves it (R272). -/
def fpctlWrite (v : Word) : Word :=
  (v &&& 0x1F00) ||| (if wbits v 0 3 < 5 then v &&& 7 else 0)

/-- SMOV of EXMASK (R408). The path that stood at the SMOV goes on at its end. -/
def exmaskWrite (x : Cx) (c : Crew) (v : Dword) : Iss Rsl :=
  let k := c.curFrame
  let may := c.live &&& c.frameMask &&& allLanes c.w
  let out := may &&& ~~~v
  let idle := may &&& v &&& ~~~c.exmask
  let moved := c.setPc (x.p.pc + BitVec.ofNat 64 x.len)
  let ps := (moved.paths.map (fun p =>
    if p.frame = k then
      { p with mask := (p.mask &&& ~~~out) ||| (if p.run && (p.mask &&& ~~~out) != 0 then idle else 0) }
    else p)).filter (fun p => p.frame != k || p.mask != 0)
  let gone := (x.p.mask &&& ~~~out) == 0
  -- a running path that loses every lane of its own keeps the lanes that join it
  let ps := if gone && idle != 0 then ps ++ [{ (newPath (x.p.pc + BitVec.ofNat 64 x.len) idle k true) with age := x.p.age }] else ps
  if ps.all (fun p => p.frame != k) then illOpnd 12 4
  else
    let d : Crew := { moved with paths := ps }
    let newMask := (d.running.map (·.mask)).getD 0
    let e := if newMask = x.p.mask then d else if newMask = 0 then d.closeWindows.dropLatches.settle else d.dropLatches
    .ok { s := x.s, c := e, adv := false }

/-- What SMOV writes (R234, R272, R408, R438). -/
def smovWrite (x : Cx) (c : Crew) (sel : Nat) (v : Dword) : Iss Rsl :=
  let w := loWord v
  match sel with
  | 0x09 => exmaskWrite x c v
  | 0x0A => .ok { s := x.s, c := { c with xdist := w }, adv := true }
  | 0x0B => .ok { s := x.s, c := { c with xsel := w }, adv := true }
  | 0x16 => .ok { s := x.s, c := { c with fpctl := fpctlWrite w }, adv := true }
  | 0x17 => .ok { s := x.s, c := { c with fpflags := w &&& 0x1F }, adv := true }
  | _ => .ok { s := x.s, c := { c with dre := w.getLsbD 0 }, adv := true }

/-- SMOV (R234). -/
def smovBody (f : L3) (x : Cx) : Iss Rsl := do
  match smovWords f.mod6.toNat with
  | none => illOpnd 0 4
  | some k =>
    let srcs := [f.srcN k]
    let r ← x.peek srcs
    let c1 := x.c.emptySrcs srcs
    let v := if k = 2 then pairAt (nthRun r 0) x.lane else ((nthOpd r 0).at x.lane).setWidth 64
    let o ← (if x.act = 0 then (.ok { s := x.s, c := c1, adv := true } : Iss Rsl) else smovWrite x c1 f.mod6.toNat v)
    x.once.deadReads srcs
    x.once.poisonCheck r.flatten
    return o

/-- SHAPE.q (R235): tag codes, not a read of values. -/
def shapeQ (f : L3) (x : Cx) : Iss Rsl := do
  let src : Src := { f.srcA with xc := 0, dead := false }
  srcCheck x.c src
  needIssue (!x.owedSrc src)
  let code := fun l =>
    match place src.d with
    | some .zero => (0 : Word)
    | some (.rv n) => BitVec.ofNat 32 (shapeCode (x.recruiter.bind (fun r => mget r.1.regs n)))
    | some pl => BitVec.ofNat 32 (shapeCode (x.cell pl 0 l))
    | none => 0
  let ind := match place src.d with | some (.ix _) => true | _ => false
  return x.writeResult f.dst f.ocw (some 3) [] [uniIf x (!ind) code]

/-- The shape SHAPE.c finds (R235). -/
def compressed (x : Cx) (o : Opd) : Shape :=
  let c := laneList x.c.live
  let v0 := o.at 0
  let st := o.at 1 - v0
  let first := o.at (c.headD 0)
  if c.all (fun l => o.at l == first) then .u first
  else if c.contains 0 && c.contains 1 && c.all (fun l => o.at l == v0 + BitVec.ofNat 32 l * st) then .a v0 st
  else normShape x.c.w (gen x.c.w o.at)

/-- SHAPE (R235). -/
def shapeBody (f : L3) (x : Cx) : Iss Rsl := do
  let form := f.mod6.toNat % 4
  needInsn (form != 3)
  dstCheck x.c f.dst 1 true
  if form = 0 then shapeQ f x
  else
    let srcs := [f.srcA]
    let r ← x.fetch srcs
    let o := nthOpd r 0
    return x.writeResult f.dst f.ocw (some 3) srcs [if form = 1 then uniIf x false o.at else compressed x o]

/-- IXSET (R225). -/
def ixsetBody (f : LI) (x : Cx) : Iss Rsl := do
  let form := f.md.toNat / 4
  let n := f.md.toNat % 4
  needInsn (decide (form < 2))
  let srcs := [f.srcA]
  let r ← x.fetch srcs
  let old := x.c.ixAt n
  let add := fun l => (nthOpd r 0).at l + f.immWord
  let vals := (List.range x.c.w).map (fun l =>
    if x.act.getLsbD l then (if form = 1 then old l + add l else add l) else old l)
  let c1 := x.c.emptySrcs srcs
  return { s := x.s, c := { c1 with ix := mput c1.ix n vals }, adv := true }

/-- XSET (R228). -/
def xsetBody (f : LI) (x : Cx) : Iss Rsl := do
  let m := f.md.toNat
  needInsn (decide (m < 3))
  if m = 1 then
    let v : Word := BitVec.ofNat 32 (x.c.w >>> (f.imm.toNat % 8))
    return { s := x.s, c := if x.act = 0 then x.c else { x.c with xdist := v }, adv := true }
  else
    let srcs := [f.srcA]
    let r ← x.once.fetch srcs
    let v := (nthOpd r 0).at x.lane + f.immWord
    let c1 := x.c.emptySrcs srcs
    let c2 : Crew := if x.act = 0 then c1 else if m = 0 then { c1 with xdist := v } else { c1 with xsel := v }
    return { s := x.s, c := c2, adv := true }

/-- The lane of source A that PERM reads for each lane, its element and the lanes it hurts (R227, R236). -/
def permBody (f : L3) (x : Cx) : Iss Rsl := do
  dstCheck x.c f.dst 1 true
  let srcs := [f.srcA, f.srcB]
  for s in srcs do srcCheck x.c s
  needIssue (srcs.all (fun s => !x.owedSrc s))
  x.deadCheck (x.emptyRead f.srcB)
  let a := x.readSrc f.srcA 0
  let b := x.readSrc f.srcB 0
  let from_ := fun l => (b.at l).toNat % x.c.w
  let has := fun l => x.c.live.getLsbD (xmap x.c f.xa.toNat (from_ l))
  x.deadCheck (x.emptyAt f.srcA (((laneList x.act).filter has).map from_))
  x.poisonCheck [b, { sh := a.sh, poison := lanesWhere x.c.w (fun l => has l && a.poison.getLsbD (from_ l)) }]
  let uni := b.isU || (a.isU && x.c.live == allLanes x.c.w)
  return x.writeResult f.dst f.ocw (some 3) srcs [uniIf x uni (fun l => if has l then a.at (from_ l) else 0)]

/-- OCLD (R237): every lane of the entry, whatever the masks, with the poison marks of what it copies (R221). -/
def ocldBody (f : L3) (x : Cx) : Iss Rsl := do
  needOpnd (f.dst == 0x110) 0 0
  needOpnd (decide (8 ≤ f.ocw.toNat)) 0 4
  let y : Cx := { x with act := allLanes x.c.w }
  let srcs := [f.srcA]
  let r ← y.fetchRaw srcs
  let o := nthOpd r 0
  let c1 := x.c.emptySrcs srcs
  let n := f.ocw.toNat - 8
  let c2 := c1.supersede (.oc n) (allLanes x.c.w)
  return { s := x.s, adv := true,
           c := { c2 with oc := mput c2.oc n { shape := normShape x.c.w o.sh, poison := o.poison } } }

/-- OCINV (R238). -/
def ocinvBody (f : L3) (x : Cx) : Iss Rsl := do
  let m := f.mod6.toNat
  needInsn (decide (m = 0 ∨ m / 8 = 1))
  let drop := if m = 0 then ([] : NatMap Reg) else mdel x.c.oc (m - 8)
  return { s := x.s, c := if x.act = 0 then x.c else { x.c with oc := drop }, adv := true }

/-! The meanings. -/

/-- MOV (R232). -/
def execMov (f : L3) (s : State) : Out := issue s 0x70 8 f.g (movBody f 1)
/-- MOVI (R233). -/
def execMovi (f : LI) (s : State) : Out := issue s 0x71 8 f.g (moviBody f.md f.dst f.immWord)
/-- MOVI.hi, and every MOD above 1 of MOVI, which is illegal (R233). -/
def execMoviHi (f : LI) (s : State) : Out := issue s 0x71 8 f.g (moviHiBody f.md f.dst f.imm.toNat)
/-- MOVS (R234). -/
def execMovs (f : L3) (s : State) : Out := issue s 0x72 8 f.g (movsBody f)
/-- SMOV (R234). -/
def execSmov (f : L3) (s : State) : Out := issue s 0x73 8 f.g (smovBody f)
/-- SHAPE (R235). -/
def execShape (f : L3) (s : State) : Out := issue s 0x74 8 f.g (shapeBody f)
/-- IXSET (R225). -/
def execIxset (f : LI) (s : State) : Out := issue s 0x75 8 f.g (ixsetBody f)
/-- MOVX (R232). -/
def execMovx (f : L3) (s : State) : Out := issue s 0x76 8 f.g (movBody f (movxCount f.mod6))
/-- XSET (R228). -/
def execXset (f : LI) (s : State) : Out := issue s 0x77 8 f.g (xsetBody f)
/-- PERM (R236). -/
def execPerm (f : L3) (s : State) : Out := issue s 0x78 8 f.g (permBody f)
/-- OCLD (R237). -/
def execOcld (f : L3) (s : State) : Out := issue s 0x79 8 f.g (ocldBody f)
/-- OCINV (R238). -/
def execOcinv (f : L3) (s : State) : Out := issue s 0x7A 8 f.g (ocinvBody f)
/-- MOV.b32, entry 31 (R40). -/
def execC3MovB32 (f : C3) (s : State) : Out := issue s 0x70 4 f.g (movBody (f.toL3u 0) 1)
/-- MOVI.b32, entry 106 (R40). -/
def execCiMoviB32 (f : CI) (s : State) : Out := issue s 0x71 4 f.g (moviBody 0 (f.d.setWidth 9) f.immWord)
/-- MOVI.hi, entry 108 (R40): IMM12 unsigned. -/
def execCiMoviHi (f : CI) (s : State) : Out := issue s 0x71 4 f.g (moviHiBody 1 (f.d.setWidth 9) f.imm.toNat)
/-- MOV, OP4 0 (R41). -/
def execS16Mov (f : S16) (s : State) : Out :=
  issue s 0x70 2 Guard.always (movBody ({ f.toC3 with a := f.a.setWidth 6 }.toL3u 0) 1)

end Sys2Proof.Machine
end

