-- ==== Sys2Proof/Machine/Dispatch.lean ====
section
/-!
DEFINITION. exec: one arm for each constructor of Instr, a direct call of its meaning.
-/

namespace Sys2Proof.Machine

def exec (i : Instr) (s : State) : Host.Outcome State Fault Refusal :=
  match i with
  | .iadd f => Sys2Proof.Machine.execIadd f s
  | .isub f => Sys2Proof.Machine.execIsub f s
  | .iaddc f => Sys2Proof.Machine.execIaddc f s
  | .isubb f => Sys2Proof.Machine.execIsubb f s
  | .imul f => Sys2Proof.Machine.execImul f s
  | .imulh f => Sys2Proof.Machine.execImulh f s
  | .imad f => Sys2Proof.Machine.execImad f s
  | .idiv f => Sys2Proof.Machine.execIdiv f s
  | .irem f => Sys2Proof.Machine.execIrem f s
  | .ineg f => Sys2Proof.Machine.execIneg f s
  | .iabs f => Sys2Proof.Machine.execIabs f s
  | .imin f => Sys2Proof.Machine.execImin f s
  | .imax f => Sys2Proof.Machine.execImax f s
  | .and f => Sys2Proof.Machine.execAnd f s
  | .or f => Sys2Proof.Machine.execOr f s
  | .xor f => Sys2Proof.Machine.execXor f s
  | .andn f => Sys2Proof.Machine.execAndn f s
  | .not f => Sys2Proof.Machine.execNot f s
  | .shl f => Sys2Proof.Machine.execShl f s
  | .shr f => Sys2Proof.Machine.execShr f s
  | .sar f => Sys2Proof.Machine.execSar f s
  | .rol f => Sys2Proof.Machine.execRol f s
  | .funsh f => Sys2Proof.Machine.execFunsh f s
  | .popc f => Sys2Proof.Machine.execPopc f s
  | .clz f => Sys2Proof.Machine.execClz f s
  | .ctz f => Sys2Proof.Machine.execCtz f s
  | .brev f => Sys2Proof.Machine.execBrev f s
  | .bfe f => Sys2Proof.Machine.execBfe f s
  | .bfi f => Sys2Proof.Machine.execBfi f s
  | .prmb f => Sys2Proof.Machine.execPrmb f s
  | .lea f => Sys2Proof.Machine.execLea f s
  | .sel f => Sys2Proof.Machine.execSel f s
  | .icmp f => Sys2Proof.Machine.execIcmp f s
  | .plop f => Sys2Proof.Machine.execPlop f s
  | .pmov f => Sys2Proof.Machine.execPmov f s
  | .idot4 f => Sys2Proof.Machine.execIdot4 f s
  | .fadd f => Sys2Proof.Machine.execFadd f s
  | .fsub f => Sys2Proof.Machine.execFsub f s
  | .fmul f => Sys2Proof.Machine.execFmul f s
  | .ffma f => Sys2Proof.Machine.execFfma f s
  | .fmin f => Sys2Proof.Machine.execFmin f s
  | .fmax f => Sys2Proof.Machine.execFmax f s
  | .fminm f => Sys2Proof.Machine.execFminm f s
  | .fmaxm f => Sys2Proof.Machine.execFmaxm f s
  | .fabs f => Sys2Proof.Machine.execFabs f s
  | .fneg f => Sys2Proof.Machine.execFneg f s
  | .fcopys f => Sys2Proof.Machine.execFcopys f s
  | .fcmp f => Sys2Proof.Machine.execFcmp f s
  | .fclass f => Sys2Proof.Machine.execFclass f s
  | .frnd f => Sys2Proof.Machine.execFrnd f s
  | .fcvt f => Sys2Proof.Machine.execFcvt f s
  | .f2i f => Sys2Proof.Machine.execF2i f s
  | .i2f f => Sys2Proof.Machine.execI2f f s
  | .fscale f => Sys2Proof.Machine.execFscale f s
  | .fgete f => Sys2Proof.Machine.execFgete f s
  | .fdot2 f => Sys2Proof.Machine.execFdot2 f s
  | .rcp f => Sys2Proof.Machine.execRcp f s
  | .sqrt f => Sys2Proof.Machine.execSqrt f s
  | .rsq f => Sys2Proof.Machine.execRsq f s
  | .exp2 f => Sys2Proof.Machine.execExp2 f s
  | .log2 f => Sys2Proof.Machine.execLog2 f s
  | .had32 f => Sys2Proof.Machine.execHad32 f s
  | .bmax f => Sys2Proof.Machine.execBmax f s
  | .qnt f => Sys2Proof.Machine.execQnt f s
  | .dqnt f => Sys2Proof.Machine.execDqnt f s
  | .shfl f => Sys2Proof.Machine.execShfl f s
  | .vote f => Sys2Proof.Machine.execVote f s
  | .ballot f => Sys2Proof.Machine.execBallot f s
  | .matchLanes f => Sys2Proof.Machine.execMatchLanes f s
  | .redc f => Sys2Proof.Machine.execRedc f s
  | .scan f => Sys2Proof.Machine.execScan f s
  | .compact f => Sys2Proof.Machine.execCompact f s
  | .hist f => Sys2Proof.Machine.execHist f s
  | .hmerge f => Sys2Proof.Machine.execHmerge f s
  | .bsrch f => Sys2Proof.Machine.execBsrch f s
  | .topk f => Sys2Proof.Machine.execTopk f s
  | .mov f => Sys2Proof.Machine.execMov f s
  | .movi f => Sys2Proof.Machine.execMovi f s
  | .moviHi f => Sys2Proof.Machine.execMoviHi f s
  | .movs f => Sys2Proof.Machine.execMovs f s
  | .smov f => Sys2Proof.Machine.execSmov f s
  | .shape f => Sys2Proof.Machine.execShape f s
  | .ixset f => Sys2Proof.Machine.execIxset f s
  | .movx f => Sys2Proof.Machine.execMovx f s
  | .xset f => Sys2Proof.Machine.execXset f s
  | .perm f => Sys2Proof.Machine.execPerm f s
  | .ocld f => Sys2Proof.Machine.execOcld f s
  | .ocinv f => Sys2Proof.Machine.execOcinv f s
  | .vsave f => Sys2Proof.Machine.execVsave f s
  | .vrest f => Sys2Proof.Machine.execVrest f s
  | .ldg f => Sys2Proof.Machine.execLdg f s
  | .stg f => Sys2Proof.Machine.execStg f s
  | .ldc f => Sys2Proof.Machine.execLdc f s
  | .pref f => Sys2Proof.Machine.execPref f s
  | .atom f => Sys2Proof.Machine.execAtom f s
  | .red f => Sys2Proof.Machine.execRed f s
  | .stm f => Sys2Proof.Machine.execStm f s
  | .rwb f => Sys2Proof.Machine.execRwb f s
  | .rinv f => Sys2Proof.Machine.execRinv f s
  | .rwi f => Sys2Proof.Machine.execRwi f s
  | .freeze f => Sys2Proof.Machine.execFreeze f s
  | .thaw f => Sys2Proof.Machine.execThaw f s
  | .frzqAddr f => Sys2Proof.Machine.execFrzqAddr f s
  | .frzqSeq f => Sys2Proof.Machine.execFrzqSeq f s
  | .frzqFree f => Sys2Proof.Machine.execFrzqFree f s
  | .crdecl f => Sys2Proof.Machine.execCrdecl f s
  | .crrel f => Sys2Proof.Machine.execCrrel f s
  | .crrelEnd f => Sys2Proof.Machine.execCrrelEnd f s
  | .promote f => Sys2Proof.Machine.execPromote f s
  | .fence f => Sys2Proof.Machine.execFence f s
  | .acq f => Sys2Proof.Machine.execAcq f s
  | .rel f => Sys2Proof.Machine.execRel f s
  | .waitc f => Sys2Proof.Machine.execWaitc f s
  | .cntrd f => Sys2Proof.Machine.execCntrd f s
  | .seqwaitChain f => Sys2Proof.Machine.execSeqwaitChain f s
  | .seqwaitThaw f => Sys2Proof.Machine.execSeqwaitThaw f s
  | .seqwaitMem f => Sys2Proof.Machine.execSeqwaitMem f s
  | .yieldpt f => Sys2Proof.Machine.execYieldpt f s
  | .txfer f => Sys2Proof.Machine.execTxfer f s
  | .chpush f => Sys2Proof.Machine.execChpush f s
  | .chtail f => Sys2Proof.Machine.execChtail f s
  | .qfence f => Sys2Proof.Machine.execQfence f s
  | .bbinit f => Sys2Proof.Machine.execBbinit f s
  | .bbarr f => Sys2Proof.Machine.execBbarr f s
  | .bbwait f => Sys2Proof.Machine.execBbwait f s
  | .grpdef f => Sys2Proof.Machine.execGrpdef f s
  | .grpdefDel f => Sys2Proof.Machine.execGrpdefDel f s
  | .clstat f => Sys2Proof.Machine.execClstat f s
  | .mma f => Sys2Proof.Machine.execMma f s
  | .mmas f => Sys2Proof.Machine.execMmas f s
  | .mmag f => Sys2Proof.Machine.execMmag f s
  | .mmax f => Sys2Proof.Machine.execMmax f s
  | .accz f => Sys2Proof.Machine.execAccz f s
  | .task f => Sys2Proof.Machine.execTask f s
  | .tdoneRun f => Sys2Proof.Machine.execTdoneRun f s
  | .tdone f => Sys2Proof.Machine.execTdone f s
  | .ttok f => Sys2Proof.Machine.execTtok f s
  | .accrd f => Sys2Proof.Machine.execAccrd f s
  | .accfree f => Sys2Proof.Machine.execAccfree f s
  | .mstat f => Sys2Proof.Machine.execMstat f s
  | .mstatClr f => Sys2Proof.Machine.execMstatClr f s
  | .mstatCtl f => Sys2Proof.Machine.execMstatCtl f s
  | .bra f => Sys2Proof.Machine.execBra f s
  | .brx f => Sys2Proof.Machine.execBrx f s
  | .call f => Sys2Proof.Machine.execCall f s
  | .callx f => Sys2Proof.Machine.execCallx f s
  | .ret f => Sys2Proof.Machine.execRet f s
  | .land f => Sys2Proof.Machine.execLand f s
  | .rcv f => Sys2Proof.Machine.execRcv f s
  | .exit f => Sys2Proof.Machine.execExit f s
  | .loop f => Sys2Proof.Machine.execLoop f s
  | .loopSet f => Sys2Proof.Machine.execLoopSet f s
  | .loopSeti f => Sys2Proof.Machine.execLoopSeti f s
  | .loopGet f => Sys2Proof.Machine.execLoopGet f s
  | .brk f => Sys2Proof.Machine.execBrk f s
  | .bar f => Sys2Proof.Machine.execBar f s
  | .bara f => Sys2Proof.Machine.execBara f s
  | .barw f => Sys2Proof.Machine.execBarw f s
  | .spawn f => Sys2Proof.Machine.execSpawn f s
  | .syncw f => Sys2Proof.Machine.execSyncw f s
  | .recruit f => Sys2Proof.Machine.execRecruit f s
  | .hjoin f => Sys2Proof.Machine.execHjoin f s
  | .hjoinHelper f => Sys2Proof.Machine.execHjoinHelper f s
  | .hrel f => Sys2Proof.Machine.execHrel f s
  | .nqpush f => Sys2Proof.Machine.execNqpush f s
  | .nqtake f => Sys2Proof.Machine.execNqtake f s
  | .nqtakeTry f => Sys2Proof.Machine.execNqtakeTry f s
  | .nqtakeRet f => Sys2Proof.Machine.execNqtakeRet f s
  | .hpush f => Sys2Proof.Machine.execHpush f s
  | .hdrain f => Sys2Proof.Machine.execHdrain f s
  | .hclr f => Sys2Proof.Machine.execHclr f s
  | .trap f => Sys2Proof.Machine.execTrap f s
  | .tret f => Sys2Proof.Machine.execTret f s
  | .tretSkip f => Sys2Proof.Machine.execTretSkip f s
  | .tretGet f => Sys2Proof.Machine.execTretGet f s
  | .tretSet f => Sys2Proof.Machine.execTretSet f s
  | .snap f => Sys2Proof.Machine.execSnap f s
  | .nop => Sys2Proof.Machine.execNop s
  | .prioh n => Sys2Proof.Machine.execPrioh n s
  | .loch f => Sys2Proof.Machine.execLoch f s
  | .hint n => Sys2Proof.Machine.execHint n s
  | .c3IaddI32 f => Sys2Proof.Machine.execC3IaddI32 f s
  | .c3IsubI32 f => Sys2Proof.Machine.execC3IsubI32 f s
  | .c3ImulI32 f => Sys2Proof.Machine.execC3ImulI32 f s
  | .c3ImulhI32 f => Sys2Proof.Machine.execC3ImulhI32 f s
  | .c3ImulhN32 f => Sys2Proof.Machine.execC3ImulhN32 f s
  | .c3IdivI32 f => Sys2Proof.Machine.execC3IdivI32 f s
  | .c3IdivN32 f => Sys2Proof.Machine.execC3IdivN32 f s
  | .c3IremI32 f => Sys2Proof.Machine.execC3IremI32 f s
  | .c3IremN32 f => Sys2Proof.Machine.execC3IremN32 f s
  | .c3IminI32 f => Sys2Proof.Machine.execC3IminI32 f s
  | .c3IminN32 f => Sys2Proof.Machine.execC3IminN32 f s
  | .c3ImaxI32 f => Sys2Proof.Machine.execC3ImaxI32 f s
  | .c3ImaxN32 f => Sys2Proof.Machine.execC3ImaxN32 f s
  | .c3AndB32 f => Sys2Proof.Machine.execC3AndB32 f s
  | .c3OrB32 f => Sys2Proof.Machine.execC3OrB32 f s
  | .c3XorB32 f => Sys2Proof.Machine.execC3XorB32 f s
  | .c3AndnB32 f => Sys2Proof.Machine.execC3AndnB32 f s
  | .c3ShlB32 f => Sys2Proof.Machine.execC3ShlB32 f s
  | .c3ShrB32 f => Sys2Proof.Machine.execC3ShrB32 f s
  | .c3SarB32 f => Sys2Proof.Machine.execC3SarB32 f s
  | .c3RolB32 f => Sys2Proof.Machine.execC3RolB32 f s
  | .c3PrmbB32 f => Sys2Proof.Machine.execC3PrmbB32 f s
  | .c3InegI32 f => Sys2Proof.Machine.execC3InegI32 f s
  | .c3IabsI32 f => Sys2Proof.Machine.execC3IabsI32 f s
  | .c3NotB32 f => Sys2Proof.Machine.execC3NotB32 f s
  | .c3PopcB32 f => Sys2Proof.Machine.execC3PopcB32 f s
  | .c3ClzB32 f => Sys2Proof.Machine.execC3ClzB32 f s
  | .c3CtzB32 f => Sys2Proof.Machine.execC3CtzB32 f s
  | .c3BrevB32 f => Sys2Proof.Machine.execC3BrevB32 f s
  | .c3IaddSatI32 f => Sys2Proof.Machine.execC3IaddSatI32 f s
  | .c3IsubSatI32 f => Sys2Proof.Machine.execC3IsubSatI32 f s
  | .c3MovB32 f => Sys2Proof.Machine.execC3MovB32 f s
  | .c3FaddF32 f => Sys2Proof.Machine.execC3FaddF32 f s
  | .c3FsubF32 f => Sys2Proof.Machine.execC3FsubF32 f s
  | .c3FmulF32 f => Sys2Proof.Machine.execC3FmulF32 f s
  | .c3FminF32 f => Sys2Proof.Machine.execC3FminF32 f s
  | .c3FmaxF32 f => Sys2Proof.Machine.execC3FmaxF32 f s
  | .c3FminmF32 f => Sys2Proof.Machine.execC3FminmF32 f s
  | .c3FmaxmF32 f => Sys2Proof.Machine.execC3FmaxmF32 f s
  | .c3FcopysF32 f => Sys2Proof.Machine.execC3FcopysF32 f s
  | .c3FabsF32 f => Sys2Proof.Machine.execC3FabsF32 f s
  | .c3FnegF32 f => Sys2Proof.Machine.execC3FnegF32 f s
  | .c3FscaleF32 f => Sys2Proof.Machine.execC3FscaleF32 f s
  | .c3FgeteF32 f => Sys2Proof.Machine.execC3FgeteF32 f s
  | .c3FrndRneF32 f => Sys2Proof.Machine.execC3FrndRneF32 f s
  | .c3FrndRtzF32 f => Sys2Proof.Machine.execC3FrndRtzF32 f s
  | .c3FrndRupF32 f => Sys2Proof.Machine.execC3FrndRupF32 f s
  | .c3FrndRdnF32 f => Sys2Proof.Machine.execC3FrndRdnF32 f s
  | .c3F2iRtzI32F32 f => Sys2Proof.Machine.execC3F2iRtzI32F32 f s
  | .c3F2iRtzN32F32 f => Sys2Proof.Machine.execC3F2iRtzN32F32 f s
  | .c3F2iRneI32F32 f => Sys2Proof.Machine.execC3F2iRneI32F32 f s
  | .c3F2iRneN32F32 f => Sys2Proof.Machine.execC3F2iRneN32F32 f s
  | .c3I2fRneF32I32 f => Sys2Proof.Machine.execC3I2fRneF32I32 f s
  | .c3I2fRneF32N32 f => Sys2Proof.Machine.execC3I2fRneF32N32 f s
  | .c3FcvtRneBf16F32 f => Sys2Proof.Machine.execC3FcvtRneBf16F32 f s
  | .c3FcvtRneF16F32 f => Sys2Proof.Machine.execC3FcvtRneF16F32 f s
  | .c3FcvtF32Bf16 f => Sys2Proof.Machine.execC3FcvtF32Bf16 f s
  | .c3FcvtF32F16 f => Sys2Proof.Machine.execC3FcvtF32F16 f s
  | .c3FclassF32 f => Sys2Proof.Machine.execC3FclassF32 f s
  | .c3RcpF32 f => Sys2Proof.Machine.execC3RcpF32 f s
  | .c3SqrtF32 f => Sys2Proof.Machine.execC3SqrtF32 f s
  | .c3RsqF32 f => Sys2Proof.Machine.execC3RsqF32 f s
  | .c3Exp2F32 f => Sys2Proof.Machine.execC3Exp2F32 f s
  | .c3Log2F32 f => Sys2Proof.Machine.execC3Log2F32 f s
  | .c3FaddF16x2 f => Sys2Proof.Machine.execC3FaddF16x2 f s
  | .c3FsubF16x2 f => Sys2Proof.Machine.execC3FsubF16x2 f s
  | .c3FmulF16x2 f => Sys2Proof.Machine.execC3FmulF16x2 f s
  | .c3FminF16x2 f => Sys2Proof.Machine.execC3FminF16x2 f s
  | .c3FmaxF16x2 f => Sys2Proof.Machine.execC3FmaxF16x2 f s
  | .c3FabsF16x2 f => Sys2Proof.Machine.execC3FabsF16x2 f s
  | .c3FnegF16x2 f => Sys2Proof.Machine.execC3FnegF16x2 f s
  | .c3FcvtRneF16x2F32 f => Sys2Proof.Machine.execC3FcvtRneF16x2F32 f s
  | .c3FaddBf16x2 f => Sys2Proof.Machine.execC3FaddBf16x2 f s
  | .c3FsubBf16x2 f => Sys2Proof.Machine.execC3FsubBf16x2 f s
  | .c3FmulBf16x2 f => Sys2Proof.Machine.execC3FmulBf16x2 f s
  | .c3FminBf16x2 f => Sys2Proof.Machine.execC3FminBf16x2 f s
  | .c3FmaxBf16x2 f => Sys2Proof.Machine.execC3FmaxBf16x2 f s
  | .c3FabsBf16x2 f => Sys2Proof.Machine.execC3FabsBf16x2 f s
  | .c3FnegBf16x2 f => Sys2Proof.Machine.execC3FnegBf16x2 f s
  | .c3FcvtRneBf16x2F32 f => Sys2Proof.Machine.execC3FcvtRneBf16x2F32 f s
  | .c3BfeN32 f => Sys2Proof.Machine.execC3BfeN32 f s
  | .c3BfeI32 f => Sys2Proof.Machine.execC3BfeI32 f s
  | .c3LeaS1 f => Sys2Proof.Machine.execC3LeaS1 f s
  | .c3LeaS2 f => Sys2Proof.Machine.execC3LeaS2 f s
  | .c3LeaS3 f => Sys2Proof.Machine.execC3LeaS3 f s
  | .c3LeaS4 f => Sys2Proof.Machine.execC3LeaS4 f s
  | .c3ShflAtB32 f => Sys2Proof.Machine.execC3ShflAtB32 f s
  | .c3ShflXorB32 f => Sys2Proof.Machine.execC3ShflXorB32 f s
  | .c3RedcAddI32 f => Sys2Proof.Machine.execC3RedcAddI32 f s
  | .c3RedcMaxI32 f => Sys2Proof.Machine.execC3RedcMaxI32 f s
  | .c3RedcAddF32 f => Sys2Proof.Machine.execC3RedcAddF32 f s
  | .c3RedcMaxF32 f => Sys2Proof.Machine.execC3RedcMaxF32 f s
  | .c3ScanAddI32 f => Sys2Proof.Machine.execC3ScanAddI32 f s
  | .c3ScanAddF32 f => Sys2Proof.Machine.execC3ScanAddF32 f s
  | .ciIaddI32 f => Sys2Proof.Machine.execCiIaddI32 f s
  | .ciImulI32 f => Sys2Proof.Machine.execCiImulI32 f s
  | .ciAndB32 f => Sys2Proof.Machine.execCiAndB32 f s
  | .ciOrB32 f => Sys2Proof.Machine.execCiOrB32 f s
  | .ciXorB32 f => Sys2Proof.Machine.execCiXorB32 f s
  | .ciShlB32 f => Sys2Proof.Machine.execCiShlB32 f s
  | .ciShrB32 f => Sys2Proof.Machine.execCiShrB32 f s
  | .ciSarB32 f => Sys2Proof.Machine.execCiSarB32 f s
  | .ciIminI32 f => Sys2Proof.Machine.execCiIminI32 f s
  | .ciImaxI32 f => Sys2Proof.Machine.execCiImaxI32 f s
  | .ciMoviB32 f => Sys2Proof.Machine.execCiMoviB32 f s
  | .ciFscaleF32 f => Sys2Proof.Machine.execCiFscaleF32 f s
  | .ciMoviHi f => Sys2Proof.Machine.execCiMoviHi f s
  | .cbBra f => Sys2Proof.Machine.execCbBra f s
  | .cbLoopLc0 f => Sys2Proof.Machine.execCbLoopLc0 f s
  | .cbLoopLc1 f => Sys2Proof.Machine.execCbLoopLc1 f s
  | .cbLoopLc2 f => Sys2Proof.Machine.execCbLoopLc2 f s
  | .s16Mov f => Sys2Proof.Machine.execS16Mov f s
  | .nop16 d => Sys2Proof.Machine.execNop16 d s
  | .s16Iadd f => Sys2Proof.Machine.execS16Iadd f s
  | .s16Isub f => Sys2Proof.Machine.execS16Isub f s
  | .s16Imin f => Sys2Proof.Machine.execS16Imin f s
  | .s16Imax f => Sys2Proof.Machine.execS16Imax f s
  | .s16And f => Sys2Proof.Machine.execS16And f s
  | .s16Or f => Sys2Proof.Machine.execS16Or f s
  | .s16Xor f => Sys2Proof.Machine.execS16Xor f s
  | .s16Shl f => Sys2Proof.Machine.execS16Shl f s
  | .s16Shr f => Sys2Proof.Machine.execS16Shr f s
  | .s16Sar f => Sys2Proof.Machine.execS16Sar f s
  | .s16Fadd f => Sys2Proof.Machine.execS16Fadd f s
  | .s16Fsub f => Sys2Proof.Machine.execS16Fsub f s
  | .s16Fmul f => Sys2Proof.Machine.execS16Fmul f s
  | .s16Fmin f => Sys2Proof.Machine.execS16Fmin f s
  | .s16Fmax f => Sys2Proof.Machine.execS16Fmax f s
  | .waitWake crew => Sys2Proof.Machine.execWaitWake crew s
  | .loadLimitWindow core => Sys2Proof.Machine.execLoadLimitWindow core s
  | .loadSetEntry crew => Sys2Proof.Machine.execLoadSetEntry crew s
  | .pageWalk unit ctx va acc => Sys2Proof.Machine.execPageWalk unit ctx va acc s
  | .stopRecordsWrite ctx => Sys2Proof.Machine.execStopRecordsWrite ctx s
  | .loadReturn crew op lanes => Sys2Proof.Machine.execLoadReturn crew op lanes s
  | .storeRetire crew => Sys2Proof.Machine.execStoreRetire crew s
  | .holdMessage ix => Sys2Proof.Machine.execHoldMessage ix s
  | .l1Evict core line => Sys2Proof.Machine.execL1Evict core line s
  | .writeBack ix => Sys2Proof.Machine.execWriteBack ix s
  | .storeAtHome ix => Sys2Proof.Machine.execStoreAtHome ix s
  | .atomicAtHome ix => Sys2Proof.Machine.execAtomicAtHome ix s
  | .storeAck ix => Sys2Proof.Machine.execStoreAck ix s
  | .rangeRecall line => Sys2Proof.Machine.execRangeRecall line s
  | .remoteRequest r => Sys2Proof.Machine.execRemoteRequest r s
  | .remoteReply r => Sys2Proof.Machine.execRemoteReply r s
  | .hostWindowReply r => Sys2Proof.Machine.execHostWindowReply r s
  | .freezeMessage dev base len => Sys2Proof.Machine.execFreezeMessage dev base len s
  | .freezeAck entry dev => Sys2Proof.Machine.execFreezeAck entry dev s
  | .collectionRequest dev entry => Sys2Proof.Machine.execCollectionRequest dev entry s
  | .collectionAck entry dev => Sys2Proof.Machine.execCollectionAck entry dev s
  | .collectionStuck entry dev => Sys2Proof.Machine.execCollectionStuck entry dev s
  | .promoteRequest crew => Sys2Proof.Machine.execPromoteRequest crew s
  | .fenceConflict crew line => Sys2Proof.Machine.execFenceConflict crew line s
  | .fenceComplete crew => Sys2Proof.Machine.execFenceComplete crew s
  | .seqwaitPoll crew => Sys2Proof.Machine.execSeqwaitPoll crew s
  | .nopEntry handle => Sys2Proof.Machine.execNopEntry handle s
  | .copyEntry handle => Sys2Proof.Machine.execCopyEntry handle s
  | .fillEntry handle => Sys2Proof.Machine.execFillEntry handle s
  | .qfenceEntry handle => Sys2Proof.Machine.execQfenceEntry handle s
  | .mqfillEntry handle => Sys2Proof.Machine.execMqfillEntry handle s
  | .bbarrEntry handle => Sys2Proof.Machine.execBbarrEntry handle s
  | .txeBeat handle => Sys2Proof.Machine.execTxeBeat handle s
  | .entryComplete handle => Sys2Proof.Machine.execEntryComplete handle s
  | .bbArrival ix => Sys2Proof.Machine.execBbArrival ix s
  | .plotterFetch cluster quad pos line => Sys2Proof.Machine.execPlotterFetch cluster quad pos line s
  | .quadrantBlockAdd cluster quad => Sys2Proof.Machine.execQuadrantBlockAdd cluster quad s
  | .acczZero cluster quad => Sys2Proof.Machine.execAcczZero cluster quad s
  | .accrdReturn crew op => Sys2Proof.Machine.execAccrdReturn crew op s
  | .accfreeEffect cluster ix => Sys2Proof.Machine.execAccfreeEffect cluster ix s
  | .taskDispatch cluster => Sys2Proof.Machine.execTaskDispatch cluster s
  | .deferredCompletion cluster ix => Sys2Proof.Machine.execDeferredCompletion cluster ix s
  | .flitCrcResend good => Sys2Proof.Machine.execFlitCrcResend good s
  | .linkDown => Sys2Proof.Machine.execLinkDown s
  | .portDown port => Sys2Proof.Machine.execPortDown port s
  | .scaleOutAbandon handle => Sys2Proof.Machine.execScaleOutAbandon handle s
  | .peerSilenceTimeout op => Sys2Proof.Machine.execPeerSilenceTimeout op s
  | .contributionBeat b => Sys2Proof.Machine.execContributionBeat b s
  | .partialBeat b => Sys2Proof.Machine.execPartialBeat b s
  | .buddyCopy b => Sys2Proof.Machine.execBuddyCopy b s
  | .groupTimeout ctx group rank beat => Sys2Proof.Machine.execGroupTimeout ctx group rank beat s
  | .destAckTimeout ctx group rank => Sys2Proof.Machine.execDestAckTimeout ctx group rank s
  | .completionNotice n => Sys2Proof.Machine.execCompletionNotice n s
  | .launchDatagram d => Sys2Proof.Machine.execLaunchDatagram d s
  | .placeTeam die => Sys2Proof.Machine.execPlaceTeam die s
  | .nodeDrainMessage queue => Sys2Proof.Machine.execNodeDrainMessage queue s
  | .privilegedDistribute queue => Sys2Proof.Machine.execPrivilegedDistribute queue s
  | .distributorSteal launch cluster => Sys2Proof.Machine.execDistributorSteal launch cluster s
  | .taskTake core part => Sys2Proof.Machine.execTaskTake core part s
  | .crewComplete crew => Sys2Proof.Machine.execCrewComplete crew s
  | .launchComplete launch => Sys2Proof.Machine.execLaunchComplete launch s
  | .nodePush ix => Sys2Proof.Machine.execNodePush ix s
  | .nodeTimerExpiry node => Sys2Proof.Machine.execNodeTimerExpiry node s
  | .nodePressureExpiry node => Sys2Proof.Machine.execNodePressureExpiry node s
  | .heapPushAtHome ix => Sys2Proof.Machine.execHeapPushAtHome ix s
  | .timeSliceExpiry ctx => Sys2Proof.Machine.execTimeSliceExpiry ctx s
  | .tsliceEscalation ctx => Sys2Proof.Machine.execTsliceEscalation ctx s
  | .watchdogExpiry crew => Sys2Proof.Machine.execWatchdogExpiry crew s
  | .crewEvict crew => Sys2Proof.Machine.execCrewEvict crew s
  | .crewRestore crew => Sys2Proof.Machine.execCrewRestore crew s
  | .rowRetire r => Sys2Proof.Machine.execRowRetire r s
  | .powerLimitThrottle watts => Sys2Proof.Machine.execPowerLimitThrottle watts s
  | .snapinPin => Sys2Proof.Machine.execSnapinPin s
  | .snapshotLatch => Sys2Proof.Machine.execSnapshotLatch s
  | .powerOnReset => Sys2Proof.Machine.execPowerOnReset s
  | .failover => Sys2Proof.Machine.execFailover s
  | .ctxcreate c desc => Sys2Proof.Machine.execCtxcreate c desc s
  | .ctxdestroy c ctx => Sys2Proof.Machine.execCtxdestroy c ctx s
  | .bindq c queue ctx caddr priv => Sys2Proof.Machine.execBindq c queue ctx caddr priv s
  | .unbindq c queue => Sys2Proof.Machine.execUnbindq c queue s
  | .halt c ctx => Sys2Proof.Machine.execHalt c ctx s
  | .release c ctx => Sys2Proof.Machine.execRelease c ctx s
  | .faultclr c ctx => Sys2Proof.Machine.execFaultclr c ctx s
  | .resume c ctx => Sys2Proof.Machine.execResume c ctx s
  | .tlbinv c asn va len => Sys2Proof.Machine.execTlbinv c asn va len s
  | .ownkey c owner => Sys2Proof.Machine.execOwnkey c owner s
  | .thawforce c entry dev => Sys2Proof.Machine.execThawforce c entry dev s
  | .snaptrig c => Sys2Proof.Machine.execSnaptrig c s
  | .powerlim c watts => Sys2Proof.Machine.execPowerlim c watts s
  | .memrd c pa owner len => Sys2Proof.Machine.execMemrd c pa owner len s
  | .memwr c pa owner bytes => Sys2Proof.Machine.execMemwr c pa owner bytes s
  | .ctlrd c block off len => Sys2Proof.Machine.execCtlrd c block off len s
  | .ctlwr c block off bytes => Sys2Proof.Machine.execCtlwr c block off bytes s
  | .hostwin c ctx base size => Sys2Proof.Machine.execHostwin c ctx base size s
  | .podjoin c dev size => Sys2Proof.Machine.execPodjoin c dev size s
  | .linkkey c port key => Sys2Proof.Machine.execLinkkey c port key s
  | .epset c idx bytes => Sys2Proof.Machine.execEpset c idx bytes s
  | .report c first => Sys2Proof.Machine.execReport c first s
  | .dbgunlock c token => Sys2Proof.Machine.execDbgunlock c token s
  | .lcadvance c token => Sys2Proof.Machine.execLcadvance c token s
  | .unassignedCommand c code => Sys2Proof.Machine.execUnassignedCommand c code s
  | .getVersion conn => Sys2Proof.Machine.execGetVersion conn s
  | .getCapabilities conn => Sys2Proof.Machine.execGetCapabilities conn s
  | .negotiateAlgorithms conn => Sys2Proof.Machine.execNegotiateAlgorithms conn s
  | .getDigests conn => Sys2Proof.Machine.execGetDigests conn s
  | .getCertificate conn slot => Sys2Proof.Machine.execGetCertificate conn slot s
  | .challenge conn slot => Sys2Proof.Machine.execChallenge conn slot s
  | .getMeasurements conn req => Sys2Proof.Machine.execGetMeasurements conn req s
  | .keyExchange conn => Sys2Proof.Machine.execKeyExchange conn s
  | .finish conn cert => Sys2Proof.Machine.execFinish conn cert s
  | .endSession conn => Sys2Proof.Machine.execEndSession conn s
  | .heartbeat conn => Sys2Proof.Machine.execHeartbeat conn s
  | .keyUpdate conn => Sys2Proof.Machine.execKeyUpdate conn s
  | .unsupportedRequest conn => Sys2Proof.Machine.execUnsupportedRequest conn s
  | .hctl v => Sys2Proof.Machine.execHctl v s
  | .hashComplete => Sys2Proof.Machine.execHashComplete s
  | .ectl v => Sys2Proof.Machine.execEctl v s
  | .verifyComplete => Sys2Proof.Machine.execVerifyComplete s
  | .mext v => Sys2Proof.Machine.execMext v s
  | .hbeat v => Sys2Proof.Machine.execHbeat v s
  | .unlock v => Sys2Proof.Machine.execUnlock v s
  | .kctl v => Sys2Proof.Machine.execKctl v s
  | .wipeComplete => Sys2Proof.Machine.execWipeComplete s
  | .dbgctl v => Sys2Proof.Machine.execDbgctl v s
  | .rxlen v => Sys2Proof.Machine.execRxlen v s
  | .txlen v => Sys2Proof.Machine.execTxlen v s
  | .rng => Sys2Proof.Machine.execRng s
  | .registerWrite addr v => Sys2Proof.Machine.execRegisterWrite addr v s
  | .securedMessage m => Sys2Proof.Machine.execSecuredMessage m s
  | .portTraining port lanes => Sys2Proof.Machine.execPortTraining port lanes s

end Sys2Proof.Machine
end

