-- ==== Sys2Proof/Machine/Turn.lean ====
section
/-!
DEFINITION. Whose step it is (log entry 1): a crew's turn, which fetches, decodes and executes one instruction; an
indivisible step of another agent; and, where nothing else is asked for, a pass in which the rest of the device goes on.
-/

namespace Sys2Proof.Machine

/-- A party's accesses, fence, wait and completion go on. -/
def State.passCrew (s : State) (id : Nat) : State :=
  let loads := ((mget s.crews id).map (fun c => c.loads.map (·.op))).getD []
  let s1 := loads.foldl (fun (s : State) op => s.loadBack id op (BitVec.allOnes 64)) s
  let reads := ((mget s1.crews id).map (fun c => c.accReads.map (·.op))).getD []
  let s2 := reads.foldl (fun (s : State) op => s.accReturn id op) s1
  let s3 := s2.retire id
  let s4 := match (mget s3.crews id).bind (·.fence) with
    | some f => if f.conflict then s3.rollback id else s3.fenceEnd id
    | none => s3
  (s4.tryWait id).enterLoadSet id

/-- A chain's engine goes on: an entry begins, a beat is performed, an entry completes. -/
def State.passChain (s : State) (h : Nat) : State :=
  let s1 := [0, 1, 2, 5].foldl (fun (s : State) k => s.beginEntry h k) s
  (((s1.joinEntry h).mqfillEntry h).txeBeat h).completeEntry h

/-- The lines that the first instruction of a quadrant still reads for its next block, in the next group that has rows (R327). -/
def Cluster.wanted (k : Cluster) (q : Nat) : List Nat :=
  match (mgetD k.quads q []).head? with
  | none => []
  | some o =>
    match o.lx with
    | none => []
    | some (opc, f) =>
      match o.nextGroup opc o.group with
      | some g => (o.blockLines opc f g o.block).filter (fun l => (k.line o.task l).isNone)
      | none => []

/-- A cluster's matrix engine goes on. -/
def State.passCluster (s : State) (key : Nat) : State :=
  if !s.ctxRuns (key / 64) then s
  else
    let s1 := (List.range 4).foldl (fun (s : State) q =>
      let t := s.zeroTile key q
      let u := ((t.clus key).wanted q).foldl (fun (s : State) l => s.plot key q 0 l) t
      u.blockAdd key q) s
    let s2 := (List.range (s1.clus key).accfree.length).foldl (fun (s : State) _ => s.accfreeGo key 0) s1
    (List.range (s2.clus key).defer.length).foldl (fun (s : State) i => s.deferGo key i) s2

/-- The beats of collective steps reach their reduction points. -/
def State.passBeats (s : State) : State :=
  s.colls.foldl (fun (s : State) c => c.fly.foldl (fun (s : State) b => s.ownBeat b) s) s

/-- Messages, acknowledgements, accesses, waits, beats and engines go on. -/
def State.passAccess (s : State) : State :=
  let s1 := s.passNet.passAcks.passBeats
  let s2 := (s1.crews.map (·.1)).foldl (fun (s : State) id => s.passCrew id) s1
  let s3 := (s2.chains.map (·.1)).foldl (fun (s : State) h => s.passChain h) s2
  (s3.clusters.map (·.1)).foldl (fun (s : State) k => s.passCluster k) s3

/-- Crews that are done complete, those asked to yield are evicted, and evicted ones come back; a halted context's records are
written. -/
def State.passEnds (s : State) : State :=
  let s1 := (s.crews.map (·.1)).foldl (fun (s : State) id => ((s.finishCrew id).endGroup id).evictCrew id) s
  let s2 := (s1.ctxs.map (·.1)).foldl (fun (s : State) x => s.stopRecords x) s1
  ((s2.crews.filter (fun e => e.2.evicted)).map (·.1)).foldl (fun (s : State) id => s.restoreCrew id) s2

/-- Free partitions take tasks. -/
def State.passTasks (s : State) : State :=
  if s.deques.all (fun e => e.2.isEmpty) then s
  else (List.range 2048).foldl (fun (s : State) i => s.takeTask (i / 8) (i % 8)) s

/-- The queues' heads are distributed, drained and placed, tasks taken, and launches complete. -/
def State.passLaunches (s : State) : State :=
  let s1 := (s.queues.map (·.1)).foldl (fun (s : State) q => (s.distribute q).drainNode q) s
  let s2 := ((s1.place 0).place 1).passTasks
  (s2.launches.map (·.1)).foldl (fun (s : State) l => s.endLaunch l) s2

/-- The device goes on without its crews' issue slots. -/
def State.pass (s : State) : State := (s.passAccess.passEnds.passLaunches).latchSnapshot.endHash.endVerify.endWipe.endTlbinv.endCreate

/-- Time goes on by a step (R234, log entry 5). -/
def State.tick (s : State) : State := { s with clk := s.clk + 1 + Config.extraClk s.clk }

/-- Whether a crew has an instruction to issue: its die is released (R483), it may issue and has a path that runs. -/
def State.readyCrew (s : State) (id : Nat) : Option Crew :=
  match s.viewCrew id with
  | none => none
  | some c => if s.rot.released && s.canIssue c && c.running.isSome then some c else none

/-- An undefined word takes the illegal-instruction trap (R46); past a speculative fence the crew waits (R202). -/
def State.undefinedWord (s : State) (id : Nat) (c : Crew) (len : Nat) : State :=
  if c.fence.isSome then s
  else (({ s with opSeq := s.opSeq + 1 } : State).trapSlot id).raiseTrap id len Trap.illInsn

/-! The issue slot of a partition (R432). -/

/-- Whether a party of a partition comes before another: the one that issued last, then the one that has waited longest since it
issued or entered the active set, then the lower active entry; a helper group holds none. -/
def turnFirst (last : Option Nat) (a b : Nat × Crew) : Bool :=
  if some a.1 == last || some b.1 == last then some a.1 == last
  else if a.2.issuedAt ≠ b.2.issuedAt then decide (a.2.issuedAt < b.2.issuedAt)
  else if a.2.isHelper || b.2.isHelper then b.2.isHelper && !a.2.isHelper
  else decide (a.2.slotNo < b.2.slotNo)

/-- Puts a party in its place among some. -/
def insertTurn (last : Option Nat) (e : Nat × Crew) (es : List (Nat × Crew)) : List (Nat × Crew) :=
  match es with
  | [] => [e]
  | x :: r => if turnFirst last e x then e :: x :: r else x :: insertTurn last e r

/-- The key of a crew's partition. -/
def Crew.partKey (c : Crew) : Nat := 8 * c.core + c.crewid / 32

/-- The parties of a crew's partition in the order in which it chooses one that is ready; a surveyor has its own slot. -/
def State.turnOrder (s : State) (id : Nat) : List Nat :=
  match mget s.crews id with
  | none => [id]
  | some c =>
    if c.surv then [id]
    else
      let on := s.crews.filter (fun e => e.2.active && !e.2.surv && !e.2.evicted && e.2.partKey == c.partKey)
      (on.foldl (fun es e => insertTurn (mget s.lastIssue c.partKey) e es) []).map (·.1)

/-- Whether a party waits before its instruction, which has not issued: for bytes of it or of its target that a peer or the host
reads (R22, R413), for room in a chain or a deque (R171, R380), or at a load (R433). -/
def State.beforeIssue (s : State) (id : Nat) (c : Crew) : Bool :=
  s.peerReqs.any (fun q => q.crew == fetchWho id) || s.hostReqs.any (fun q => q.crew == fetchWho id) || c.loadHeld.isSome ||
  (match c.waitOp with | some (.chain _) => true | some .spawn => true | _ => false)

/-- Whether a party has issued an instruction since a state. -/
def State.hasIssued (t s : State) (id : Nat) : Bool :=
  t.opSeq != s.opSeq && !(((mget t.crews id).map (t.beforeIssue id)).getD false)

/-- Records that a party has issued. -/
def State.noteIssue (s : State) (id : Nat) : State :=
  match mget s.crews id with
  | none => s
  | some c =>
    let s1 := s.modCrew id (fun d => { d with issuedAt := s.clk })
    if c.surv then s1 else { s1 with lastIssue := mput s1.lastIssue c.partKey id }

/-- A crew holds the word that it executes (R339). -/
def State.heldWord (s : State) (id : Nat) (bs : List Byte) : State := s.modCrew id (fun c => { c with iword := BitVec.ofNat 64 (leNat bs) })

noncomputable section

/-- A crew's turn: fetch, decode, execute (R22, R46). -/
def State.turn (s : State) (id : Nat) : Out :=
  match s.readyCrew id with
  | none => .next { s with focus := id }
  | some c =>
    match State.fetch { s with focus := id } id c with
    | .out t => .next t
    | .word t bs =>
      match decode c.isHelper bs with
      | .ok (i, _) => exec i (t.heldWord id bs)
      | .error _ => .next (t.undefinedWord id c bs.length)

/-- The first of some parties that issues does so; the flag says whether one has (R432). -/
def State.tryTurns (s : State) (ids : List Nat) : Out × Bool :=
  match ids with
  | [] => (.next s, false)
  | id :: r =>
    match s.turn id with
    | .next t => if t.hasIssued s id then (.next (t.noteIssue id), true) else t.tryTurns r
    | o => (o, true)

/-- A command's datagram as the instruction that performs it (R471); a code that R471 does not list is none of its commands. -/
def CmdOp.instr (c : CmdOp) (h : CmdHdr) : Instr :=
  let op := fun (i : Nat) => c.ops.getD i 0
  let dw := fun (i : Nat) => BitVec.ofNat 64 (op i)
  match c.code with
  | 0x01 => .ctxcreate h ((List.range 16).map dw)
  | 0x02 => .ctxdestroy h (op 0)
  | 0x03 => .bindq h (op 0) (op 1) (dw 2) (op 3 != 0)
  | 0x04 => .unbindq h (op 0)
  | 0x05 => .halt h (op 0)
  | 0x06 => .release h (op 0)
  | 0x07 => .faultclr h (op 0)
  | 0x08 => .resume h (op 0)
  | 0x09 => .tlbinv h (op 0) (dw 1) (dw 2)
  | 0x0A => .ownkey h (op 0)
  | 0x0B => .thawforce h (op 0) (op 1)
  | 0x0C => .snaptrig h
  | 0x0D => .powerlim h (op 0)
  | 0x0E => .memrd h (op 0) (op 1) (op 2)
  | 0x0F => .memwr h (op 0) (op 1) c.str
  | 0x10 => .ctlrd h (op 0) (op 1) (op 2)
  | 0x11 => .ctlwr h (op 0) (op 1) c.str
  | 0x12 => .hostwin h (op 0) (op 1) (op 2)
  | 0x13 => .podjoin h (op 0) (op 1)
  | 0x14 => .linkkey h (op 0) c.str
  | 0x15 => .epset h (op 0) c.str
  | 0x16 => .report h (op 0)
  | 0x17 => .dbgunlock h c.str
  | 0x18 => .lcadvance h c.str
  | c => .unassignedCommand h c

/-- The next step: the agenda's first turn; with none, the turn of the focus crew's partition, or, where it issues nothing, a
pass of the rest of the device. -/
def State.advance (s : State) : Out :=
  match s.agenda with
  | .act i :: r => exec i { s with agenda := r }
  | .queued h op :: r => exec (op.instr h) { s with agenda := r, admitted := true }
  | .ecc e :: r => .next (State.eccError { s with agenda := r } e)
  | .forced :: r => .next (State.forcedOut { s with agenda := r })
  | .crew id :: r => (State.tryTurns { s with agenda := r } (s.turnOrder id)).1
  | [] =>
    match s.tryTurns (s.turnOrder s.focus) with
    | (.next t, false) => .next t.pass
    | (o, _) => o

end

/-! Placing a word where the next step fetches (log entry 2). -/

/-- The context that stands for a program's, where the device has none: number 0, with room for its stop area. -/
def hostCtx : Ctx :=
  { ident := 0, desc := (List.range 16).map (fun i => if i = 2 then BitVec.ofNat 64 (2 ^ 48) else if i = 4 then 1 else 0),
    halted := false, cause := Cause.none, haltseq := 0, recorded := false, yieldReq := false, own := Cause.none,
    evicted := false, groups := [], window := none, collClus := [], stopImage := [] }

/-- The crew that stands for a program's, where the device has none to run: slot 0 of core 0 of context 0, as R370 starts a
crew of 32 lanes with 256 registers at address 0x10000. -/
def hostCrew : Crew :=
  { core := 0, crewid := 0, ctx := 0, w := 32, nregs := 256, surv := false, entry := 0x10000, launched := allLanes 32,
    exited := 0, regs := [], preds := [], ix := [], latches := [], oc := [], xdist := 1, xsel := 0, fpctl := 0, fpflags := 0,
    hcount := 0, origin := 0, teamid := 0, teampos := 0, grid := (1, 1, 1), team := 0, dre := false, yreq := false,
    frames := [], paths := [newPath 0x10000 (allLanes 32) 0 true], lc := (0, 0, 0), cnts := [], cnts2 := [], sq := [], loads := [],
    pends := [], unacked := [], rwOps := [], hold := none, fence := none, wait := none, out := 0, parent := none,
    recruit := none, hgroup := none, active := true, slotNo := 0, issuedAt := 0, readyAt := 0, loadSet := false, loadSlots := 0, loadHeld := none,
    evicted := false, kept := false, done := false, cause := Cause.none, frec := none, helperFault := none, accReads := [],
    fbuf := [] }

/-- The crew that runs the placed word: the focus, or a fresh one. -/
def State.hostFocus (s : State) : State :=
  match s.readyCrew s.focus with
  | some _ => s
  | none =>
    { s with focus := 0, crews := mput s.crews 0 hostCrew,
             ctxs := if (mget s.ctxs 0).isNone then mput s.ctxs 0 hostCtx
                     else mmod s.ctxs 0 (fun x => { x with halted := false, cause := Cause.none }) }

/-- A page as the crew's TLB holds it: readable, writable, executable local memory of owner 0, at the place of the same
number. -/
def State.hostPage (s : State) (c : Crew) (va : Dword) : State :=
  let asn := ((mget s.ctxs c.ctx).map (·.asn)).getD 0
  let page := va.toNat >>> 16
  let t : TlbEntry := { asn := asn, page := page, bits := 16, leaf := BitVec.ofNat 64 (page % 2 ^ 27 * 2 ^ 16 + 0x1F) }
  { s with tlbs := mput s.tlbs (c.unit) (t :: mgetD s.tlbs c.unit []) }

/-- Stores eight bytes where a crew fetches next. -/
def State.placeWord (s : State) (c : Crew) (bs : List Byte) : State :=
  let s1 := (s.hostPage c (c.pc + 7)).hostPage c c.pc
  let at_ := fun (i : Nat) =>
    let va := c.pc + BitVec.ofNat 64 i
    va.toNat % 2 ^ 43
  let cells : List Host.Cell := bs.zipIdx.map (fun b => (at_ b.2, b.1))
  { (s1.homeWrite 0 cells false) with agenda := [.crew s.focus], lastIssue := mput s.lastIssue c.partKey s.focus }

/-- The focus crew, with nothing of an earlier fetch held, at the word placed. -/
def State.withWord (s : State) (bs : List Byte) : State :=
  let s1 := s.hostFocus
  let s2 := s1.modCrew s1.focus (fun c => { c with fbuf := [] })
  match s2.viewCrew s2.focus with
  | some c => s2.placeWord c bs
  | none => s2

end Sys2Proof.Machine
end

