-- ==== Sys2Proof/Machine/Step.lean ====
section
/-!
DEFINITION. One step of the device, and the placing of a word where the next step fetches. Both are noncomputable because
Lean's code generator does not build a type of more than 244 constructors; its kernel evaluates them.
-/

namespace Sys2Proof.Machine

noncomputable section

/-- One step (log entry 1): time goes on, and the agenda's first turn is taken. -/
def step (s : State) : Host.Outcome State Fault Refusal := s.tick.advance

end

/-- The state in which the very next step fetches and runs the word given, of nbits bits, at its next instruction's place
(log entry 2). -/
def State.withFetchWord (s : State) (nbits w : Nat) : State := s.withWord (leBytes 8 (w % 2 ^ nbits))

end Sys2Proof.Machine
end

