-- ==== Sys2Proof/Safety.lean ====
section
/-!
DEFINITION. What a safe step and a safe state are, and the terms in which claims speak of an instruction: the context in
which a crew executes it, and the ways in which instructions of one shape complete.
-/

namespace Sys2Proof

/-- A step that ends in a next state: no fault and no refusal. -/
def Safe (o : Machine.Out) : Prop := ∃ t, o = .next t

/-- The state's invariant: main memory is in its canonical form (log entry 3). -/
def Machine.State.Inv (s : Machine.State) : Prop := s.mem.wf = true

namespace Machine

/-- The context in which the focus crew executes an instruction of len bytes with primary opcode opc and guard g; none where
it does not execute it now: its context is halted or it waits (R155, R447), an order of R198 or R202 holds it, it is outside
a full load set (R433), its role does not execute the opcode (R46), the guard is illegal (R24) or still owed (R26). -/
def State.issueCx (s : State) (opc len : Nat) (g : Guard) : Option Cx :=
  match s.viewCrew s.focus with
  | none => none
  | some c =>
    match c.running, s.loadSetCrew opc c with
    | some p, some c1 =>
      if s.canIssue c && !c.fenceHolds opc && !c.holdHolds opc && c1.agePaths.roleOk opc && g.ok && !c1.agePaths.guardOwed g then
        some { s := { s with opSeq := s.opSeq + 1 }, id := s.focus, c := c1.agePaths, p := p, len := len,
               act := c1.agePaths.guardLanes g p.mask, op := s.opSeq }
      else none
    | _, _ => none

/-- The value that words hold in a lane, the first word lowest (R52). -/
def wordsAt (shs : List Shape) (l : Nat) : Nat := shs.foldr (fun sh v => (sh.at l).toNat + 2 ^ 32 * v) 0

/-- A register result is U (R212). -/
def Shape.IsU (sh : Shape) : Prop := ∃ w, sh = .u w

/-- What an L3 instruction names: its opcode and length, its guard, whether its modifiers are legal, its destination of k
registers, its operand-cache field, the latch of its pipe and its sources. -/
structure RegForm where
  opc   : Nat
  len   : Nat
  g     : Guard
  legal : Bool
  dst   : Desig
  k     : Nat
  ocw   : BitVec 4
  latch : Nat
  srcs  : List Src

/-- The words of a result: as many as the destination has registers, val in each lane of the crew, and U where every source
is delivered U (R214). -/
def RegForm.Result (m : RegForm) (x : Cx) (r : List (List Opd)) (val : Nat → Nat) (shs : List Shape) : Prop :=
  shs.length = m.k ∧ (∀ l < x.c.w, wordsAt shs l = val l % 2 ^ (32 * m.k)) ∧
  (r.flatten.all (·.isU) = true → ∀ sh ∈ shs, sh.IsU)

/-- A word's value in each acting lane of the crew. -/
def Cx.OnLanes (x : Cx) (sh : Shape) (v : Nat → Word) : Prop := ∀ l < x.c.w, x.act.getLsbD l = true → sh.at l = v l

/-- A register instruction executes: where its modifiers are legal, its destination exists and its sources can be read, the
next state is the one in which its result has been written to the destination, the operand cache and the latch (R219, R246)
and the path goes on at the next instruction. -/
def RegForm.Completes (m : RegForm) (i : Instr) (val : Cx → List (List Opd) → Nat → Nat) : Prop :=
  ∀ s x r, s.issueCx m.opc m.len m.g = some x → m.legal = true → dstCheck x.c m.dst m.k true = .ok () →
    x.fetch m.srcs = .ok r →
    ∃ shs, exec i s = .next ((x.writeResult m.dst m.ocw (some m.latch) m.srcs shs).finish x) ∧
      m.Result x r (val x r) shs

/-- The flags that the acting lanes of an instruction raise (R273). -/
def Cx.raised (x : Cx) (fl : Nat → Fl) : Fl := (laneList x.act).foldl (fun m l => m ||| fl l) 0

/-- The flags of FPCTL that trap, among those an instruction can trap on (R274). -/
def Cx.enabled (x : Cx) (can : Fl) : Fl := (x.c.fpctl >>> 8).setWidth 5 &&& can

/-- A floating-point register instruction executes: as RegForm.Completes where no enabled flag is raised; it also ORs the
flags it raises into FPFLAGS. -/
def RegForm.FpCompletes (m : RegForm) (i : Instr) (can : Fl) (val : Cx → List (List Opd) → Nat → Nat × Fl) : Prop :=
  ∀ s x r, s.issueCx m.opc m.len m.g = some x → m.legal = true → dstCheck x.c m.dst m.k true = .ok () →
    x.fetch m.srcs = .ok r → x.raised (fun l => (val x r l).2) &&& x.enabled can = 0 →
    ∃ shs, exec i s = .next (({ x.writeResult m.dst m.ocw (some m.latch) m.srcs shs with
        c := (x.writeResult m.dst m.ocw (some m.latch) m.srcs shs).c.orFlags (x.raised (fun l => (val x r l).2)) }).finish x) ∧
      m.Result x r (fun l => (val x r l).1) shs

/-- A long-latency floating-point instruction executes (R26, R273): its result is pending under its window of win
instructions, its flags are in FPFLAGS at once. -/
def RegForm.FpPends (m : RegForm) (i : Instr) (win : Nat) (can : Fl) (val : Cx → List (List Opd) → Nat → Nat × Fl) : Prop :=
  ∀ s x r, s.issueCx m.opc m.len m.g = some x → m.legal = true → dstCheck x.c m.dst m.k true = .ok () →
    x.fetch m.srcs = .ok r → x.raised (fun l => (val x r l).2) &&& x.enabled can = 0 →
    ∃ shs, exec i s = .next ((x.pendResult m.dst m.ocw (some m.latch) m.srcs shs win (x.raised (fun l => (val x r l).2))).finish x) ∧
      m.Result x r (fun l => (val x r l).1) shs

/-- The form of an L3 instruction of two sources, source B an immediate where imm is one. -/
def L3Form (opc len latch : Nat) (legal : Bool) (f : L3) (k ka kb : Nat) (imm : Option Word) : RegForm :=
  { opc := opc, len := len, g := f.g, legal := legal, dst := f.dst, k := k, ocw := f.ocw, latch := latch,
    srcs := srcsAB f ka kb imm }

/-- The form of an L3 instruction of one source. -/
def L3Form1 (opc len latch : Nat) (legal : Bool) (f : L3) (k ka : Nat) : RegForm :=
  { opc := opc, len := len, g := f.g, legal := legal, dst := f.dst, k := k, ocw := f.ocw, latch := latch,
    srcs := [{ f.srcA with k := ka }] }

/-- The form of an L3 instruction of three sources (R32), of which SC must name one, its destination where it is a pair. -/
def L3Form3 (opc len latch : Nat) (legal : Bool) (f : L3) (k kab kc : Nat) : RegForm :=
  { opc := opc, len := len, g := f.g, dst := f.dst, k := k, ocw := f.ocw, latch := latch,
    legal := legal && f.srcC.isSome && (kc == 1 || f.mod6.toNat / 4 == 0),
    srcs := [{ f.srcA with k := kab }, { f.srcB with k := kab }] ++ (match f.srcC with | some c => [{ c with k := kc }] | none => []) }

/-- A two-source integer instruction of type TY (R243): fn on the width, signedness, SAT and the two operand values. -/
def Int2 (i : Instr) (opc len : Nat) (f : L3) (imm : Option Word) (fn : Nat → Bool → Bool → Nat → Nat → Nat) : Prop :=
  (L3Form opc len 0 (intLegal opc f.mod6) f (tyWide f.mod6 / 32) (tyWide f.mod6 / 32) (tyWide f.mod6 / 32) imm).Completes i
    (fun _ r l => fn (tyWide f.mod6) (tySigned f.mod6) (tySat f.mod6) (laneVal (ab r imm).1 (tyWide f.mod6) l)
      (laneVal (ab r imm).2 (tyWide f.mod6) l))

/-- A shift (R259): B is one register. -/
def Shift2 (i : Instr) (opc len : Nat) (f : L3) (imm : Option Word) (fn : Nat → Nat → Nat → Nat) : Prop :=
  (L3Form opc len 0 (intLegal opc f.mod6) f (tyWide f.mod6 / 32) (tyWide f.mod6 / 32) 1 imm).Completes i
    (fun _ r l => fn (tyWide f.mod6) (laneVal (ab r imm).1 (tyWide f.mod6) l) (laneVal (ab r imm).2 32 l))

/-- A one-source integer instruction; its result is one register where one is true (R261). -/
def Int1 (i : Instr) (opc len : Nat) (f : L3) (one : Bool) (fn : Nat → Bool → Nat → Nat) : Prop :=
  (L3Form1 opc len 0 (intLegal opc f.mod6) f (if one then 1 else tyWide f.mod6 / 32) (tyWide f.mod6 / 32)).Completes i
    (fun _ r l => fn (tyWide f.mod6) (tySat f.mod6) (laneVal (nthRun r 0) (tyWide f.mod6) l))

/-- A three-source integer instruction of one register each. -/
def Int3 (i : Instr) (opc len : Nat) (f : L3) (fn : Nat → Nat → Nat → Nat) : Prop :=
  (L3Form3 opc len 0 (intLegal opc f.mod6) f 1 1 1).Completes i
    (fun _ r l => fn (laneVal (nthRun r 0) 32 l) (laneVal (nthRun r 1) 32 l) (laneVal (nthRun r 2) 32 l))

/-- A two-source integer instruction on ka and kb registers with a result of k. -/
def IntAB (i : Instr) (opc len : Nat) (f : L3) (k ka kb : Nat) (fn : List Nat → Nat → Nat) : Prop :=
  (L3Form opc len 0 (intLegal opc f.mod6) f k ka kb none).Completes i
    (fun _ r l => fn ((nthRun r 0).map (fun o => (o.at l).toNat)) (laneVal (nthRun r 1) 32 l))

/-- A two-source floating-point instruction of the types of R268, element by element (R276). -/
def Fp2 (i : Instr) (opc len : Nat) (f : L3) (op : Fmt → Nat → Nat → Nat → Nat × Fl) : Prop :=
  (L3Form opc len 1 (floatLegal opc f.mod6 f.sb) f (fk f) (fk f) (fk f) none).FpCompletes i canAll (fun x r l =>
    (ftOf (f.mod6.toNat % 8)).map2 (op (ftOf (f.mod6.toNat % 8)).fmt (rmOf x.c (f.mod6.toNat / 8)))
      (laneVal (nthRun r 0) (32 * fk f) l) (laneVal (nthRun r 1) (32 * fk f) l))

/-- The value of a one-source floating-point instruction, element by element. -/
def fp1Val (f : L3) (op : Fmt → Nat → Nat → Nat × Fl) (x : Cx) (r : List (List Opd)) (l : Nat) : Nat × Fl :=
  (ftOf (f.mod6.toNat % 8)).map2 (fun a _ => op (ftOf (f.mod6.toNat % 8)).fmt (rmOf x.c (f.mod6.toNat / 8)) a)
    (laneVal (nthRun r 0) (32 * fk f) l) 0

/-- A one-source floating-point instruction with a result of k registers. -/
def Fp1 (i : Instr) (opc len : Nat) (f : L3) (k : Nat) (op : Fmt → Nat → Nat → Nat × Fl) : Prop :=
  (L3Form1 opc len 1 (floatLegal opc f.mod6 f.sb) f k (fk f)).FpCompletes i canAll (fp1Val f op)

/-- A special function (R285 to R287): its result is pending under its window, and only NV and DZ can trap. -/
def FpFun (i : Instr) (opc len : Nat) (f : L3) (k : Nat) (op : Fmt → Nat → Nat → Nat × Fl) : Prop :=
  (L3Form1 opc len 2 (floatLegal opc f.mod6 f.sb) f k (fk f)).FpPends i f.la.toNat canNvDz (fp1Val f op)

/-- FSCALE (R276): the scale is one register, or an immediate. -/
def FpScale (i : Instr) (len : Nat) (f : L3) (imm : Option Word) : Prop :=
  (L3Form 0x41 len 1 (floatLegal 0x41 f.mod6 f.sb) f (fk f) (fk f) 1 imm).FpCompletes i canAll (fun x r l =>
    (ftOf (f.mod6.toNat % 8)).fmt.scaleC (rmOf x.c (f.mod6.toNat / 8))
      ((ftOf (f.mod6.toNat % 8)).el (laneVal (ab r imm).1 (32 * fk f) l) 0) (signed 32 (laneVal (ab r imm).2 32 l)))

/-- F2I (R284): the integer of the type MOD6 names, by the mode MOD6 names. -/
def FpToInt (i : Instr) (len : Nat) (f : L3) : Prop :=
  (L3Form1 0x3F len 1 (floatLegal 0x3F f.mod6 f.sb) f (if f.mod6.toNat / 4 % 4 < 2 then 1 else 2)
    (ftOf (f.mod6.toNat % 4)).k).FpCompletes i canAll (fun _ r l =>
      (ftOf (f.mod6.toNat % 4)).fmt.toIntC (f.mod6.toNat / 16) (if f.mod6.toNat / 4 % 4 < 2 then 32 else 64)
        (f.mod6.toNat / 4 % 4 % 2 == 0)
        ((ftOf (f.mod6.toNat % 4)).el (laneVal (nthRun r 0) (ftOf (f.mod6.toNat % 4)).w l) 0))

/-- I2F (R284). -/
def FpOfInt (i : Instr) (len : Nat) (f : L3) : Prop :=
  (L3Form1 0x40 len 1 (floatLegal 0x40 f.mod6 f.sb) f (ftOf (f.mod6.toNat % 4)).k
    (if f.mod6.toNat / 4 % 4 < 2 then 1 else 2)).FpCompletes i canAll (fun _ r l =>
      (ftOf (f.mod6.toNat % 4)).fmt.ofIntC (f.mod6.toNat / 16)
        (intOf (if f.mod6.toNat / 4 % 4 < 2 then 32 else 64) (f.mod6.toNat / 4 % 4 % 2 == 0)
          (laneVal (nthRun r 0) (if f.mod6.toNat / 4 % 4 < 2 then 32 else 64) l)))

/-- The registers of a format. -/
def fmtRegs (t : Fmt) : Nat := if t = f64 then 2 else 1

/-- FCVT (R282, R283): from the source format to the destination format, saturating in the second form; the third and
fourth pack two values rounded to f16 or bf16. -/
def FpConvert (i : Instr) (len : Nat) (f : L3) : Prop :=
  (f.mod6.toNat % 8 < 2 →
    (L3Form1 0x3E len 1 (floatLegal 0x3E f.mod6 f.sb) f (fmtRegs (cvtFmt (f.sb.toNat / 8 % 8)))
      (fmtRegs (cvtFmt (f.sb.toNat % 8)))).FpCompletes i canAll (fun x r l =>
        fcvtVal (cvtFmt (f.sb.toNat % 8)) (cvtFmt (f.sb.toNat / 8 % 8)) (rmOf x.c (f.mod6.toNat / 8)) (f.mod6.toNat % 8 == 1)
          (laneVal (nthRun r 0) (32 * fmtRegs (cvtFmt (f.sb.toNat % 8))) l % 2 ^ (cvtFmt (f.sb.toNat % 8)).w))) ∧
  (2 ≤ f.mod6.toNat % 8 →
    (L3Form 0x3E len 1 (floatLegal 0x3E f.mod6 f.sb) f 1 1 1 none).FpCompletes i canAll (fun x r l =>
      let t := if f.mod6.toNat % 8 = 2 then f16 else bf16
      let p := f32.cvtC t (rmOf x.c (f.mod6.toNat / 8)) false (laneVal (nthRun r 0) 32 l)
      let q := f32.cvtC t (rmOf x.c (f.mod6.toNat / 8)) false (laneVal (nthRun r 1) 32 l)
      (p.1 + q.1 * 2 ^ 16, p.2 ||| q.2)))

/-- MOV and MOVX (R232): k words with the shapes they are delivered with. -/
def Moves (i : Instr) (opc len : Nat) (f : L3) (k : Nat) : Prop :=
  ∀ s x r, s.issueCx opc len f.g = some x → dstCheck x.c f.dst k true = .ok () → x.fetch [f.srcN k] = .ok r →
    exec i s = .next ((x.writeResult f.dst f.ocw (some 3) [f.srcN k] ((nthRun r 0).map (·.sh))).finish x)

/-- The old destination as MOVI.hi reads it. -/
def movHiSrc (dst : Desig) : Src := { d := dst, xc := 0, dead := false, k := 1, fld := 0, upper := false, zero := true }

/-- MOVI.hi (R233): the low 13 bits of hi in bits 31 to 19, the old low 19 bits below. -/
def MovesHigh (i : Instr) (len : Nat) (g : Guard) (dst : Desig) (hi : Nat) : Prop :=
  ∀ s x r, s.issueCx 0x71 len g = some x → dstCheck x.c dst 1 true = .ok () → x.fetch [movHiSrc dst] = .ok r →
    ∃ sh, x.OnLanes sh (fun l => BitVec.ofNat 32 (hi % 2 ^ 13 * 2 ^ 19) ||| ((nthOpd r 0).at l &&& 0x7FFFF)) ∧
      exec i s = .next ((x.writeResult dst 0 (some 3) [] [sh]).finish x)

/-- SHFL (R296): segments of s lanes; a lane receives the element of the lane its distance names. -/
def Shuffles (i : Instr) (len : Nat) (f : L3) : Prop :=
  ∀ s x r, s.issueCx 0x60 len f.g = some x → crossLegal 0x60 f.mod6 = true → shflSeg f.mod6.toNat x.c.w ≤ x.c.w →
    dstCheck x.c f.dst 1 true = .ok () → x.peek [f.srcA, f.srcB] = .ok r → x.deadCheck (x.emptyRead f.srcB) = .ok () →
    let m := f.mod6.toNat
    let g := shflSeg m x.c.w
    let from_ := fun l => shflLane (m % 4) g l (shflDist m g ((nthOpd r 1).at l).toNat)
    let has := fun l => x.c.live.getLsbD (xmap x.c f.xa.toNat (from_ l))
    x.deadCheck (x.emptyAt f.srcA ((x.lanes.filter has).map from_)) = .ok () →
    x.poisonCheck [nthOpd r 0, nthOpd r 1,
      { sh := (nthOpd r 0).sh, poison := lanesWhere x.c.w (fun l => has l && (nthOpd r 0).poison.getLsbD (from_ l)) }] = .ok () →
    ∃ sh, x.OnLanes sh (fun l => if has l then (nthOpd r 0).at (from_ l) else 0) ∧
      exec i s = .next ((x.lanesResult f [f.srcA, f.srcB] [sh]).finish x)

/-- REDC (R300, R301): the tree's result of R72 over the lanes that take part, U, a NaN canonical (R61, R294). -/
def Reduces (i : Instr) (len : Nat) (f : L3) : Prop :=
  ∀ s x r, s.issueCx 0x64 len f.g = some x → crossLegal 0x64 f.mod6 = true → dstCheck x.c f.dst (redcRegs f.mod6) true = .ok () →
    x.fetch [{ f.srcA with k := redcRegs f.mod6 }] = .ok r →
    ∃ shs : List Shape, shs.length = redcRegs f.mod6 ∧ (∀ sh ∈ shs, sh.IsU) ∧
      (∀ l, wordsAt shs l = treeOut (f.mod6.toNat % 8) (((redcTree (f.mod6.toNat % 8) (f.mod6.toNat / 8) 6 1
        (x.present (laneVal (nthRun r 0) (32 * redcRegs f.mod6)))).headD none).getD 0) % 2 ^ (32 * redcRegs f.mod6)) ∧
      exec i s = .next ((x.lanesResult f [{ f.srcA with k := redcRegs f.mod6 }] shs).finish x)

/-- SCAN (R300, R301): each lane that takes part has its inclusive prefix by the tree of R72. -/
def Scans (i : Instr) (len : Nat) (f : L3) : Prop :=
  ∀ s x r, s.issueCx 0x65 len f.g = some x → crossLegal 0x65 f.mod6 = true → dstCheck x.c f.dst (redcRegs f.mod6) true = .ok () →
    x.fetch [{ f.srcA with k := redcRegs f.mod6 }] = .ok r →
    ∃ shs : List Shape, shs.length = redcRegs f.mod6 ∧
      (∀ l < x.c.w, x.act.getLsbD l = true → wordsAt shs l = treeOut (f.mod6.toNat % 8) (((scanTree (f.mod6.toNat % 8) (f.mod6.toNat / 8) 6 1
        (x.present (laneVal (nthRun r 0) (32 * redcRegs f.mod6)))).getD l none).getD 0) % 2 ^ (32 * redcRegs f.mod6)) ∧
      exec i s = .next ((x.lanesResult f [{ f.srcA with k := redcRegs f.mod6 }] shs).finish x)

/-- The lanes that a load accesses (R134 to R136): every acting lane, or for LDC and a load whose base is delivered U into
direct registers the operand lane alone. -/
def loadLanes (opc : Nat) (f : LM) (x : Cx) (base : List Opd) : List Nat :=
  if opc == 0x82 || ((match place f.dst with | some (.reg _) => true | _ => false) && base.all (·.isU)) then
    (if x.act = 0 then [] else [x.lane])
  else laneList x.act

/-- LDG and LDC issue. -/
def LoadIssues (i : Instr) (opc : Nat) (f : LM) : Prop :=
  ∀ s x b t c, s.issueCx opc 8 f.g = some x → memLegal opc f = true → dstCheck x.c f.dst (wtRegs f.wt) true = .ok () →
    x.peek [f.srcBase] = .ok b → x.c.cnt cG < 63 →
    let base := nthRun b 0
    let lanes := loadLanes opc f x base
    let only : Cx := { x with act := lanes.foldl (fun m l => m ||| oneLane l) 0 }
    x.aligned (wtBytes f.wt) (lmAddr f base) = .ok () → x.deadReads [f.srcBase] = .ok () →
    x.translateAll x.s .load (wtBytes f.wt) (lanes.map (fun l => (l, lmAddr f base l))) = .ok t →
    only.poisonCheck base = .ok () → x.fenceLoad x.c (lanes.map (lmAddr f base)) t.2 = .ok c →
    (x.act = 0 → exec i s = .next ((Rsl.mk t.1 ((c.raise cG x.op).lower cG x.op) true).finish x)) ∧
    (x.act ≠ 0 → ∃ ld : LoadOp, ld.op = x.op ∧ ld.pc = x.p.pc ∧ ld.pol = f.pol.toNat ∧ ld.sign = f.wt.getLsbD 0 ∧
      ld.accs = t.2 ∧ ld.got = [] ∧ ld.vrest = none ∧
      let c1 := c.raise cG x.op
      let ds := ((List.range (wtRegs f.wt)).map (fun k => regDests c1 f.dst k x.act (.u (BitVec.ofNat 32 k)) 0)).flatten ++
        ocDests f.md x.act (.u 0) 0
      exec i s = .next ((Rsl.mk t.1
        { c1.pendDests x.op f.la.toNat false ds with loads := c.loads ++ [ld] } true).finish x))

/-- STG and STM issue: data the data registers, mask the byte mask of a lane (R139). -/
def StoreIssues (i : Instr) (opc : Nat) (f : LM) (data : Src) (mask : List Opd → Nat → Word) : Prop :=
  ∀ s x r t, s.issueCx opc 8 f.g = some x → memLegal opc f = true → x.peek [data, f.srcBase] = .ok r →
    x.c.cnt cS < 63 → x.c.sq.length < 64 → x.aligned (wtBytes f.wt) (lmAddr f (nthRun r 1)) = .ok () →
    x.deadReads [data, f.srcBase] = .ok () →
    x.translateAll x.s .store (wtBytes f.wt) ((laneList x.act).map (fun l => (l, lmAddr f (nthRun r 1) l))) = .ok t →
    x.poisonCheck r.flatten = .ok () →
    (x.act = 0 → exec i s = .next ((Rsl.mk t.1 ((x.c.raise cS x.op).lower cS x.op) true).finish x)) ∧
    (x.act ≠ 0 →
      let accs := t.2.map (fun a =>
        ({ a with bytes := (dataBytes ((nthRun r 0).take (wtRegs f.wt)) a.lane (wtBytes f.wt)).zipIdx.map (fun e =>
            if (mask (nthRun r 0) a.lane).getLsbD e.2 then some e.1 else none) } : LaneAcc))
      exec i s = .next ((Rsl.mk t.1
        ((x.c.raise cS x.op).enqueue x.op x.p.pc (.store f.pol.toNat) accs false 8) true).finish x))

/-- ATOM (ret true) and RED issue. -/
def AtomIssues (i : Instr) (ret : Bool) (f : LM) : Prop :=
  ∀ s x r t,
    let opc := if ret then 0x84 else 0x85
    let k := wtRegs f.wt
    let data := if ret then f.srcData (if f.md = 9 then 2 * k else k) false false else f.srcData k (k == 1) true
    let ctr := if ret then cA else cS
    s.issueCx opc 8 f.g = some x → memLegal opc f = true → x.peek [data, f.srcBase] = .ok r →
    x.c.cnt ctr < 63 → x.c.sq.length < 64 → x.aligned (wtBytes f.wt) (lmAddr f (nthRun r 1)) = .ok () →
    x.deadReads [data, f.srcBase] = .ok () →
    x.translateAll x.s .atomic (wtBytes f.wt) ((laneList x.act).map (fun l => (l, lmAddr f (nthRun r 1) l))) = .ok t →
    x.poisonCheck r.flatten = .ok () → x.act ≠ 0 →
    let accs := t.2.map (fun a =>
      ({ a with x := BitVec.ofNat 64 (leNat (dataBytes ((nthRun r 0).take k) a.lane (wtBytes f.wt))),
                y := BitVec.ofNat 64 (leNat (dataBytes ((nthRun r 0).drop k) a.lane (wtBytes f.wt))) } : LaneAcc))
    let c := (x.c.raise ctr x.op).enqueue x.op x.p.pc (.atom f.wt f.md ret) accs (f.pol.getLsbD 1) f.scp.toNat f.pol
    let d := if ret then c.pendDests x.op f.la.toNat false
        ((List.range k).map (fun n => regDests c f.dst n x.act (.u (BitVec.ofNat 32 n)) 0)).flatten else c
    (ret = true ∧ f.pol.getLsbD 0 = true →
      exec i s = .next ((Rsl.mk t.1 { d with hold := some { ops := [x.op], narrow := true,
                                                            inval := x.s.scopeWide x.c f.scp.toNat } } true).finish x)) ∧
    (¬(ret = true ∧ f.pol.getLsbD 0 = true) → exec i s = .next ((Rsl.mk t.1 d true).finish x))

/-- The state after an instruction that may end in a wait: what it waits for is looked at once where the wait is new, and a
crew that still waits is swapped for a ready one (R155, R431). -/
def State.awake (s t : State) (wake : State → Nat → State) : State :=
  if ((mget s.crews s.focus).bind (·.wait)).isNone && ((mget t.crews s.focus).bind (·.wait)).isSome then
    (wake t s.focus).swapOut s.focus
  else t

/-- BRX, CALLX and RET (R413) where every target is good. -/
def Jumps (i : Instr) (opc : Nat) (cls : Option (BitVec 4)) (link : Bool) (f : LE) : Prop :=
  ∀ s x r, s.issueCx opc 8 f.g = some x → (link = true → dstCheck x.c f.dst 2 false = .ok ()) →
    x.fetch [{ f.srcA 2 with zero := false }] = .ok r → x.act ≠ 0 →
    let t := x.sortTargets cls (fun l => pairAt (nthRun r 0) l)
    let c := x.c.emptySrcs [{ f.srcA 2 with zero := false }]
    t.ask = false → t.bad = 0 →
    exec i s = .next ((Rsl.mk t.s ((if link then x.link c f.dst x.act else c).goTo x.p
      (t.good ++ [(x.p.pc + BitVec.ofNat 64 x.len, x.p.mask &&& ~~~x.act)])) false).finish x)

/-- LOOP.lcN (R415): an outcome of counting down counter n. -/
def CountsDown (x : Cx) (n : Nat) (target : Dword) (o : Out) : Prop :=
  (x.act ≠ 0 → 1 < (x.c.loopCnt n).toNat →
    o = .next ((x.branch (x.c.setLoop n (x.c.loopCnt n - 1)) target x.act).finish x)) ∧
  (x.act ≠ 0 → (x.c.loopCnt n).toNat ≤ 1 → o = .next ((Rsl.mk x.s (x.c.setLoop n 0) true).finish x)) ∧
  (x.act = 0 → o = .next ((Rsl.mk x.s x.c true).finish x))

/-- The state after an EXIT: a free active entry is taken by a pending crew (R431). -/
def State.exitRefill (s t : State) : State :=
  match mget t.crews s.focus with
  | some c => if c.done then t.refill c.core (c.crewid / 32) 8 else t
  | none => t

/-- A crew that has entered its trap handler from the instruction of a context (R439, R440). -/
def TrapTaken (s : State) (x : Cx) (c : Crew) (cause : Word) (tm : Lanes) : Prop :=
  c.frames = x.c.frames ++ [{ pc := x.p.pc, rpc := x.p.pc + 8, cause := cause, tm := tm, lmask := 0, aux0 := 0, aux1 := 0,
                              len := 8 }] ∧
  c.running = some { pc := s.tentryOf x.c, mask := tm, age := 0, tok := 0, wait := false, frame := x.c.frames.length + 1,
                     run := true, spilled := false } ∧
  c.latches = [] ∧ c.oc = []

/-! Instructions that act in one lane. -/

/-- An instruction that acts in its operand lane (R101) has a lane to act in and reads its sources there. -/
def Cx.Reads (x : Cx) (srcs : List Src) (r : List (List Opd)) : Prop := x.act ≠ 0 ∧ x.once.fetch srcs = .ok r

/-- The state after an instruction that leaves the device at t and its crew at c, the path going on at the next
instruction. -/
def Cx.ends (x : Cx) (t : State) (c : Crew) : State := (Rsl.mk t c true).finish x

/-- RWB, RINV and RWI (R102 to R105) act on the lines of the issuer's L1, on all of them or on those of a range; where they
count, S falls when the home has performed the write-backs that they sent, and the crew's earlier stores to those lines have left its
queue (R192). -/
def RangeActs (i : Instr) (opc : Nat) (f : LE) (counts : Bool) (eff : State → Nat → (Line → Bool) → State) : Prop :=
  ∀ s x r t, s.issueCx opc 8 f.g = some x → (counts = true → x.c.cnt cS < 63) →
    let all := f.md.getLsbD 0
    let srcs := rangeSrcs f
    x.act ≠ 0 → (all = false → x.once.fetch srcs = .ok r) →
    (if all then t = (x.s, []) else x.parts x.s .range (pairAt (nthRun r 0) x.lane) ((nthOpd r 1).at x.lane).toNat = .ok t) →
    (counts = true → x.c.storesTo x.s.devnum (fun dev ln => all || t.1.placeIn (t.2.map (fun p => (p.tgt, p.n))) dev ln) = false) →
    let s1 := eff t.1 x.c.core (fun l => all || t.1.lineIn (t.2.map (fun p => (p.tgt, p.n))) l)
    let ids := (s1.net.filter (fun m => decide (t.1.opSeq ≤ m.id))).map (·.id)
    let c := x.c.emptySrcs srcs
    exec i s = .next (x.ends s1 (if counts then
      (if ids.isEmpty then (c.raise cS x.op).lower cS x.op else { c.raise cS x.op with rwOps := c.rwOps ++ [(x.op, ids)] }) else c))

/-- The store-queue entry of an engine submission or arrival (R141, R172), with the counter that it raises. -/
def Cx.queued (x : Cx) (srcs : List Src) (ctr : Nat) (kind : SqKind) (accs : List LaneAcc) (rel : Bool) (scope : Nat) : Crew :=
  ((x.c.emptySrcs srcs).raise ctr x.op).enqueue x.op x.p.pc kind accs rel scope

/-- A submission of a slot of a chain with room (R170 to R174): the slot is reserved, the queue entry stands, the slot's
number goes to the destination. -/
def Submits (i : Instr) (opc : Nat) (f : LE) (ctr : Nat) (srcs dead : List Src) (handle : Nat)
    (legal : Cx → List (List Opd) → Nat → Prop)
    (entry : Cx → List (List Opd) → Nat → Word → List LaneAcc → SqKind × List LaneAcc × Bool × Nat) : Prop :=
  ∀ s x r ch t, s.issueCx opc 8 f.g = some x → dstCheck x.c f.dst 1 true = .ok () → x.Reads srcs r →
    x.c.cnt ctr < 63 → x.c.sq.length < 64 →
    let h := ((nthOpd r handle).at x.lane).toNat
    legal x r h → x.s.chainOf x.c.ctx h = some ch → ch.full = false →
    x.translateAll x.s .store 64 [(x.lane, ch.slot ch.wptr)] = .ok t →
    let e := entry x r h ch.wptr t.2
    exec i s = .next (s.awake (x.ends (t.1.reserve x.id h ch)
      (x.writeWord (x.queued dead ctr e.1 e.2.1 e.2.2.1 e.2.2.2) f.dst ch.wptr)) State.tryChain)

/-- BBINIT and BBARR (R182, R183): the barrier's step is queued, counted in S. -/
def BarrierStores (i : Instr) (opc : Nat) (f : LE) (rel : Bool) (kind : Nat → SqKind) : Prop :=
  ∀ s x r t, s.issueCx opc 8 f.g = some x → (rel = true → orderScope f < 7) → x.Reads [f.srcA 2, f.srcB 1] r →
    x.c.cnt cS < 63 → x.c.sq.length < 64 → (pairAt (nthRun r 0) x.lane).toNat % 16 = 0 →
    x.translateAll x.s .atomic 16 [(x.lane, pairAt (nthRun r 0) x.lane)] = .ok t →
    exec i s = .next (x.ends t.1 (x.queued [f.srcA 2, f.srcB 1] cS (kind ((nthOpd r 1).at x.lane).toNat) t.2 rel
      (if rel then orderScope f else 8)))

/-- MMA, MMAS, MMAG and MMAX (R321, R324 to R328): where their operands, tile and queue allow it, the instruction stands in
its quadrant's queue with what it has read; MMAS reserves its metadata entries, MMAG sets GRPERR for an empty or reversed
group. -/
def QueuesMatrix (i : Instr) (opc : Nat) (f : LX) : Prop :=
  ∀ s x r q, s.issueCx opc 8 f.g = some x → textLegal opc f.text = true → tileDesig f.sa = true → tileDesig f.sb = true → x.act ≠ 0 →
    let gran := f.q.toNat
    let ds := [lxSrc f.sa 4 1, lxSrc f.sb 4 2]
    let sc0 := if scRegs opc gran = 0 then [] else [lxSrc f.sc (scRegs opc gran) 3]
    x.peek (ds ++ sc0) = .ok r →
    let g := wbits ((nthOpd r 2).at x.lane) 0 8
    (opc = 0xC2 → 1 ≤ g ∧ g ≤ 15) →
    x.fetch (ds ++ (if opc = 0xC2 then [lxSrc f.sc (g + 2) 3] else sc0)) = .ok q →
    let da := tileDesc (nthRun r 0) x.lane
    let db := tileDesc (nthRun r 1) x.lane
    let k := x.s.clus x.c.clus
    (mget k.tiles f.tile.toNat).isSome = true → da.ok = true → db.ok = true → da.klen = db.klen →
    klenOk opc f.text.toNat gran da.klen = true →
    let sc := (nthRun q 2).map (fun o => o.at x.lane)
    let bad := opc == 0xC2 && (mmagBad sc da.rows).isSome
    (bad = true → k.mstat &&& stGRPEN = 0) → k.room (f.tile.toNat / 8) = true →
    let start := mgetD k.mqResv gran 0
    (opc = 0xC1 → start < mgetD k.mqIn gran 0) →
    let o : QOp := { id := x.op, pc := x.p.pc, ins := i, raw := x.c.iword, tile := f.tile.toNat, da := da, db := db, sc := sc, task := k.task,
                     resv := start, block := 0, group := 0, nans := [] }
    exec i s = .next (x.ends (x.s.setClus x.c.clus { k.push o with
      mqResv := if opc = 0xC1 then mput k.mqResv gran (start + da.klen / 4) else k.mqResv
      mstat := if bad then k.mstat ||| stGRPERR else k.mstat }) x.c)

/-- The state in which a TDONE leaves the device and its crew (R332, R333): the next ready task, the root stream, or a wait
for dispatch. -/
def Cx.dispatches (x : Cx) (t : State) (c : Crew) : State :=
  match t.dispatch c with
  | some r => (Rsl.mk r.1 r.2 false).finish x
  | none => (Rsl.mk t (c.waitAt (x.waitFor 10 0 0 0 0x110 8 .dispatch)) false).finish x

/-- A message's event at its home (R96, R100, R104, R144): where it is its turn and the home can be reached, what it asks is
performed and acknowledged, or it is held with its fault. -/
def Delivers (ev : Nat → Instr) (mine : MsgKind → Bool) (act : State → Msg → Except Nat State) : Prop :=
  ∀ s n m, s.net[n]? = some m → mine m.kind = true → m.held = none → s.msgBehind n m = false →
    (s.reach (m.core / 128) (128 * m.ln) = true →
      (∀ t, act s m = .ok t → exec (ev n) s = .next (t.ackMsg m)) ∧
      (∀ xlc, act s m = .error xlc → exec (ev n) s = .next (s.refuseMsg m (m.failRec xlc)))) ∧
    (s.reach (m.core / 128) (128 * m.ln) = false → exec (ev n) s = .next (s.refuseMsg m (m.failRec 17)))

/-- The management core takes a command, at the state t: its port accepts the datagram, no TLBINV or CTXCREATE is under way, and its
identity has the session b (R466, R470). -/
def State.Takes (s : State) (h : CmdHdr) (t : State) (b : Session) : Prop :=
  s.received h = some t ∧ t.tlbWait = none ∧ t.ctxWait = none ∧ mget t.sessions h.ident = some b

/-- A command's effect with its response and its log entry (R469, R470, R478). -/
def Answers (i : Instr) (s : State) (h : CmdHdr) (code : Nat) (b : Session) (r : Answer) : Prop :=
  exec i s = .next (State.answered h code b.slot r)

/-- An SPDM request that finds RXBUF free and the boot done (R482, R483, R487): it comes in, the connection goes on by go, and the response leaves. -/
def Exchanges (i : Instr) (code conn : Nat) (s : State) (go : State → State) : Prop :=
  s.rot.silent = false →
    exec i s = .next ((go (State.receive { s with free := s.free + 1 } ((Config.spdmRequest code conn s.free).take 0x400))).respond conn
      ((Config.spdmBytes code conn Config.algorithms s.rot.certChain s.rot.aliasSeed s.free).take 0x400))

end Machine

/-! What one issue slot of each instruction is, and what it touches. -/

/-- An instruction's issue slot: its primary opcode, its length in bytes, its guard (none stands for a form that has none, or
whose guard is judged later), and whether its modifiers are legal (R38, R46, R245; true where no table of them applies). -/
structure Slot where
  opc   : Nat
  len   : Nat
  g     : Guard
  legal : Bool

/-- The issue slot of each instruction; the steps of the other agents have none. -/
def Instr.slot (i : Instr) : Option Slot :=
  open Machine in
  match i with
  | .iadd f => some ⟨0x00, 8, f.g, intLegal 0x00 f.mod6⟩
  | .isub f => some ⟨0x01, 8, f.g, intLegal 0x01 f.mod6⟩
  | .iaddc f => some ⟨0x02, 8, f.g, intLegal 0x02 f.mod6⟩
  | .isubb f => some ⟨0x03, 8, f.g, intLegal 0x03 f.mod6⟩
  | .imul f => some ⟨0x04, 8, f.g, intLegal 0x04 f.mod6⟩
  | .imulh f => some ⟨0x05, 8, f.g, intLegal 0x05 f.mod6⟩
  | .imad f => some ⟨0x06, 8, f.g, intLegal 0x06 f.mod6⟩
  | .idiv f => some ⟨0x07, 8, f.g, intLegal 0x07 f.mod6⟩
  | .irem f => some ⟨0x08, 8, f.g, intLegal 0x08 f.mod6⟩
  | .ineg f => some ⟨0x09, 8, f.g, intLegal 0x09 f.mod6⟩
  | .iabs f => some ⟨0x0A, 8, f.g, intLegal 0x0A f.mod6⟩
  | .imin f => some ⟨0x0B, 8, f.g, intLegal 0x0B f.mod6⟩
  | .imax f => some ⟨0x0C, 8, f.g, intLegal 0x0C f.mod6⟩
  | .and f => some ⟨0x0D, 8, f.g, intLegal 0x0D f.mod6⟩
  | .or f => some ⟨0x0E, 8, f.g, intLegal 0x0E f.mod6⟩
  | .xor f => some ⟨0x0F, 8, f.g, intLegal 0x0F f.mod6⟩
  | .andn f => some ⟨0x10, 8, f.g, intLegal 0x10 f.mod6⟩
  | .not f => some ⟨0x11, 8, f.g, intLegal 0x11 f.mod6⟩
  | .shl f => some ⟨0x12, 8, f.g, intLegal 0x12 f.mod6⟩
  | .shr f => some ⟨0x13, 8, f.g, intLegal 0x13 f.mod6⟩
  | .sar f => some ⟨0x14, 8, f.g, intLegal 0x14 f.mod6⟩
  | .rol f => some ⟨0x15, 8, f.g, intLegal 0x15 f.mod6⟩
  | .funsh f => some ⟨0x16, 8, f.g, intLegal 0x16 f.mod6⟩
  | .popc f => some ⟨0x17, 8, f.g, intLegal 0x17 f.mod6⟩
  | .clz f => some ⟨0x18, 8, f.g, intLegal 0x18 f.mod6⟩
  | .ctz f => some ⟨0x19, 8, f.g, intLegal 0x19 f.mod6⟩
  | .brev f => some ⟨0x1A, 8, f.g, intLegal 0x1A f.mod6⟩
  | .bfe f => some ⟨0x1B, 8, f.g, intLegal 0x1B f.mod6⟩
  | .bfi f => some ⟨0x1C, 8, f.g, intLegal 0x1C f.mod6⟩
  | .prmb f => some ⟨0x1D, 8, f.g, intLegal 0x1D f.mod6⟩
  | .lea f => some ⟨0x1E, 8, f.g, intLegal 0x1E f.mod6⟩
  | .sel f => some ⟨0x1F, 8, f.g, intLegal 0x1F f.mod6⟩
  | .icmp f => some ⟨0x20, 8, f.g, intLegal 0x20 f.mod6⟩
  | .plop f => some ⟨0x21, 8, f.g, intLegal 0x21 f.mod6⟩
  | .pmov f => some ⟨0x22, 8, f.g, intLegal 0x22 f.mod6⟩
  | .idot4 f => some ⟨0x23, 8, f.g, intLegal 0x23 f.mod6⟩
  | .fadd f => some ⟨0x30, 8, f.g, floatLegal 0x30 f.mod6 f.sb⟩
  | .fsub f => some ⟨0x31, 8, f.g, floatLegal 0x31 f.mod6 f.sb⟩
  | .fmul f => some ⟨0x32, 8, f.g, floatLegal 0x32 f.mod6 f.sb⟩
  | .ffma f => some ⟨0x33, 8, f.g, floatLegal 0x33 f.mod6 f.sb⟩
  | .fmin f => some ⟨0x34, 8, f.g, floatLegal 0x34 f.mod6 f.sb⟩
  | .fmax f => some ⟨0x35, 8, f.g, floatLegal 0x35 f.mod6 f.sb⟩
  | .fminm f => some ⟨0x36, 8, f.g, floatLegal 0x36 f.mod6 f.sb⟩
  | .fmaxm f => some ⟨0x37, 8, f.g, floatLegal 0x37 f.mod6 f.sb⟩
  | .fabs f => some ⟨0x38, 8, f.g, floatLegal 0x38 f.mod6 f.sb⟩
  | .fneg f => some ⟨0x39, 8, f.g, floatLegal 0x39 f.mod6 f.sb⟩
  | .fcopys f => some ⟨0x3A, 8, f.g, floatLegal 0x3A f.mod6 f.sb⟩
  | .fcmp f => some ⟨0x3B, 8, f.g, floatLegal 0x3B f.mod6 f.sb⟩
  | .fclass f => some ⟨0x3C, 8, f.g, floatLegal 0x3C f.mod6 f.sb⟩
  | .frnd f => some ⟨0x3D, 8, f.g, floatLegal 0x3D f.mod6 f.sb⟩
  | .fcvt f => some ⟨0x3E, 8, f.g, floatLegal 0x3E f.mod6 f.sb⟩
  | .f2i f => some ⟨0x3F, 8, f.g, floatLegal 0x3F f.mod6 f.sb⟩
  | .i2f f => some ⟨0x40, 8, f.g, floatLegal 0x40 f.mod6 f.sb⟩
  | .fscale f => some ⟨0x41, 8, f.g, floatLegal 0x41 f.mod6 f.sb⟩
  | .fgete f => some ⟨0x42, 8, f.g, floatLegal 0x42 f.mod6 f.sb⟩
  | .fdot2 f => some ⟨0x43, 8, f.g, floatLegal 0x43 f.mod6 f.sb⟩
  | .rcp f => some ⟨0x50, 8, f.g, floatLegal 0x50 f.mod6 f.sb⟩
  | .sqrt f => some ⟨0x51, 8, f.g, floatLegal 0x51 f.mod6 f.sb⟩
  | .rsq f => some ⟨0x52, 8, f.g, floatLegal 0x52 f.mod6 f.sb⟩
  | .exp2 f => some ⟨0x53, 8, f.g, floatLegal 0x53 f.mod6 f.sb⟩
  | .log2 f => some ⟨0x54, 8, f.g, floatLegal 0x54 f.mod6 f.sb⟩
  | .had32 f => some ⟨0x55, 8, f.g, floatLegal 0x55 f.mod6 f.sb⟩
  | .bmax f => some ⟨0x56, 8, f.g, floatLegal 0x56 f.mod6 f.sb⟩
  | .qnt f => some ⟨0x57, 8, f.g, floatLegal 0x57 f.mod6 f.sb⟩
  | .dqnt f => some ⟨0x58, 8, f.g, floatLegal 0x58 f.mod6 f.sb⟩
  | .shfl f => some ⟨0x60, 8, f.g, crossLegal 0x60 f.mod6⟩
  | .vote f => some ⟨0x61, 8, f.g, crossLegal 0x61 f.mod6⟩
  | .ballot f => some ⟨0x62, 8, f.g, crossLegal 0x62 f.mod6⟩
  | .matchLanes f => some ⟨0x63, 8, f.g, crossLegal 0x63 f.mod6⟩
  | .redc f => some ⟨0x64, 8, f.g, crossLegal 0x64 f.mod6⟩
  | .scan f => some ⟨0x65, 8, f.g, crossLegal 0x65 f.mod6⟩
  | .compact f => some ⟨0x66, 8, f.g, crossLegal 0x66 f.mod6⟩
  | .hist f => some ⟨0x67, 8, f.g, crossLegal 0x67 f.mod6⟩
  | .hmerge f => some ⟨0x68, 8, f.g, crossLegal 0x68 f.mod6⟩
  | .bsrch f => some ⟨0x69, 8, f.g, crossLegal 0x69 f.mod6⟩
  | .topk f => some ⟨0x6A, 8, f.g, crossLegal 0x6A f.mod6⟩
  | .mov f => some ⟨0x70, 8, f.g, true⟩
  | .movi f => some ⟨0x71, 8, f.g, f.md == 0⟩
  | .moviHi f => some ⟨0x71, 8, f.g, f.md == 1⟩
  | .movs f => some ⟨0x72, 8, f.g, true⟩
  | .smov f => some ⟨0x73, 8, f.g, true⟩
  | .shape f => some ⟨0x74, 8, f.g, f.mod6.toNat % 4 != 3⟩
  | .ixset f => some ⟨0x75, 8, f.g, decide (f.md.toNat / 4 < 2)⟩
  | .movx f => some ⟨0x76, 8, f.g, movxCount f.mod6 != 0⟩
  | .xset f => some ⟨0x77, 8, f.g, decide (f.md.toNat < 3)⟩
  | .perm f => some ⟨0x78, 8, f.g, true⟩
  | .ocld f => some ⟨0x79, 8, f.g, true⟩
  | .ocinv f => some ⟨0x7A, 8, f.g, decide (f.mod6.toNat = 0 ∨ f.mod6.toNat / 8 = 1)⟩
  | .vsave f => some ⟨0x7B, 8, f.g, memLegal 0x7B f⟩
  | .vrest f => some ⟨0x7C, 8, f.g, memLegal 0x7C f⟩
  | .ldg f => some ⟨0x80, 8, f.g, memLegal 0x80 f⟩
  | .stg f => some ⟨0x81, 8, f.g, memLegal 0x81 f⟩
  | .ldc f => some ⟨0x82, 8, f.g, memLegal 0x82 f⟩
  | .pref f => some ⟨0x83, 8, f.g, memLegal 0x83 f⟩
  | .atom f => some ⟨0x84, 8, f.g, memLegal 0x84 f⟩
  | .red f => some ⟨0x85, 8, f.g, memLegal 0x85 f⟩
  | .stm f => some ⟨0x86, 8, f.g, memLegal 0x86 f⟩
  | .rwb f => some ⟨0x87, 8, f.g, true⟩
  | .rinv f => some ⟨0x88, 8, f.g, true⟩
  | .rwi f => some ⟨0x89, 8, f.g, true⟩
  | .freeze f => some ⟨0x8A, 8, f.g, true⟩
  | .thaw f => some ⟨0x8B, 8, f.g, true⟩
  | .frzqAddr f => some ⟨0x8C, 8, f.g, true⟩
  | .frzqSeq f => some ⟨0x8C, 8, f.g, true⟩
  | .frzqFree f => some ⟨0x8C, 8, f.g, true⟩
  | .crdecl f => some ⟨0x8D, 8, f.g, true⟩
  | .crrel f => some ⟨0x8E, 8, f.g, true⟩
  | .crrelEnd f => some ⟨0x8E, 8, f.g, true⟩
  | .promote f => some ⟨0x8F, 8, f.g, true⟩
  | .fence f => some ⟨0xA0, 8, f.g, true⟩
  | .acq f => some ⟨0xA1, 8, f.g, true⟩
  | .rel f => some ⟨0xA2, 8, f.g, true⟩
  | .waitc f => some ⟨0xA3, 8, f.g, true⟩
  | .cntrd f => some ⟨0xA4, 8, f.g, true⟩
  | .seqwaitChain f => some ⟨0xA5, 8, f.g, true⟩
  | .seqwaitThaw f => some ⟨0xA5, 8, f.g, true⟩
  | .seqwaitMem f => some ⟨0xA5, 8, f.g, true⟩
  | .yieldpt f => some ⟨0xA6, 8, f.g, f.md == 0⟩
  | .txfer f => some ⟨0xB0, 8, f.g, true⟩
  | .chpush f => some ⟨0xB1, 8, f.g, true⟩
  | .chtail f => some ⟨0xB2, 8, f.g, true⟩
  | .qfence f => some ⟨0xB3, 8, f.g, true⟩
  | .bbinit f => some ⟨0xB4, 8, f.g, true⟩
  | .bbarr f => some ⟨0xB5, 8, f.g, true⟩
  | .bbwait f => some ⟨0xB6, 8, f.g, true⟩
  | .grpdef f => some ⟨0xB7, 8, f.g, true⟩
  | .grpdefDel f => some ⟨0xB7, 8, f.g, true⟩
  | .clstat f => some ⟨0xB8, 8, f.g, true⟩
  | .mma f => some ⟨0xC0, 8, f.g, true⟩
  | .mmas f => some ⟨0xC1, 8, f.g, true⟩
  | .mmag f => some ⟨0xC2, 8, f.g, true⟩
  | .mmax f => some ⟨0xC3, 8, f.g, true⟩
  | .accz f => some ⟨0xC4, 8, f.g, true⟩
  | .task f => some ⟨0xC5, 8, f.g, true⟩
  | .tdoneRun f => some ⟨0xC6, 8, f.g, true⟩
  | .tdone f => some ⟨0xC6, 8, f.g, true⟩
  | .ttok f => some ⟨0xC7, 8, f.g, true⟩
  | .accrd f => some ⟨0xC8, 8, f.g, true⟩
  | .accfree f => some ⟨0xC9, 8, f.g, true⟩
  | .mstat f => some ⟨0xCA, 8, f.g, true⟩
  | .mstatClr f => some ⟨0xCA, 8, f.g, true⟩
  | .mstatCtl f => some ⟨0xCA, 8, f.g, true⟩
  | .bra f => some ⟨0xD0, 8, f.g, true⟩
  | .brx f => some ⟨0xD1, 8, f.g, true⟩
  | .call f => some ⟨0xD2, 8, f.g, true⟩
  | .callx f => some ⟨0xD3, 8, f.g, true⟩
  | .ret f => some ⟨0xD4, 8, f.g, true⟩
  | .land f => some ⟨0xD5, 8, Guard.always, f.g.ok⟩
  | .rcv f => some ⟨0xD6, 8, Guard.always, f.g.ok⟩
  | .exit f => some ⟨0xD7, 8, f.g, true⟩
  | .loop f => some ⟨0xD8, 8, f.g, decide (f.md.toNat % 4 < 3)⟩
  | .loopSet f => some ⟨0xD8, 8, f.g, decide (f.md.toNat % 4 < 3)⟩
  | .loopSeti f => some ⟨0xD8, 8, f.g, decide (f.md.toNat % 4 < 3)⟩
  | .loopGet f => some ⟨0xD8, 8, f.g, decide (f.md.toNat % 4 < 3)⟩
  | .brk f => some ⟨0xD9, 8, f.g, true⟩
  | .bar f => some ⟨0xE0, 8, f.g, true⟩
  | .bara f => some ⟨0xE1, 8, f.g, true⟩
  | .barw f => some ⟨0xE2, 8, f.g, true⟩
  | .spawn f => some ⟨0xE3, 8, f.g, true⟩
  | .syncw f => some ⟨0xE4, 8, f.g, true⟩
  | .recruit f => some ⟨0xE5, 8, f.g, true⟩
  | .hjoin f => some ⟨0xE6, 8, f.g, true⟩
  | .hjoinHelper f => some ⟨0xE6, 8, f.g, true⟩
  | .hrel f => some ⟨0xE7, 8, f.g, true⟩
  | .nqpush f => some ⟨0xE8, 8, f.g, true⟩
  | .nqtake f => some ⟨0xE9, 8, f.g, true⟩
  | .nqtakeTry f => some ⟨0xE9, 8, f.g, true⟩
  | .nqtakeRet f => some ⟨0xE9, 8, f.g, true⟩
  | .hpush f => some ⟨0xEA, 8, f.g, true⟩
  | .hdrain f => some ⟨0xEB, 8, f.g, true⟩
  | .hclr f => some ⟨0xEC, 8, f.g, true⟩
  | .trap f => some ⟨0xED, 8, f.g, f.md == 0⟩
  | .tret f => some ⟨0xEE, 8, f.g, decide (f.md.toNat < 4)⟩
  | .tretSkip f => some ⟨0xEE, 8, f.g, decide (f.md.toNat < 4)⟩
  | .tretGet f => some ⟨0xEE, 8, f.g, true⟩
  | .tretSet f => some ⟨0xEE, 8, f.g, true⟩
  | .snap f => some ⟨0xEF, 8, f.g, f.md == 0⟩
  | .nop => some ⟨0xF0, 8, Guard.always, true⟩
  | .prioh _ => some ⟨0xF1, 8, Guard.always, true⟩
  | .loch _ => some ⟨0xF2, 8, Guard.always, true⟩
  | .hint n => some ⟨0xF0 + n.toNat, 8, Guard.always, true⟩
  | .c3IaddI32 f => some ⟨0x00, 4, f.g, true⟩
  | .c3IsubI32 f => some ⟨0x01, 4, f.g, true⟩
  | .c3ImulI32 f => some ⟨0x04, 4, f.g, true⟩
  | .c3ImulhI32 f => some ⟨0x05, 4, f.g, true⟩
  | .c3ImulhN32 f => some ⟨0x05, 4, f.g, true⟩
  | .c3IdivI32 f => some ⟨0x07, 4, f.g, true⟩
  | .c3IdivN32 f => some ⟨0x07, 4, f.g, true⟩
  | .c3IremI32 f => some ⟨0x08, 4, f.g, true⟩
  | .c3IremN32 f => some ⟨0x08, 4, f.g, true⟩
  | .c3IminI32 f => some ⟨0x0B, 4, f.g, true⟩
  | .c3IminN32 f => some ⟨0x0B, 4, f.g, true⟩
  | .c3ImaxI32 f => some ⟨0x0C, 4, f.g, true⟩
  | .c3ImaxN32 f => some ⟨0x0C, 4, f.g, true⟩
  | .c3AndB32 f => some ⟨0x0D, 4, f.g, true⟩
  | .c3OrB32 f => some ⟨0x0E, 4, f.g, true⟩
  | .c3XorB32 f => some ⟨0x0F, 4, f.g, true⟩
  | .c3AndnB32 f => some ⟨0x10, 4, f.g, true⟩
  | .c3ShlB32 f => some ⟨0x12, 4, f.g, true⟩
  | .c3ShrB32 f => some ⟨0x13, 4, f.g, true⟩
  | .c3SarB32 f => some ⟨0x14, 4, f.g, true⟩
  | .c3RolB32 f => some ⟨0x15, 4, f.g, true⟩
  | .c3PrmbB32 f => some ⟨0x1D, 4, f.g, true⟩
  | .c3InegI32 f => some ⟨0x09, 4, f.g, true⟩
  | .c3IabsI32 f => some ⟨0x0A, 4, f.g, true⟩
  | .c3NotB32 f => some ⟨0x11, 4, f.g, true⟩
  | .c3PopcB32 f => some ⟨0x17, 4, f.g, true⟩
  | .c3ClzB32 f => some ⟨0x18, 4, f.g, true⟩
  | .c3CtzB32 f => some ⟨0x19, 4, f.g, true⟩
  | .c3BrevB32 f => some ⟨0x1A, 4, f.g, true⟩
  | .c3IaddSatI32 f => some ⟨0x00, 4, f.g, true⟩
  | .c3IsubSatI32 f => some ⟨0x01, 4, f.g, true⟩
  | .c3MovB32 f => some ⟨0x70, 4, f.g, true⟩
  | .c3FaddF32 f => some ⟨0x30, 4, f.g, true⟩
  | .c3FsubF32 f => some ⟨0x31, 4, f.g, true⟩
  | .c3FmulF32 f => some ⟨0x32, 4, f.g, true⟩
  | .c3FminF32 f => some ⟨0x34, 4, f.g, true⟩
  | .c3FmaxF32 f => some ⟨0x35, 4, f.g, true⟩
  | .c3FminmF32 f => some ⟨0x36, 4, f.g, true⟩
  | .c3FmaxmF32 f => some ⟨0x37, 4, f.g, true⟩
  | .c3FcopysF32 f => some ⟨0x3A, 4, f.g, true⟩
  | .c3FabsF32 f => some ⟨0x38, 4, f.g, true⟩
  | .c3FnegF32 f => some ⟨0x39, 4, f.g, true⟩
  | .c3FscaleF32 f => some ⟨0x41, 4, f.g, true⟩
  | .c3FgeteF32 f => some ⟨0x42, 4, f.g, true⟩
  | .c3FrndRneF32 f => some ⟨0x3D, 4, f.g, true⟩
  | .c3FrndRtzF32 f => some ⟨0x3D, 4, f.g, true⟩
  | .c3FrndRupF32 f => some ⟨0x3D, 4, f.g, true⟩
  | .c3FrndRdnF32 f => some ⟨0x3D, 4, f.g, true⟩
  | .c3F2iRtzI32F32 f => some ⟨0x3F, 4, f.g, true⟩
  | .c3F2iRtzN32F32 f => some ⟨0x3F, 4, f.g, true⟩
  | .c3F2iRneI32F32 f => some ⟨0x3F, 4, f.g, true⟩
  | .c3F2iRneN32F32 f => some ⟨0x3F, 4, f.g, true⟩
  | .c3I2fRneF32I32 f => some ⟨0x40, 4, f.g, true⟩
  | .c3I2fRneF32N32 f => some ⟨0x40, 4, f.g, true⟩
  | .c3FcvtRneBf16F32 f => some ⟨0x3E, 4, f.g, true⟩
  | .c3FcvtRneF16F32 f => some ⟨0x3E, 4, f.g, true⟩
  | .c3FcvtF32Bf16 f => some ⟨0x3E, 4, f.g, true⟩
  | .c3FcvtF32F16 f => some ⟨0x3E, 4, f.g, true⟩
  | .c3FclassF32 f => some ⟨0x3C, 4, f.g, true⟩
  | .c3RcpF32 f => some ⟨0x50, 4, f.g, true⟩
  | .c3SqrtF32 f => some ⟨0x51, 4, f.g, true⟩
  | .c3RsqF32 f => some ⟨0x52, 4, f.g, true⟩
  | .c3Exp2F32 f => some ⟨0x53, 4, f.g, true⟩
  | .c3Log2F32 f => some ⟨0x54, 4, f.g, true⟩
  | .c3FaddF16x2 f => some ⟨0x30, 4, f.g, true⟩
  | .c3FsubF16x2 f => some ⟨0x31, 4, f.g, true⟩
  | .c3FmulF16x2 f => some ⟨0x32, 4, f.g, true⟩
  | .c3FminF16x2 f => some ⟨0x34, 4, f.g, true⟩
  | .c3FmaxF16x2 f => some ⟨0x35, 4, f.g, true⟩
  | .c3FabsF16x2 f => some ⟨0x38, 4, f.g, true⟩
  | .c3FnegF16x2 f => some ⟨0x39, 4, f.g, true⟩
  | .c3FcvtRneF16x2F32 f => some ⟨0x3E, 4, f.g, true⟩
  | .c3FaddBf16x2 f => some ⟨0x30, 4, f.g, true⟩
  | .c3FsubBf16x2 f => some ⟨0x31, 4, f.g, true⟩
  | .c3FmulBf16x2 f => some ⟨0x32, 4, f.g, true⟩
  | .c3FminBf16x2 f => some ⟨0x34, 4, f.g, true⟩
  | .c3FmaxBf16x2 f => some ⟨0x35, 4, f.g, true⟩
  | .c3FabsBf16x2 f => some ⟨0x38, 4, f.g, true⟩
  | .c3FnegBf16x2 f => some ⟨0x39, 4, f.g, true⟩
  | .c3FcvtRneBf16x2F32 f => some ⟨0x3E, 4, f.g, true⟩
  | .c3BfeN32 f => some ⟨0x1B, 4, f.g, true⟩
  | .c3BfeI32 f => some ⟨0x1B, 4, f.g, true⟩
  | .c3LeaS1 f => some ⟨0x1E, 4, f.g, true⟩
  | .c3LeaS2 f => some ⟨0x1E, 4, f.g, true⟩
  | .c3LeaS3 f => some ⟨0x1E, 4, f.g, true⟩
  | .c3LeaS4 f => some ⟨0x1E, 4, f.g, true⟩
  | .c3ShflAtB32 f => some ⟨0x60, 4, f.g, true⟩
  | .c3ShflXorB32 f => some ⟨0x60, 4, f.g, true⟩
  | .c3RedcAddI32 f => some ⟨0x64, 4, f.g, true⟩
  | .c3RedcMaxI32 f => some ⟨0x64, 4, f.g, true⟩
  | .c3RedcAddF32 f => some ⟨0x64, 4, f.g, true⟩
  | .c3RedcMaxF32 f => some ⟨0x64, 4, f.g, true⟩
  | .c3ScanAddI32 f => some ⟨0x65, 4, f.g, true⟩
  | .c3ScanAddF32 f => some ⟨0x65, 4, f.g, true⟩
  | .ciIaddI32 f => some ⟨0x00, 4, f.g, true⟩
  | .ciImulI32 f => some ⟨0x04, 4, f.g, true⟩
  | .ciAndB32 f => some ⟨0x0D, 4, f.g, true⟩
  | .ciOrB32 f => some ⟨0x0E, 4, f.g, true⟩
  | .ciXorB32 f => some ⟨0x0F, 4, f.g, true⟩
  | .ciShlB32 f => some ⟨0x12, 4, f.g, true⟩
  | .ciShrB32 f => some ⟨0x13, 4, f.g, true⟩
  | .ciSarB32 f => some ⟨0x14, 4, f.g, true⟩
  | .ciIminI32 f => some ⟨0x0B, 4, f.g, true⟩
  | .ciImaxI32 f => some ⟨0x0C, 4, f.g, true⟩
  | .ciMoviB32 f => some ⟨0x71, 4, f.g, true⟩
  | .ciFscaleF32 f => some ⟨0x41, 4, f.g, true⟩
  | .ciMoviHi f => some ⟨0x71, 4, f.g, true⟩
  | .cbBra f => some ⟨0xD0, 4, f.g, true⟩
  | .cbLoopLc0 f => some ⟨0xD8, 4, f.g, true⟩
  | .cbLoopLc1 f => some ⟨0xD8, 4, f.g, true⟩
  | .cbLoopLc2 f => some ⟨0xD8, 4, f.g, true⟩
  | .s16Mov _ => some ⟨0x70, 2, Guard.always, true⟩
  | .nop16 _ => some ⟨0xF0, 2, Guard.always, true⟩
  | .s16Iadd _ => some ⟨0x00, 2, Guard.always, true⟩
  | .s16Isub _ => some ⟨0x01, 2, Guard.always, true⟩
  | .s16Imin _ => some ⟨0x0B, 2, Guard.always, true⟩
  | .s16Imax _ => some ⟨0x0C, 2, Guard.always, true⟩
  | .s16And _ => some ⟨0x0D, 2, Guard.always, true⟩
  | .s16Or _ => some ⟨0x0E, 2, Guard.always, true⟩
  | .s16Xor _ => some ⟨0x0F, 2, Guard.always, true⟩
  | .s16Shl _ => some ⟨0x12, 2, Guard.always, true⟩
  | .s16Shr _ => some ⟨0x13, 2, Guard.always, true⟩
  | .s16Sar _ => some ⟨0x14, 2, Guard.always, true⟩
  | .s16Fadd _ => some ⟨0x30, 2, Guard.always, true⟩
  | .s16Fsub _ => some ⟨0x31, 2, Guard.always, true⟩
  | .s16Fmul _ => some ⟨0x32, 2, Guard.always, true⟩
  | .s16Fmin _ => some ⟨0x34, 2, Guard.always, true⟩
  | .s16Fmax _ => some ⟨0x35, 2, Guard.always, true⟩
  | .waitWake _ => none
  | .loadLimitWindow _ => none
  | .loadSetEntry _ => none
  | .pageWalk _ _ _ _ => none
  | .stopRecordsWrite _ => none
  | .loadReturn _ _ _ => none
  | .storeRetire _ => none
  | .holdMessage _ => none
  | .l1Evict _ _ => none
  | .writeBack _ => none
  | .storeAtHome _ => none
  | .atomicAtHome _ => none
  | .storeAck _ => none
  | .rangeRecall _ => none
  | .remoteRequest _ => none
  | .remoteReply _ => none
  | .hostWindowReply _ => none
  | .freezeMessage _ _ _ => none
  | .freezeAck _ _ => none
  | .collectionRequest _ _ => none
  | .collectionAck _ _ => none
  | .collectionStuck _ _ => none
  | .promoteRequest _ => none
  | .fenceConflict _ _ => none
  | .fenceComplete _ => none
  | .seqwaitPoll _ => none
  | .nopEntry _ => none
  | .copyEntry _ => none
  | .fillEntry _ => none
  | .qfenceEntry _ => none
  | .mqfillEntry _ => none
  | .bbarrEntry _ => none
  | .txeBeat _ => none
  | .entryComplete _ => none
  | .bbArrival _ => none
  | .plotterFetch _ _ _ _ => none
  | .quadrantBlockAdd _ _ => none
  | .acczZero _ _ => none
  | .accrdReturn _ _ => none
  | .accfreeEffect _ _ => none
  | .taskDispatch _ => none
  | .deferredCompletion _ _ => none
  | .flitCrcResend _ => none
  | .linkDown => none
  | .portDown _ => none
  | .scaleOutAbandon _ => none
  | .peerSilenceTimeout _ => none
  | .contributionBeat _ => none
  | .partialBeat _ => none
  | .buddyCopy _ => none
  | .groupTimeout _ _ _ _ => none
  | .destAckTimeout _ _ _ => none
  | .completionNotice _ => none
  | .launchDatagram _ => none
  | .placeTeam _ => none
  | .nodeDrainMessage _ => none
  | .privilegedDistribute _ => none
  | .distributorSteal _ _ => none
  | .taskTake _ _ => none
  | .crewComplete _ => none
  | .launchComplete _ => none
  | .nodePush _ => none
  | .nodeTimerExpiry _ => none
  | .nodePressureExpiry _ => none
  | .heapPushAtHome _ => none
  | .timeSliceExpiry _ => none
  | .tsliceEscalation _ => none
  | .watchdogExpiry _ => none
  | .crewEvict _ => none
  | .crewRestore _ => none
  | .rowRetire _ => none
  | .powerLimitThrottle _ => none
  | .snapinPin => none
  | .snapshotLatch => none
  | .powerOnReset => none
  | .failover => none
  | .ctxcreate _ _ => none
  | .ctxdestroy _ _ => none
  | .bindq _ _ _ _ _ => none
  | .unbindq _ _ => none
  | .halt _ _ => none
  | .release _ _ => none
  | .faultclr _ _ => none
  | .resume _ _ => none
  | .tlbinv _ _ _ _ => none
  | .ownkey _ _ => none
  | .thawforce _ _ _ => none
  | .snaptrig _ => none
  | .powerlim _ _ => none
  | .memrd _ _ _ _ => none
  | .memwr _ _ _ _ => none
  | .ctlrd _ _ _ _ => none
  | .ctlwr _ _ _ _ => none
  | .hostwin _ _ _ _ => none
  | .podjoin _ _ _ => none
  | .linkkey _ _ _ => none
  | .epset _ _ _ => none
  | .report _ _ => none
  | .dbgunlock _ _ => none
  | .lcadvance _ _ => none
  | .unassignedCommand _ _ => none
  | .getVersion _ => none
  | .getCapabilities _ => none
  | .negotiateAlgorithms _ => none
  | .getDigests _ => none
  | .getCertificate _ _ => none
  | .challenge _ _ => none
  | .getMeasurements _ _ => none
  | .keyExchange _ => none
  | .finish _ _ => none
  | .endSession _ => none
  | .heartbeat _ => none
  | .keyUpdate _ => none
  | .unsupportedRequest _ => none
  | .hctl _ => none
  | .hashComplete => none
  | .ectl _ => none
  | .verifyComplete => none
  | .mext _ => none
  | .hbeat _ => none
  | .unlock _ => none
  | .kctl _ => none
  | .wipeComplete => none
  | .dbgctl _ => none
  | .rxlen _ => none
  | .txlen _ => none
  | .rng => none
  | .registerWrite _ _ => none
  | .securedMessage _ => none
  | .portTraining _ _ => none

namespace Machine

/-- What an instruction may touch beside the program counter and what every instruction does: its guard, the designators it
writes with their register counts, the predicates it writes, its sources, whose dead marks empty registers (R217), and
whether it raises flags. -/
structure Touch where
  g     : Guard
  dsts  : List (Desig × Nat)
  preds : List Nat
  srcs  : List Src
  fp    : Bool

/-- A register that a designator of k registers names in some of the lanes given (R210, R224). -/
def Crew.Names (c : Crew) (d : Desig) (k : Nat) (act : Lanes) (n : Nat) : Prop := ∃ j < k, ∃ e ∈ dstPlaces c d j act, e.1 = n

/-- A register that a dead-marked direct source empties (R217). -/
def Empties (srcs : List Src) (n : Nat) : Prop :=
  ∃ q ∈ srcs, q.dead = true ∧ ∃ m, place q.d = some (.reg m) ∧ m ≤ n ∧ n < m + q.k

/-- A place that a result of an older instruction is still to be written to (R26). -/
def Crew.Awaits (c : Crew) (d : Dst) : Prop := ∃ q ∈ c.pends, ∃ e ∈ q.dests, e.dst = d

/-- No path stands in the spill region and the path table has two entries free, so that no instruction of those named here
spills one (R401). -/
def Crew.Fits (c : Crew) : Prop := c.paths.length ≤ 6 ∧ ∀ p ∈ c.paths, p.spilled = false

/-- The frame of an instruction: whatever next state it answers, its own or a trap's or a fault's, every register but its
destinations, those its dead-marked sources empty and those that wait for an older result is as before; so is every predicate
but those it writes; the index, crossbar and control registers are as before; no FPFLAGS bit is cleared, and none set by an
instruction that raises none; no frame is lost; every byte of main memory is as before; and so is every L1 line where the context
does not stop, which discards the copies that loads past a fence have read (R203, R204). -/
def Touch.Frame (m : Touch) (i : Instr) : Prop :=
  ∀ s c p t d, mget s.crews s.focus = some c → c.hgroup = none → c.running = some p → c.Fits →
    exec i s = .next t → mget t.crews s.focus = some d →
    (∀ n, (∀ e ∈ m.dsts, ¬ c.Names e.1 e.2 (c.guardLanes m.g p.mask) n) → ¬ Empties m.srcs n → ¬ c.Awaits (.reg n) →
      mget d.regs n = mget c.regs n) ∧
    (∀ n, n ∉ m.preds → ¬ c.Awaits (.pred n) → d.pred n = c.pred n) ∧
    d.ix = c.ix ∧ d.xdist = c.xdist ∧ d.xsel = c.xsel ∧ d.fpctl = c.fpctl ∧ d.dre = c.dre ∧ d.hcount = c.hcount ∧
    c.fpflags &&& d.fpflags = c.fpflags ∧ d.fpflags &&& 0xFFFFFFE0 = c.fpflags &&& 0xFFFFFFE0 ∧
    (m.fp = false → d.fpflags = c.fpflags) ∧ c.frames <+: d.frames ∧
    (∀ o a, t.homeByte o a = s.homeByte o a) ∧ (mget t.ctxs c.ctx = mget s.ctxs c.ctx → t.l1s = s.l1s)

/-- The rest of the frame of a register instruction: the loop counters, the in-flight counters, the store queue, the loads in
flight and the exited lanes are as before, and so is every other crew where the context does not stop. -/
def RestKept (i : Instr) : Prop :=
  ∀ s c t d, mget s.crews s.focus = some c → c.hgroup = none → c.Fits → exec i s = .next t → mget t.crews s.focus = some d →
    d.lc = c.lc ∧ d.cnts = c.cnts ∧ d.sq = c.sq ∧ d.loads = c.loads ∧ d.exited = c.exited ∧
    (mget t.ctxs c.ctx = mget s.ctxs c.ctx → ∀ j, j ≠ s.focus → mget t.crews j = mget s.crews j)

/-- The registers of an integer operand by its TY (R243). -/
def tyRegs (f : L3) : Nat := tyWide f.mod6 / 32

/-- A register instruction's result reaches its destination: where the crew executes it, its modifiers are legal, its
destination exists, its sources can be read and no path is to be spilled, exec answers a next state in which, in every
acting lane that is live, each register that the destination names there holds its word of the value, and the path stands at
the next instruction. A destination zero names none. A helper group writes its donor's registers (R386). -/
def RegForm.Lands (m : RegForm) (i : Instr) (val : Cx → List (List Opd) → Nat → Nat) : Prop :=
  ∀ s x r, s.issueCx m.opc m.len m.g = some x → m.legal = true → dstCheck x.c m.dst m.k true = .ok () → m.k ≤ x.c.nregs →
    x.fetch m.srcs = .ok r → (∀ h, x.c.hgroup = some h → h.donor ≠ s.focus ∧ (mget s.crews h.donor).isSome = true) → x.c.Fits →
    ∃ t d, exec i s = .next t ∧ t.viewCrew s.focus = some d ∧ d.pc = x.p.pc + BitVec.ofNat 64 m.len ∧
      ∀ l < x.c.w, x.act.getLsbD l = true → x.c.live.getLsbD l = true →
        ∀ j < m.k, ∀ e ∈ dstPlaces x.c m.dst j x.act, e.2.getLsbD l = true →
          regAt (mget d.regs e.1) l = BitVec.ofNat 32 (val x r l >>> (32 * j))

/-- Two-source, shift, one-source and field instructions by their forms (R243). -/
def Lands2 (i : Instr) (opc : Nat) (f : L3) (fn : Nat → Bool → Nat → Nat → Nat) : Prop :=
  (L3Form opc 8 0 (intLegal opc f.mod6) f (tyRegs f) (tyRegs f) (tyRegs f) none).Lands i (fun _ r l =>
    fn (tyWide f.mod6) (tySigned f.mod6) (laneVal (nthRun r 0) (tyWide f.mod6) l) (laneVal (nthRun r 1) (tyWide f.mod6) l))
def LandsShift (i : Instr) (opc : Nat) (f : L3) (fn : Nat → Nat → Nat → Nat) : Prop :=
  (L3Form opc 8 0 (intLegal opc f.mod6) f (tyRegs f) (tyRegs f) 1 none).Lands i (fun _ r l =>
    fn (tyWide f.mod6) (laneVal (nthRun r 0) (tyWide f.mod6) l) (laneVal (nthRun r 1) 32 l))
def Lands1 (i : Instr) (opc : Nat) (f : L3) (one : Bool) (fn : Nat → Nat → Nat) : Prop :=
  (L3Form1 opc 8 0 (intLegal opc f.mod6) f (if one then 1 else tyRegs f) (tyRegs f)).Lands i (fun _ r l =>
    fn (tyWide f.mod6) (laneVal (nthRun r 0) (tyWide f.mod6) l))

/-- A crew that has taken the illegal-instruction trap of an instruction of len bytes (R46, R439). -/
def IllTaken (s : State) (c d : Crew) (p : Path) (len : Nat) : Prop :=
  d.frames = c.frames ++ [{ pc := p.pc, rpc := p.pc, cause := 5, tm := p.mask, lmask := 0, aux0 := 0, aux1 := 0, len := len }] ∧
  d.running = some (newPath (s.tentryOf c) p.mask (c.frames.length + 1) true) ∧
  (∀ n, ¬ c.Awaits (.reg n) → mget d.regs n = mget c.regs n) ∧ d.latches = [] ∧ d.oc = []

/-- The touch of an L3 instruction with a destination of k registers. -/
def touch (f : L3) (k : Nat) (srcs : List Src) : Touch := { g := f.g, dsts := [(f.dst, k)], preds := [], srcs := srcs, fp := false }

/-- The same for an instruction that raises floating-point flags. -/
def fpTouch (f : L3) (k : Nat) (srcs : List Src) : Touch := { touch f k srcs with fp := true }

/-- The predicate that a destination names, where it names one. -/
def predDst (f : L3) : List Nat := (predOf f.dst).toList

/-- A source that may be a predicate (R294). -/
def bitSrcs (q : Src) : List Src := if (predOf q.d).isSome then [] else [q]

/-- The touches of the integer, floating-point and cross-lane instructions by their shapes. -/
def touchInt2 (f : L3) (imm : Option Word) : Touch := touch f (tyRegs f) (srcsAB f (tyRegs f) (tyRegs f) imm)
def touchShift (f : L3) (imm : Option Word) : Touch := touch f (tyRegs f) (srcsAB f (tyRegs f) 1 imm)
def touchInt1 (f : L3) (one : Bool) : Touch := touch f (if one then 1 else tyRegs f) [{ f.srcA with k := tyRegs f }]
def touchAB (f : L3) (k ka kb : Nat) : Touch := touch f k (srcsAB f ka kb none)
def touchPmov (f : L3) : Touch :=
  { touch f (if f.mod6 = 1 then 2 else 1) (if f.mod6 = 2 then [f.srcA] else if f.mod6 = 3 then [{ f.srcA with k := 2 }] else []) with
    preds := predDst f }
def touchF2 (f : L3) : Touch := fpTouch f (fk f) (srcsAB f (fk f) (fk f) none)
def touchF1 (f : L3) (k : Nat) : Touch := fpTouch f k [{ f.srcA with k := fk f }]
def touchFma (f : L3) : Touch :=
  let k := (ftOf (match f.mod6.toNat % 4 with | 0 => 0 | 1 => 1 | 2 => 4 | _ => 5)).k
  fpTouch f k (srcsAB f k k none)
def touchScale (f : L3) (imm : Option Word) : Touch := fpTouch f (fk f) (srcsAB f (fk f) 1 imm)
def touchCvt (f : L3) : Touch :=
  if f.mod6.toNat % 8 < 2 then
    fpTouch f (fmtRegs (cvtFmt (f.sb.toNat / 8 % 8))) [{ f.srcA with k := fmtRegs (cvtFmt (f.sb.toNat % 8)) }]
  else fpTouch f 1 (srcsAB f 1 1 none)
def touchF2i (f : L3) : Touch := fpTouch f (if f.mod6.toNat / 4 % 4 < 2 then 1 else 2) [{ f.srcA with k := (ftOf (f.mod6.toNat % 4)).k }]
def touchI2f (f : L3) : Touch := fpTouch f (ftOf (f.mod6.toNat % 4)).k [{ f.srcA with k := if f.mod6.toNat / 4 % 4 < 2 then 1 else 2 }]
def touchRedc (f : L3) : Touch := touch f (redcRegs f.mod6) [{ f.srcA with k := redcRegs f.mod6 }]
def touchBallot (f : L3) : Touch := touch f 2 (if f.mod6 = 0 then bitSrcs f.srcA else [f.srcA, f.srcB])
def touchHmerge (f : L3) : Touch :=
  let nb := binCount f.mod6
  { g := f.g, dsts := (f.dst, 1) :: (if f.mod6.getLsbD 4 then [(f.sa, nb)] else []), preds := [],
    srcs := [{ f.srcA with k := nb }], fp := false }
/-- The touches of the moves. -/
def touchMov (f : L3) (k : Nat) : Touch := touch f k [f.srcN k]
def touchImm (g : Guard) (dst : Desig) : Touch := { g := g, dsts := [(dst, 1)], preds := [], srcs := [], fp := false }
def touchNone (g : Guard) : Touch := { g := g, dsts := [], preds := [], srcs := [], fp := false }

end Machine

/-- What each register instruction touches (0x00 to 0x7A but IXSET, XSET and SMOV, and their compact and short forms), none
for any other. -/
def Instr.regTouch (i : Instr) : Option Machine.Touch :=
  open Machine in
  match i with
  | .iadd f => some (touchInt2 f none)
  | .isub f => some (touchInt2 f none)
  | .imul f => some (touchInt2 f none)
  | .imulh f => some (touchInt2 f none)
  | .idiv f => some (touchInt2 f none)
  | .irem f => some (touchInt2 f none)
  | .imin f => some (touchInt2 f none)
  | .imax f => some (touchInt2 f none)
  | .and f => some (touchInt2 f none)
  | .or f => some (touchInt2 f none)
  | .xor f => some (touchInt2 f none)
  | .andn f => some (touchInt2 f none)
  | .iaddc f => some ({ touchAB f 1 1 1 with preds := [f.mod6.toNat % 16] })
  | .isubb f => some ({ touchAB f 1 1 1 with preds := [f.mod6.toNat % 16] })
  | .imad f => some (touchAB f (if imadWide f.mod6 then 2 else 1) 1 1)
  | .ineg f => some (touchInt1 f false)
  | .iabs f => some (touchInt1 f false)
  | .not f => some (touchInt1 f false)
  | .brev f => some (touchInt1 f false)
  | .popc f => some (touchInt1 f true)
  | .clz f => some (touchInt1 f true)
  | .ctz f => some (touchInt1 f true)
  | .shl f => some (touchShift f none)
  | .shr f => some (touchShift f none)
  | .sar f => some (touchShift f none)
  | .rol f => some (touchShift f none)
  | .funsh f => some (touchAB f 1 1 1)
  | .bfe f => some (touchAB f 1 1 1)
  | .bfi f => some (touchAB f 1 1 1)
  | .idot4 f => some (touchAB f 1 1 1)
  | .prmb f => some (touchAB f 1 (if f.mod6.toNat / 8 = 0 then 2 else 4) 1)
  | .lea f => some (touchAB f 2 2 1)
  | .sel f => some (let k := if f.mod6.getLsbD 5 then 2 else 1; touchAB f k k k)
  | .icmp f => some ({ touchAB f 1 (tyRegs f) (tyRegs f) with preds := predDst f })
  | .plop f => some ({ touch f 0 [] with preds := predDst f })
  | .pmov f => some (touchPmov f)
  | .fadd f => some (touchF2 f)
  | .fsub f => some (touchF2 f)
  | .fmul f => some (touchF2 f)
  | .fmin f => some (touchF2 f)
  | .fmax f => some (touchF2 f)
  | .fminm f => some (touchF2 f)
  | .fmaxm f => some (touchF2 f)
  | .fcopys f => some (touchF2 f)
  | .ffma f => some (touchFma f)
  | .fdot2 f => some (touchAB f 1 1 1)
  | .fabs f => some (touchF1 f (fk f))
  | .fneg f => some (touchF1 f (fk f))
  | .frnd f => some (touchF1 f (fk f))
  | .rcp f => some (touchF1 f (fk f))
  | .sqrt f => some (touchF1 f (fk f))
  | .rsq f => some (touchF1 f (fk f))
  | .fclass f => some (touchF1 f 1)
  | .fgete f => some (touchF1 f 1)
  | .exp2 f => some (touchF1 f 1)
  | .log2 f => some (touchF1 f 1)
  | .fcmp f => some ({ touchF2 f with dsts := [(f.dst, 1)], preds := predDst f })
  | .fcvt f => some (touchCvt f)
  | .f2i f => some (touchF2i f)
  | .i2f f => some (touchI2f f)
  | .fscale f => some (touchScale f none)
  | .had32 f => some (touch f 1 [f.srcA])
  | .bmax f => some (touch f 1 [f.srcA])
  | .topk f => some (touch f 1 [f.srcA])
  | .qnt f => some (touchAB f 1 1 1)
  | .dqnt f => some (touchAB f 1 1 1)
  | .shfl f => some (touchAB f 1 1 1)
  | .bsrch f => some (touchAB f 1 1 1)
  | .perm f => some (touchAB f 1 1 1)
  | .vote f => some ({ touch f 1 (bitSrcs f.srcA) with preds := predDst f })
  | .ballot f => some (touchBallot f)
  | .matchLanes f => some (touch f (if f.mod6.toNat % 4 = 0 then 2 else 1) [{ f.srcA with k := if f.mod6.getLsbD 2 then 2 else 1 }])
  | .redc f => some (touchRedc f)
  | .scan f => some (touchRedc f)
  | .compact f => some (touch f 1 (f.srcA :: bitSrcs f.srcB))
  | .hist f => some (touchAB f (binCount f.mod6) 1 1)
  | .hmerge f => some (touchHmerge f)
  | .mov f => some (touchMov f 1)
  | .movx f => some (touchMov f (movxCount f.mod6))
  | .movi f => some (touchImm f.g f.dst)
  | .moviHi f => some (touchImm f.g f.dst)
  | .movs f => some (touch f (if f.mod6 = 0x09 ∨ f.mod6 = 0x1B then 2 else 1) [])
  | .shape f => some (touch f 1 (if f.mod6.toNat % 4 = 0 then [] else [f.srcA]))
  | .ocld f => some ({ touchNone f.g with srcs := [f.srcA] })
  | .ocinv f => some (touchNone f.g)
  | .c3IaddI32 f => some (touchInt2 (f.toL3 0) none)
  | .c3IsubI32 f => some (touchInt2 (f.toL3 0) none)
  | .c3ImulI32 f => some (touchInt2 (f.toL3 0) none)
  | .c3ImulhI32 f => some (touchInt2 (f.toL3 0) none)
  | .c3ImulhN32 f => some (touchInt2 (f.toL3 1) none)
  | .c3IdivI32 f => some (touchInt2 (f.toL3 0) none)
  | .c3IdivN32 f => some (touchInt2 (f.toL3 1) none)
  | .c3IremI32 f => some (touchInt2 (f.toL3 0) none)
  | .c3IremN32 f => some (touchInt2 (f.toL3 1) none)
  | .c3IminI32 f => some (touchInt2 (f.toL3 0) none)
  | .c3IminN32 f => some (touchInt2 (f.toL3 1) none)
  | .c3ImaxI32 f => some (touchInt2 (f.toL3 0) none)
  | .c3ImaxN32 f => some (touchInt2 (f.toL3 1) none)
  | .c3AndB32 f => some (touchInt2 (f.toL3 0) none)
  | .c3OrB32 f => some (touchInt2 (f.toL3 0) none)
  | .c3XorB32 f => some (touchInt2 (f.toL3 0) none)
  | .c3AndnB32 f => some (touchInt2 (f.toL3 0) none)
  | .c3IaddSatI32 f => some (touchInt2 (f.toL3 4) none)
  | .c3IsubSatI32 f => some (touchInt2 (f.toL3 4) none)
  | .c3ShlB32 f => some (touchShift (f.toL3 0) none)
  | .c3ShrB32 f => some (touchShift (f.toL3 0) none)
  | .c3SarB32 f => some (touchShift (f.toL3 0) none)
  | .c3RolB32 f => some (touchShift (f.toL3 0) none)
  | .c3InegI32 f => some (touchInt1 (f.toL3u 0) false)
  | .c3IabsI32 f => some (touchInt1 (f.toL3u 0) false)
  | .c3NotB32 f => some (touchInt1 (f.toL3u 0) false)
  | .c3PopcB32 f => some (touchInt1 (f.toL3u 0) true)
  | .c3ClzB32 f => some (touchInt1 (f.toL3u 0) true)
  | .c3CtzB32 f => some (touchInt1 (f.toL3u 0) true)
  | .c3BrevB32 f => some (touchInt1 (f.toL3u 0) false)
  | .c3PrmbB32 f => some (touchAB (f.toL3 0) 1 2 1)
  | .c3BfeI32 f => some (touchAB (f.toL3 0) 1 1 1)
  | .c3BfeN32 f => some (touchAB (f.toL3 1) 1 1 1)
  | .c3LeaS1 f => some (touchAB (f.toL3 8) 2 2 1)
  | .c3LeaS2 f => some (touchAB (f.toL3 16) 2 2 1)
  | .c3LeaS3 f => some (touchAB (f.toL3 24) 2 2 1)
  | .c3LeaS4 f => some (touchAB (f.toL3 32) 2 2 1)
  | .ciIaddI32 f => some (touchInt2 (f.toL3 0) (some 0))
  | .ciImulI32 f => some (touchInt2 (f.toL3 0) (some 0))
  | .ciAndB32 f => some (touchInt2 (f.toL3 0) (some 0))
  | .ciOrB32 f => some (touchInt2 (f.toL3 0) (some 0))
  | .ciXorB32 f => some (touchInt2 (f.toL3 0) (some 0))
  | .ciIminI32 f => some (touchInt2 (f.toL3 0) (some 0))
  | .ciImaxI32 f => some (touchInt2 (f.toL3 0) (some 0))
  | .ciShlB32 f => some (touchShift (f.toL3 0) (some 0))
  | .ciShrB32 f => some (touchShift (f.toL3 0) (some 0))
  | .ciSarB32 f => some (touchShift (f.toL3 0) (some 0))
  | .s16Iadd f => some (touchInt2 (f.toC3.toL3 0) none)
  | .s16Isub f => some (touchInt2 (f.toC3.toL3 0) none)
  | .s16Imin f => some (touchInt2 (f.toC3.toL3 0) none)
  | .s16Imax f => some (touchInt2 (f.toC3.toL3 0) none)
  | .s16And f => some (touchInt2 (f.toC3.toL3 0) none)
  | .s16Or f => some (touchInt2 (f.toC3.toL3 0) none)
  | .s16Xor f => some (touchInt2 (f.toC3.toL3 0) none)
  | .s16Shl f => some (touchShift (f.toC3.toL3 0) none)
  | .s16Shr f => some (touchShift (f.toC3.toL3 0) none)
  | .s16Sar f => some (touchShift (f.toC3.toL3 0) none)
  | .c3FaddF32 f => some (touchF2 (f.toL3 0))
  | .c3FsubF32 f => some (touchF2 (f.toL3 0))
  | .c3FmulF32 f => some (touchF2 (f.toL3 0))
  | .c3FminF32 f => some (touchF2 (f.toL3 0))
  | .c3FmaxF32 f => some (touchF2 (f.toL3 0))
  | .c3FminmF32 f => some (touchF2 (f.toL3 0))
  | .c3FmaxmF32 f => some (touchF2 (f.toL3 0))
  | .c3FcopysF32 f => some (touchF2 (f.toL3 0))
  | .c3FaddF16x2 f => some (touchF2 (f.toL3 4))
  | .c3FsubF16x2 f => some (touchF2 (f.toL3 4))
  | .c3FmulF16x2 f => some (touchF2 (f.toL3 4))
  | .c3FminF16x2 f => some (touchF2 (f.toL3 4))
  | .c3FmaxF16x2 f => some (touchF2 (f.toL3 4))
  | .c3FaddBf16x2 f => some (touchF2 (f.toL3 5))
  | .c3FsubBf16x2 f => some (touchF2 (f.toL3 5))
  | .c3FmulBf16x2 f => some (touchF2 (f.toL3 5))
  | .c3FminBf16x2 f => some (touchF2 (f.toL3 5))
  | .c3FmaxBf16x2 f => some (touchF2 (f.toL3 5))
  | .c3FabsF32 f => some (touchF1 (f.toL3u 0) 1)
  | .c3FnegF32 f => some (touchF1 (f.toL3u 0) 1)
  | .c3FabsF16x2 f => some (touchF1 (f.toL3u 4) 1)
  | .c3FnegF16x2 f => some (touchF1 (f.toL3u 4) 1)
  | .c3FabsBf16x2 f => some (touchF1 (f.toL3u 5) 1)
  | .c3FnegBf16x2 f => some (touchF1 (f.toL3u 5) 1)
  | .c3FgeteF32 f => some (touchF1 (f.toL3u 0) 1)
  | .c3FrndRneF32 f => some (touchF1 (f.toL3u 0) 1)
  | .c3FrndRtzF32 f => some (touchF1 (f.toL3u 8) 1)
  | .c3FrndRupF32 f => some (touchF1 (f.toL3u 16) 1)
  | .c3FrndRdnF32 f => some (touchF1 (f.toL3u 24) 1)
  | .c3FclassF32 f => some (touchF1 (f.toL3u 0) 1)
  | .c3FscaleF32 f => some (touchScale (f.toL3 0) none)
  | .c3F2iRtzI32F32 f => some (touchF2i (f.toL3u 16))
  | .c3F2iRtzN32F32 f => some (touchF2i (f.toL3u 20))
  | .c3F2iRneI32F32 f => some (touchF2i (f.toL3u 0))
  | .c3F2iRneN32F32 f => some (touchF2i (f.toL3u 4))
  | .c3I2fRneF32I32 f => some (touchI2f (f.toL3u 0))
  | .c3I2fRneF32N32 f => some (touchI2f (f.toL3u 4))
  | .c3FcvtRneBf16F32 f => some (touchCvt { f.toL3 0 with sb := 0x18 })
  | .c3FcvtRneF16F32 f => some (touchCvt { f.toL3 0 with sb := 0x10 })
  | .c3FcvtF32Bf16 f => some (touchCvt { f.toL3 0 with sb := 0x03 })
  | .c3FcvtF32F16 f => some (touchCvt { f.toL3 0 with sb := 0x02 })
  | .c3FcvtRneF16x2F32 f => some (touchCvt (f.toL3 2))
  | .c3FcvtRneBf16x2F32 f => some (touchCvt (f.toL3 3))
  | .c3RcpF32 f => some (touchF1 (f.toL3u 0) 1)
  | .c3SqrtF32 f => some (touchF1 (f.toL3u 0) 1)
  | .c3RsqF32 f => some (touchF1 (f.toL3u 0) 1)
  | .c3Exp2F32 f => some (touchF1 (f.toL3u 0) 1)
  | .c3Log2F32 f => some (touchF1 (f.toL3u 0) 1)
  | .ciFscaleF32 f => some (touchScale (f.toL3 0) (some 0))
  | .s16Fadd f => some (touchF2 (f.toC3.toL3 0))
  | .s16Fsub f => some (touchF2 (f.toC3.toL3 0))
  | .s16Fmul f => some (touchF2 (f.toC3.toL3 0))
  | .s16Fmin f => some (touchF2 (f.toC3.toL3 0))
  | .s16Fmax f => some (touchF2 (f.toC3.toL3 0))
  | .c3MovB32 f => some (touchMov (f.toL3u 0) 1)
  | .s16Mov f => some (touchMov ({ f.toC3 with a := f.a.setWidth 6 }.toL3u 0) 1)
  | .c3ShflAtB32 f => some (touchAB (f.toL3 0) 1 1 1)
  | .c3RedcAddI32 f => some (touchRedc (f.toL3u 0))
  | .c3RedcAddF32 f => some (touchRedc (f.toL3u 2))
  | .c3ScanAddI32 f => some (touchRedc (f.toL3u 0))
  | .c3ShflXorB32 f => some (touchAB (f.toL3 3) 1 1 1)
  | .c3RedcMaxI32 f => some (touchRedc (f.toL3u 0x10))
  | .c3RedcMaxF32 f => some (touchRedc (f.toL3u 0x12))
  | .c3ScanAddF32 f => some (touchRedc (f.toL3u 2))
  | .ciMoviB32 f => some (touchImm f.g (f.d.setWidth 9))
  | .ciMoviHi f => some (touchImm f.g (f.d.setWidth 9))
  | .smov _ => none
  | .ixset _ => none
  | .xset _ => none
  | .vsave _ => none
  | .vrest _ => none
  | .ldg _ => none
  | .stg _ => none
  | .ldc _ => none
  | .pref _ => none
  | .atom _ => none
  | .red _ => none
  | .stm _ => none
  | .rwb _ => none
  | .rinv _ => none
  | .rwi _ => none
  | .freeze _ => none
  | .thaw _ => none
  | .frzqAddr _ => none
  | .frzqSeq _ => none
  | .frzqFree _ => none
  | .crdecl _ => none
  | .crrel _ => none
  | .crrelEnd _ => none
  | .promote _ => none
  | .fence _ => none
  | .acq _ => none
  | .rel _ => none
  | .waitc _ => none
  | .cntrd _ => none
  | .seqwaitChain _ => none
  | .seqwaitThaw _ => none
  | .seqwaitMem _ => none
  | .yieldpt _ => none
  | .txfer _ => none
  | .chpush _ => none
  | .chtail _ => none
  | .qfence _ => none
  | .bbinit _ => none
  | .bbarr _ => none
  | .bbwait _ => none
  | .grpdef _ => none
  | .grpdefDel _ => none
  | .clstat _ => none
  | .mma _ => none
  | .mmas _ => none
  | .mmag _ => none
  | .mmax _ => none
  | .accz _ => none
  | .task _ => none
  | .tdoneRun _ => none
  | .tdone _ => none
  | .ttok _ => none
  | .accrd _ => none
  | .accfree _ => none
  | .mstat _ => none
  | .mstatClr _ => none
  | .mstatCtl _ => none
  | .bra _ => none
  | .brx _ => none
  | .call _ => none
  | .callx _ => none
  | .ret _ => none
  | .land _ => none
  | .rcv _ => none
  | .exit _ => none
  | .loop _ => none
  | .loopSet _ => none
  | .loopSeti _ => none
  | .loopGet _ => none
  | .brk _ => none
  | .bar _ => none
  | .bara _ => none
  | .barw _ => none
  | .spawn _ => none
  | .syncw _ => none
  | .recruit _ => none
  | .hjoin _ => none
  | .hjoinHelper _ => none
  | .hrel _ => none
  | .nqpush _ => none
  | .nqtake _ => none
  | .nqtakeTry _ => none
  | .nqtakeRet _ => none
  | .hpush _ => none
  | .hdrain _ => none
  | .hclr _ => none
  | .trap _ => none
  | .tret _ => none
  | .tretSkip _ => none
  | .tretGet _ => none
  | .tretSet _ => none
  | .snap _ => none
  | .nop => none
  | .prioh _ => none
  | .loch _ => none
  | .hint _ => none
  | .cbBra _ => none
  | .cbLoopLc0 _ => none
  | .cbLoopLc1 _ => none
  | .cbLoopLc2 _ => none
  | .nop16 _ => none
  | .waitWake _ => none
  | .loadLimitWindow _ => none
  | .loadSetEntry _ => none
  | .pageWalk _ _ _ _ => none
  | .stopRecordsWrite _ => none
  | .loadReturn _ _ _ => none
  | .storeRetire _ => none
  | .holdMessage _ => none
  | .l1Evict _ _ => none
  | .writeBack _ => none
  | .storeAtHome _ => none
  | .atomicAtHome _ => none
  | .storeAck _ => none
  | .rangeRecall _ => none
  | .remoteRequest _ => none
  | .remoteReply _ => none
  | .hostWindowReply _ => none
  | .freezeMessage _ _ _ => none
  | .freezeAck _ _ => none
  | .collectionRequest _ _ => none
  | .collectionAck _ _ => none
  | .collectionStuck _ _ => none
  | .promoteRequest _ => none
  | .fenceConflict _ _ => none
  | .fenceComplete _ => none
  | .seqwaitPoll _ => none
  | .nopEntry _ => none
  | .copyEntry _ => none
  | .fillEntry _ => none
  | .qfenceEntry _ => none
  | .mqfillEntry _ => none
  | .bbarrEntry _ => none
  | .txeBeat _ => none
  | .entryComplete _ => none
  | .bbArrival _ => none
  | .plotterFetch _ _ _ _ => none
  | .quadrantBlockAdd _ _ => none
  | .acczZero _ _ => none
  | .accrdReturn _ _ => none
  | .accfreeEffect _ _ => none
  | .taskDispatch _ => none
  | .deferredCompletion _ _ => none
  | .flitCrcResend _ => none
  | .linkDown => none
  | .portDown _ => none
  | .scaleOutAbandon _ => none
  | .peerSilenceTimeout _ => none
  | .contributionBeat _ => none
  | .partialBeat _ => none
  | .buddyCopy _ => none
  | .groupTimeout _ _ _ _ => none
  | .destAckTimeout _ _ _ => none
  | .completionNotice _ => none
  | .launchDatagram _ => none
  | .placeTeam _ => none
  | .nodeDrainMessage _ => none
  | .privilegedDistribute _ => none
  | .distributorSteal _ _ => none
  | .taskTake _ _ => none
  | .crewComplete _ => none
  | .launchComplete _ => none
  | .nodePush _ => none
  | .nodeTimerExpiry _ => none
  | .nodePressureExpiry _ => none
  | .heapPushAtHome _ => none
  | .timeSliceExpiry _ => none
  | .tsliceEscalation _ => none
  | .watchdogExpiry _ => none
  | .crewEvict _ => none
  | .crewRestore _ => none
  | .rowRetire _ => none
  | .powerLimitThrottle _ => none
  | .snapinPin => none
  | .snapshotLatch => none
  | .powerOnReset => none
  | .failover => none
  | .ctxcreate _ _ => none
  | .ctxdestroy _ _ => none
  | .bindq _ _ _ _ _ => none
  | .unbindq _ _ => none
  | .halt _ _ => none
  | .release _ _ => none
  | .faultclr _ _ => none
  | .resume _ _ => none
  | .tlbinv _ _ _ _ => none
  | .ownkey _ _ => none
  | .thawforce _ _ _ => none
  | .snaptrig _ => none
  | .powerlim _ _ => none
  | .memrd _ _ _ _ => none
  | .memwr _ _ _ _ => none
  | .ctlrd _ _ _ _ => none
  | .ctlwr _ _ _ _ => none
  | .hostwin _ _ _ _ => none
  | .podjoin _ _ _ => none
  | .linkkey _ _ _ => none
  | .epset _ _ _ => none
  | .report _ _ => none
  | .dbgunlock _ _ => none
  | .lcadvance _ _ => none
  | .unassignedCommand _ _ => none
  | .getVersion _ => none
  | .getCapabilities _ => none
  | .negotiateAlgorithms _ => none
  | .getDigests _ => none
  | .getCertificate _ _ => none
  | .challenge _ _ => none
  | .getMeasurements _ _ => none
  | .keyExchange _ => none
  | .finish _ _ => none
  | .endSession _ => none
  | .heartbeat _ => none
  | .keyUpdate _ => none
  | .unsupportedRequest _ => none
  | .hctl _ => none
  | .hashComplete => none
  | .ectl _ => none
  | .verifyComplete => none
  | .mext _ => none
  | .hbeat _ => none
  | .unlock _ => none
  | .kctl _ => none
  | .wipeComplete => none
  | .dbgctl _ => none
  | .rxlen _ => none
  | .txlen _ => none
  | .rng => none
  | .registerWrite _ _ => none
  | .securedMessage _ => none
  | .portTraining _ _ => none

/-- What the branches, loops and hints and the loads, stores and atomics touch when they issue: a load's and an atomic's
registers are written when the access returns, and memory where the store queue drains. -/
def Instr.issueTouch (i : Instr) : Option Machine.Touch :=
  open Machine in
  match i with
  | .iadd _ => none
  | .isub _ => none
  | .iaddc _ => none
  | .isubb _ => none
  | .imul _ => none
  | .imulh _ => none
  | .imad _ => none
  | .idiv _ => none
  | .irem _ => none
  | .ineg _ => none
  | .iabs _ => none
  | .imin _ => none
  | .imax _ => none
  | .and _ => none
  | .or _ => none
  | .xor _ => none
  | .andn _ => none
  | .not _ => none
  | .shl _ => none
  | .shr _ => none
  | .sar _ => none
  | .rol _ => none
  | .funsh _ => none
  | .popc _ => none
  | .clz _ => none
  | .ctz _ => none
  | .brev _ => none
  | .bfe _ => none
  | .bfi _ => none
  | .prmb _ => none
  | .lea _ => none
  | .sel _ => none
  | .icmp _ => none
  | .plop _ => none
  | .pmov _ => none
  | .idot4 _ => none
  | .fadd _ => none
  | .fsub _ => none
  | .fmul _ => none
  | .ffma _ => none
  | .fmin _ => none
  | .fmax _ => none
  | .fminm _ => none
  | .fmaxm _ => none
  | .fabs _ => none
  | .fneg _ => none
  | .fcopys _ => none
  | .fcmp _ => none
  | .fclass _ => none
  | .frnd _ => none
  | .fcvt _ => none
  | .f2i _ => none
  | .i2f _ => none
  | .fscale _ => none
  | .fgete _ => none
  | .fdot2 _ => none
  | .rcp _ => none
  | .sqrt _ => none
  | .rsq _ => none
  | .exp2 _ => none
  | .log2 _ => none
  | .had32 _ => none
  | .bmax _ => none
  | .qnt _ => none
  | .dqnt _ => none
  | .shfl _ => none
  | .vote _ => none
  | .ballot _ => none
  | .matchLanes _ => none
  | .redc _ => none
  | .scan _ => none
  | .compact _ => none
  | .hist _ => none
  | .hmerge _ => none
  | .bsrch _ => none
  | .topk _ => none
  | .mov _ => none
  | .movi _ => none
  | .moviHi _ => none
  | .movs _ => none
  | .smov _ => none
  | .shape _ => none
  | .ixset _ => none
  | .movx _ => none
  | .xset _ => none
  | .perm _ => none
  | .ocld _ => none
  | .ocinv _ => none
  | .vsave f => some (touchNone f.g)
  | .vrest f => some (touchNone f.g)
  | .ldg f => some (touchNone f.g)
  | .stg f => some (touchNone f.g)
  | .ldc f => some (touchNone f.g)
  | .pref _ => none
  | .atom f => some (touchNone f.g)
  | .red f => some (touchNone f.g)
  | .stm f => some (touchNone f.g)
  | .rwb _ => none
  | .rinv _ => none
  | .rwi _ => none
  | .freeze _ => none
  | .thaw _ => none
  | .frzqAddr _ => none
  | .frzqSeq _ => none
  | .frzqFree _ => none
  | .crdecl _ => none
  | .crrel _ => none
  | .crrelEnd _ => none
  | .promote _ => none
  | .fence _ => none
  | .acq _ => none
  | .rel _ => none
  | .waitc _ => none
  | .cntrd _ => none
  | .seqwaitChain _ => none
  | .seqwaitThaw _ => none
  | .seqwaitMem _ => none
  | .yieldpt _ => none
  | .txfer _ => none
  | .chpush _ => none
  | .chtail _ => none
  | .qfence _ => none
  | .bbinit _ => none
  | .bbarr _ => none
  | .bbwait _ => none
  | .grpdef _ => none
  | .grpdefDel _ => none
  | .clstat _ => none
  | .mma _ => none
  | .mmas _ => none
  | .mmag _ => none
  | .mmax _ => none
  | .accz _ => none
  | .task _ => none
  | .tdoneRun _ => none
  | .tdone _ => none
  | .ttok _ => none
  | .accrd _ => none
  | .accfree _ => none
  | .mstat _ => none
  | .mstatClr _ => none
  | .mstatCtl _ => none
  | .bra f => some (touchNone f.g)
  | .brx _ => none
  | .call f => some ({ touchNone f.g with dsts := [(f.dst, 2)] })
  | .callx _ => none
  | .ret _ => none
  | .land f => some (touchNone f.g)
  | .rcv f => some (touchNone f.g)
  | .exit _ => none
  | .loop f => some (touchNone f.g)
  | .loopSet f => some (touchNone f.g)
  | .loopSeti f => some (touchNone f.g)
  | .loopGet f => some (touchImm f.g f.dst)
  | .brk f => some (touchNone f.g)
  | .bar _ => none
  | .bara _ => none
  | .barw _ => none
  | .spawn _ => none
  | .syncw _ => none
  | .recruit _ => none
  | .hjoin _ => none
  | .hjoinHelper _ => none
  | .hrel _ => none
  | .nqpush _ => none
  | .nqtake _ => none
  | .nqtakeTry _ => none
  | .nqtakeRet _ => none
  | .hpush _ => none
  | .hdrain _ => none
  | .hclr _ => none
  | .trap f => some (touchNone f.g)
  | .tret _ => none
  | .tretSkip _ => none
  | .tretGet _ => none
  | .tretSet _ => none
  | .snap _ => none
  | .nop => some (touchNone Guard.always)
  | .prioh _ => some (touchNone Guard.always)
  | .loch f => some (touchNone f.g)
  | .hint _ => some (touchNone Guard.always)
  | .c3IaddI32 _ => none
  | .c3IsubI32 _ => none
  | .c3ImulI32 _ => none
  | .c3ImulhI32 _ => none
  | .c3ImulhN32 _ => none
  | .c3IdivI32 _ => none
  | .c3IdivN32 _ => none
  | .c3IremI32 _ => none
  | .c3IremN32 _ => none
  | .c3IminI32 _ => none
  | .c3IminN32 _ => none
  | .c3ImaxI32 _ => none
  | .c3ImaxN32 _ => none
  | .c3AndB32 _ => none
  | .c3OrB32 _ => none
  | .c3XorB32 _ => none
  | .c3AndnB32 _ => none
  | .c3ShlB32 _ => none
  | .c3ShrB32 _ => none
  | .c3SarB32 _ => none
  | .c3RolB32 _ => none
  | .c3PrmbB32 _ => none
  | .c3InegI32 _ => none
  | .c3IabsI32 _ => none
  | .c3NotB32 _ => none
  | .c3PopcB32 _ => none
  | .c3ClzB32 _ => none
  | .c3CtzB32 _ => none
  | .c3BrevB32 _ => none
  | .c3IaddSatI32 _ => none
  | .c3IsubSatI32 _ => none
  | .c3MovB32 _ => none
  | .c3FaddF32 _ => none
  | .c3FsubF32 _ => none
  | .c3FmulF32 _ => none
  | .c3FminF32 _ => none
  | .c3FmaxF32 _ => none
  | .c3FminmF32 _ => none
  | .c3FmaxmF32 _ => none
  | .c3FcopysF32 _ => none
  | .c3FabsF32 _ => none
  | .c3FnegF32 _ => none
  | .c3FscaleF32 _ => none
  | .c3FgeteF32 _ => none
  | .c3FrndRneF32 _ => none
  | .c3FrndRtzF32 _ => none
  | .c3FrndRupF32 _ => none
  | .c3FrndRdnF32 _ => none
  | .c3F2iRtzI32F32 _ => none
  | .c3F2iRtzN32F32 _ => none
  | .c3F2iRneI32F32 _ => none
  | .c3F2iRneN32F32 _ => none
  | .c3I2fRneF32I32 _ => none
  | .c3I2fRneF32N32 _ => none
  | .c3FcvtRneBf16F32 _ => none
  | .c3FcvtRneF16F32 _ => none
  | .c3FcvtF32Bf16 _ => none
  | .c3FcvtF32F16 _ => none
  | .c3FclassF32 _ => none
  | .c3RcpF32 _ => none
  | .c3SqrtF32 _ => none
  | .c3RsqF32 _ => none
  | .c3Exp2F32 _ => none
  | .c3Log2F32 _ => none
  | .c3FaddF16x2 _ => none
  | .c3FsubF16x2 _ => none
  | .c3FmulF16x2 _ => none
  | .c3FminF16x2 _ => none
  | .c3FmaxF16x2 _ => none
  | .c3FabsF16x2 _ => none
  | .c3FnegF16x2 _ => none
  | .c3FcvtRneF16x2F32 _ => none
  | .c3FaddBf16x2 _ => none
  | .c3FsubBf16x2 _ => none
  | .c3FmulBf16x2 _ => none
  | .c3FminBf16x2 _ => none
  | .c3FmaxBf16x2 _ => none
  | .c3FabsBf16x2 _ => none
  | .c3FnegBf16x2 _ => none
  | .c3FcvtRneBf16x2F32 _ => none
  | .c3BfeN32 _ => none
  | .c3BfeI32 _ => none
  | .c3LeaS1 _ => none
  | .c3LeaS2 _ => none
  | .c3LeaS3 _ => none
  | .c3LeaS4 _ => none
  | .c3ShflAtB32 _ => none
  | .c3ShflXorB32 _ => none
  | .c3RedcAddI32 _ => none
  | .c3RedcMaxI32 _ => none
  | .c3RedcAddF32 _ => none
  | .c3RedcMaxF32 _ => none
  | .c3ScanAddI32 _ => none
  | .c3ScanAddF32 _ => none
  | .ciIaddI32 _ => none
  | .ciImulI32 _ => none
  | .ciAndB32 _ => none
  | .ciOrB32 _ => none
  | .ciXorB32 _ => none
  | .ciShlB32 _ => none
  | .ciShrB32 _ => none
  | .ciSarB32 _ => none
  | .ciIminI32 _ => none
  | .ciImaxI32 _ => none
  | .ciMoviB32 _ => none
  | .ciFscaleF32 _ => none
  | .ciMoviHi _ => none
  | .cbBra f => some (touchNone f.g)
  | .cbLoopLc0 f => some (touchNone f.g)
  | .cbLoopLc1 f => some (touchNone f.g)
  | .cbLoopLc2 f => some (touchNone f.g)
  | .s16Mov _ => none
  | .nop16 _ => some (touchNone Guard.always)
  | .s16Iadd _ => none
  | .s16Isub _ => none
  | .s16Imin _ => none
  | .s16Imax _ => none
  | .s16And _ => none
  | .s16Or _ => none
  | .s16Xor _ => none
  | .s16Shl _ => none
  | .s16Shr _ => none
  | .s16Sar _ => none
  | .s16Fadd _ => none
  | .s16Fsub _ => none
  | .s16Fmul _ => none
  | .s16Fmin _ => none
  | .s16Fmax _ => none
  | .waitWake _ => none
  | .loadLimitWindow _ => none
  | .loadSetEntry _ => none
  | .pageWalk _ _ _ _ => none
  | .stopRecordsWrite _ => none
  | .loadReturn _ _ _ => none
  | .storeRetire _ => none
  | .holdMessage _ => none
  | .l1Evict _ _ => none
  | .writeBack _ => none
  | .storeAtHome _ => none
  | .atomicAtHome _ => none
  | .storeAck _ => none
  | .rangeRecall _ => none
  | .remoteRequest _ => none
  | .remoteReply _ => none
  | .hostWindowReply _ => none
  | .freezeMessage _ _ _ => none
  | .freezeAck _ _ => none
  | .collectionRequest _ _ => none
  | .collectionAck _ _ => none
  | .collectionStuck _ _ => none
  | .promoteRequest _ => none
  | .fenceConflict _ _ => none
  | .fenceComplete _ => none
  | .seqwaitPoll _ => none
  | .nopEntry _ => none
  | .copyEntry _ => none
  | .fillEntry _ => none
  | .qfenceEntry _ => none
  | .mqfillEntry _ => none
  | .bbarrEntry _ => none
  | .txeBeat _ => none
  | .entryComplete _ => none
  | .bbArrival _ => none
  | .plotterFetch _ _ _ _ => none
  | .quadrantBlockAdd _ _ => none
  | .acczZero _ _ => none
  | .accrdReturn _ _ => none
  | .accfreeEffect _ _ => none
  | .taskDispatch _ => none
  | .deferredCompletion _ _ => none
  | .flitCrcResend _ => none
  | .linkDown => none
  | .portDown _ => none
  | .scaleOutAbandon _ => none
  | .peerSilenceTimeout _ => none
  | .contributionBeat _ => none
  | .partialBeat _ => none
  | .buddyCopy _ => none
  | .groupTimeout _ _ _ _ => none
  | .destAckTimeout _ _ _ => none
  | .completionNotice _ => none
  | .launchDatagram _ => none
  | .placeTeam _ => none
  | .nodeDrainMessage _ => none
  | .privilegedDistribute _ => none
  | .distributorSteal _ _ => none
  | .taskTake _ _ => none
  | .crewComplete _ => none
  | .launchComplete _ => none
  | .nodePush _ => none
  | .nodeTimerExpiry _ => none
  | .nodePressureExpiry _ => none
  | .heapPushAtHome _ => none
  | .timeSliceExpiry _ => none
  | .tsliceEscalation _ => none
  | .watchdogExpiry _ => none
  | .crewEvict _ => none
  | .crewRestore _ => none
  | .rowRetire _ => none
  | .powerLimitThrottle _ => none
  | .snapinPin => none
  | .snapshotLatch => none
  | .powerOnReset => none
  | .failover => none
  | .ctxcreate _ _ => none
  | .ctxdestroy _ _ => none
  | .bindq _ _ _ _ _ => none
  | .unbindq _ _ => none
  | .halt _ _ => none
  | .release _ _ => none
  | .faultclr _ _ => none
  | .resume _ _ => none
  | .tlbinv _ _ _ _ => none
  | .ownkey _ _ => none
  | .thawforce _ _ _ => none
  | .snaptrig _ => none
  | .powerlim _ _ => none
  | .memrd _ _ _ _ => none
  | .memwr _ _ _ _ => none
  | .ctlrd _ _ _ _ => none
  | .ctlwr _ _ _ _ => none
  | .hostwin _ _ _ _ => none
  | .podjoin _ _ _ => none
  | .linkkey _ _ _ => none
  | .epset _ _ _ => none
  | .report _ _ => none
  | .dbgunlock _ _ => none
  | .lcadvance _ _ => none
  | .unassignedCommand _ _ => none
  | .getVersion _ => none
  | .getCapabilities _ => none
  | .negotiateAlgorithms _ => none
  | .getDigests _ => none
  | .getCertificate _ _ => none
  | .challenge _ _ => none
  | .getMeasurements _ _ => none
  | .keyExchange _ => none
  | .finish _ _ => none
  | .endSession _ => none
  | .heartbeat _ => none
  | .keyUpdate _ => none
  | .unsupportedRequest _ => none
  | .hctl _ => none
  | .hashComplete => none
  | .ectl _ => none
  | .verifyComplete => none
  | .mext _ => none
  | .hbeat _ => none
  | .unlock _ => none
  | .kctl _ => none
  | .wipeComplete => none
  | .dbgctl _ => none
  | .rxlen _ => none
  | .txlen _ => none
  | .rng => none
  | .registerWrite _ _ => none
  | .securedMessage _ => none
  | .portTraining _ _ => none

end Sys2Proof
end

