-- ==== Sys2Proof/Certificates/Slice0/Obligations.lean ====
section
/-!
DEFINITION. The statements for the provers. Each says what an instruction or the machine does; the terms they share stand in
Sys2Proof/Safety.lean.
-/

open Sys2Proof Sys2Proof.Machine

/-- The integer, logic, shift, bit-field and address instructions write their rule's value (R246, R248, R249, R251, R252,
R253, R258, R259, R260, R261, R262, R263). The model's own choices in it: log entry 106. -/
def Obligations.IntegerInstructionResult : Prop :=
  (∀ f : L3,
    Int2 (.iadd f) 0x00 8 f none (fun w sg sat a b => narrow w sg sat (intOf w sg a + intOf w sg b)) ∧
    Int2 (.isub f) 0x01 8 f none (fun w sg sat a b => narrow w sg sat (intOf w sg a - intOf w sg b)) ∧
    Int2 (.imul f) 0x04 8 f none (fun _ _ _ a b => a * b) ∧
    Int2 (.imulh f) 0x05 8 f none (fun w sg _ a b => wrapN w ((intOf w sg a * intOf w sg b) / (2 : Int) ^ w)) ∧
    Int2 (.idiv f) 0x07 8 f none (fun w sg _ a b => (divRem w sg a b).1) ∧
    Int2 (.irem f) 0x08 8 f none (fun w sg _ a b => (divRem w sg a b).2) ∧
    Int2 (.imin f) 0x0B 8 f none (fun w sg _ a b => if intOf w sg b < intOf w sg a then b else a) ∧
    Int2 (.imax f) 0x0C 8 f none (fun w sg _ a b => if intOf w sg a < intOf w sg b then b else a) ∧
    Int2 (.and f) 0x0D 8 f none (fun _ _ _ a b => a &&& b) ∧
    Int2 (.or f) 0x0E 8 f none (fun _ _ _ a b => a ||| b) ∧
    Int2 (.xor f) 0x0F 8 f none (fun _ _ _ a b => a ^^^ b) ∧
    Int2 (.andn f) 0x10 8 f none (fun w _ _ a b => a &&& (2 ^ w - 1 - b))) ∧
  (∀ f : L3,
    Shift2 (.shl f) 0x12 8 f none (fun w a k => if k < w then a * 2 ^ k else 0) ∧
    Shift2 (.shr f) 0x13 8 f none (fun w a k => if k < w then a / 2 ^ k else 0) ∧
    Shift2 (.sar f) 0x14 8 f none (fun w a k => wrapN w (signed w a / (2 : Int) ^ min k (w - 1))) ∧
    Shift2 (.rol f) 0x15 8 f none (fun w a k => ((a <<< (k % w)) ||| (a >>> (w - k % w))) % 2 ^ w)) ∧
  (∀ f : L3,
    Int1 (.ineg f) 0x09 8 f false (fun w sat a => narrow w true sat (-(signed w a))) ∧
    Int1 (.iabs f) 0x0A 8 f false (fun w sat a => narrow w true sat (signed w a).natAbs) ∧
    Int1 (.not f) 0x11 8 f false (fun w _ a => 2 ^ w - 1 - a) ∧
    Int1 (.popc f) 0x17 8 f true (fun w _ a => popcVal w a) ∧
    Int1 (.clz f) 0x18 8 f true (fun w _ a => clzVal w a) ∧
    Int1 (.ctz f) 0x19 8 f true (fun w _ a => ctzVal w a) ∧
    Int1 (.brev f) 0x1A 8 f false (fun w _ a => brevVal w a)) ∧
  (∀ f : L3,
    (L3Form3 0x06 8 0 (intLegal 0x06 f.mod6) f (if imadWide f.mod6 then 2 else 1) 1 (if imadWide f.mod6 then 2 else 1)).Completes (.imad f)
      (fun _ r l => imadVal (f.mod6.toNat % 4) (laneVal (nthRun r 0) 32 l) (laneVal (nthRun r 1) 32 l)
        (laneVal (nthRun r 2) (32 * (if imadWide f.mod6 then 2 else 1)) l)) ∧
    Int3 (.funsh f) 0x16 8 f (funshVal (f.mod6.toNat % 4)) ∧
    Int3 (.bfi f) 0x1C 8 f bfiVal ∧
    Int3 (.idot4 f) 0x23 8 f (idot4Val (f.mod6.toNat % 4)) ∧
    IntAB (.bfe f) 0x1B 8 f 1 1 1 (fun a b => bfeVal (tySigned f.mod6) (a.getD 0 0) b) ∧
    IntAB (.prmb f) 0x1D 8 f 1 (if f.mod6.toNat / 8 = 0 then 2 else 4) 1 (prmbVal (f.mod6.toNat / 8)) ∧
    IntAB (.lea f) 0x1E 8 f 2 2 1 (fun a b => leaVal (f.mod6.toNat / 8) (f.mod6.getLsbD 0) (a.getD 0 0 + 2 ^ 32 * a.getD 1 0) b))

/-- IADDC, ISUBB, SEL, ICMP, PLOP and PMOV write their rule's values (R215, R246, R250, R254, R255, R256, R257). The model's
own choices in it: log entry 106. -/
def Obligations.CarrySelectionAndPredicateResult : Prop :=
  (∀ (f : L3) (s : State),
    (∀ x r, s.issueCx 0x02 8 f.g = some x → intLegal 0x02 f.mod6 = true → dstCheck x.c f.dst 1 true = .ok () →
      x.c.owed (.pred (f.mod6.toNat % 16)) = false → x.fetch (srcsAB f 1 1 none) = .ok r →
      let v := fun l => laneVal (nthRun r 0) 32 l + laneVal (nthRun r 1) 32 l + carryIn x.c f.mod6.toNat l
      ∃ sh, x.OnLanes sh (fun l => BitVec.ofNat 32 (v l)) ∧
        let o := x.writeResult f.dst f.ocw (some 0) (srcsAB f 1 1 none) [sh]
        exec (.iaddc f) s = .next ((Rsl.mk o.s ((o.c.supersede (.pred (f.mod6.toNat % 16)) x.act).writePred
          (f.mod6.toNat % 16) x.act (lanesWhere x.c.w (fun l => decide (2 ^ 32 ≤ v l)))) o.adv).finish x)) ∧
    (∀ x r, s.issueCx 0x03 8 f.g = some x → intLegal 0x03 f.mod6 = true → dstCheck x.c f.dst 1 true = .ok () →
      x.c.owed (.pred (f.mod6.toNat % 16)) = false → x.fetch (srcsAB f 1 1 none) = .ok r →
      let a := fun l => laneVal (nthRun r 0) 32 l
      let b := fun l => laneVal (nthRun r 1) 32 l + carryIn x.c f.mod6.toNat l
      ∃ sh, x.OnLanes sh (fun l => BitVec.ofNat 32 (a l) - BitVec.ofNat 32 (b l)) ∧
        let o := x.writeResult f.dst f.ocw (some 0) (srcsAB f 1 1 none) [sh]
        exec (.isubb f) s = .next ((Rsl.mk o.s ((o.c.supersede (.pred (f.mod6.toNat % 16)) x.act).writePred
          (f.mod6.toNat % 16) x.act (lanesWhere x.c.w (fun l => decide (a l < b l)))) o.adv).finish x)) ∧
    (∀ x r, s.issueCx 0x1F 8 f.g = some x → intLegal 0x1F f.mod6 = true →
      dstCheck x.c f.dst (if f.mod6.getLsbD 5 then 2 else 1) true = .ok () → x.c.owed (.pred (f.mod6.toNat % 16)) = false →
      x.fetch (srcsAB f (if f.mod6.getLsbD 5 then 2 else 1) (if f.mod6.getLsbD 5 then 2 else 1) none) = .ok r →
      ∃ shs : List Shape, shs.length = (if f.mod6.getLsbD 5 then 2 else 1) ∧
        (∀ i < shs.length, x.OnLanes (shs.getD i (.u 0)) (fun l =>
          (if (x.c.pred (f.mod6.toNat % 16)).getLsbD l != f.mod6.getLsbD 4 then (nthRun r 0).getD i ⟨.u 0, 0⟩
           else (nthRun r 1).getD i ⟨.u 0, 0⟩).at l)) ∧
        exec (.sel f) s = .next ((x.writeResult f.dst f.ocw (some 0)
          (srcsAB f (if f.mod6.getLsbD 5 then 2 else 1) (if f.mod6.getLsbD 5 then 2 else 1) none) shs).finish x))) ∧
  (∀ (f : L3) (s : State),
    (∀ x r n, s.issueCx 0x20 8 f.g = some x → intLegal 0x20 f.mod6 = true → predOf f.dst = some n →
      x.fetch (srcsAB f (tyWide f.mod6 / 32) (tyWide f.mod6 / 32) none) = .ok r →
      ∃ uni, exec (.icmp f) s = .next ((x.writePredResult n 0 (srcsAB f (tyWide f.mod6 / 32) (tyWide f.mod6 / 32) none) uni
        (fun l => icmpVal (f.mod6.toNat / 8) (tyWide f.mod6) (tySigned f.mod6) (laneVal (nthRun r 0) (tyWide f.mod6) l)
          (laneVal (nthRun r 1) (tyWide f.mod6) l))).finish x)) ∧
    (∀ x r, s.issueCx 0x20 8 f.g = some x → intLegal 0x20 f.mod6 = true → predOf f.dst = none →
      dstCheck x.c f.dst 1 true = .ok () → x.fetch (srcsAB f (tyWide f.mod6 / 32) (tyWide f.mod6 / 32) none) = .ok r →
      ∃ sh, x.OnLanes sh (fun l =>
          if icmpVal (f.mod6.toNat / 8) (tyWide f.mod6) (tySigned f.mod6) (laneVal (nthRun r 0) (tyWide f.mod6) l)
            (laneVal (nthRun r 1) (tyWide f.mod6) l) then 0xFFFFFFFF else 0) ∧
        exec (.icmp f) s = .next ((x.writeResult f.dst f.ocw (some 0)
          (srcsAB f (tyWide f.mod6 / 32) (tyWide f.mod6 / 32) none) [sh]).finish x)) ∧
    (∀ x d a b, s.issueCx 0x21 8 f.g = some x → intLegal 0x21 f.mod6 = true → predOf f.dst = some d →
      predSrc f.sa true 1 = .ok a → predSrc f.sb true 2 = .ok b → x.predOwed a = false → x.predOwed b = false →
      ∃ uni, exec (.plop f) s = .next ((x.writePredResult d 0 [] uni (fun l =>
        f.mod6.getLsbD ((if x.predBit a f.xa.toNat l then 2 else 0) + (if x.predBit b f.xb.toNat l then 1 else 0)))).finish x)) ∧
    (∀ x a, s.issueCx 0x22 8 f.g = some x → f.mod6 = 0 → dstCheck x.c f.dst 1 true = .ok () →
      predOf f.sa = some a → x.c.owed (.pred a) = false →
      ∃ sh, x.OnLanes sh (fun l => if x.predBit (some a) f.xa.toNat l then 1 else 0) ∧
        exec (.pmov f) s = .next ((x.writeResult f.dst f.ocw (some 0) [] [sh]).finish x)) ∧
    (∀ x a, s.issueCx 0x22 8 f.g = some x → f.mod6 = 1 → dstCheck x.c f.dst 2 true = .ok () →
      predOf f.sa = some a → x.c.owed (.pred a) = false →
      exec (.pmov f) s = .next ((x.writeResult f.dst f.ocw (some 0) []
        [.u (loWord (x.c.pred a &&& x.c.live)), .u (hiWord (x.c.pred a &&& x.c.live))]).finish x)) ∧
    (∀ x d r, s.issueCx 0x22 8 f.g = some x → f.mod6 = 2 → predOf f.dst = some d → x.fetch [f.srcA] = .ok r →
      ∃ uni, exec (.pmov f) s = .next ((x.writePredResult d 0 [f.srcA] uni (fun l => (nthOpd r 0).at l != 0)).finish x)) ∧
    (∀ x d r, s.issueCx 0x22 8 f.g = some x → f.mod6 = 3 → predOf f.dst = some d →
      x.once.fetch [{ f.srcA with k := 2 }] = .ok r →
      exec (.pmov f) s = .next ((x.writePredResult d 0 [{ f.srcA with k := 2 }] ((nthRun r 0).all (·.isU))
        (fun l => (pairAt (nthRun r 0) x.lane).getLsbD l)).finish x)))

/-- The compact, immediate and short integer forms write their long form's value (R39, R41, R249, R251, R252, R253, R258,
R261, R262, R263, R266, R267). -/
def Obligations.CompactIntegerResult : Prop :=
  (∀ f : C3,
    Int2 (.c3IaddI32 f) 0x00 4 (f.toL3 0) none (fun w sg sat a b => narrow w sg sat (intOf w sg a + intOf w sg b)) ∧
    Int2 (.c3IsubI32 f) 0x01 4 (f.toL3 0) none (fun w sg sat a b => narrow w sg sat (intOf w sg a - intOf w sg b)) ∧
    Int2 (.c3ImulI32 f) 0x04 4 (f.toL3 0) none (fun _ _ _ a b => a * b) ∧
    Int2 (.c3ImulhI32 f) 0x05 4 (f.toL3 0) none (fun w sg _ a b => wrapN w ((intOf w sg a * intOf w sg b) / (2 : Int) ^ w)) ∧
    Int2 (.c3ImulhN32 f) 0x05 4 (f.toL3 1) none (fun w sg _ a b => wrapN w ((intOf w sg a * intOf w sg b) / (2 : Int) ^ w)) ∧
    Int2 (.c3IdivI32 f) 0x07 4 (f.toL3 0) none (fun w sg _ a b => (divRem w sg a b).1) ∧
    Int2 (.c3IdivN32 f) 0x07 4 (f.toL3 1) none (fun w sg _ a b => (divRem w sg a b).1) ∧
    Int2 (.c3IremI32 f) 0x08 4 (f.toL3 0) none (fun w sg _ a b => (divRem w sg a b).2) ∧
    Int2 (.c3IremN32 f) 0x08 4 (f.toL3 1) none (fun w sg _ a b => (divRem w sg a b).2) ∧
    Int2 (.c3IminI32 f) 0x0B 4 (f.toL3 0) none (fun w sg _ a b => if intOf w sg b < intOf w sg a then b else a) ∧
    Int2 (.c3IminN32 f) 0x0B 4 (f.toL3 1) none (fun w sg _ a b => if intOf w sg b < intOf w sg a then b else a) ∧
    Int2 (.c3ImaxI32 f) 0x0C 4 (f.toL3 0) none (fun w sg _ a b => if intOf w sg a < intOf w sg b then b else a) ∧
    Int2 (.c3ImaxN32 f) 0x0C 4 (f.toL3 1) none (fun w sg _ a b => if intOf w sg a < intOf w sg b then b else a) ∧
    Int2 (.c3AndB32 f) 0x0D 4 (f.toL3 0) none (fun _ _ _ a b => a &&& b) ∧
    Int2 (.c3OrB32 f) 0x0E 4 (f.toL3 0) none (fun _ _ _ a b => a ||| b) ∧
    Int2 (.c3XorB32 f) 0x0F 4 (f.toL3 0) none (fun _ _ _ a b => a ^^^ b) ∧
    Int2 (.c3AndnB32 f) 0x10 4 (f.toL3 0) none (fun w _ _ a b => a &&& (2 ^ w - 1 - b)) ∧
    Int2 (.c3IaddSatI32 f) 0x00 4 (f.toL3 4) none (fun w sg sat a b => narrow w sg sat (intOf w sg a + intOf w sg b)) ∧
    Int2 (.c3IsubSatI32 f) 0x01 4 (f.toL3 4) none (fun w sg sat a b => narrow w sg sat (intOf w sg a - intOf w sg b)) ∧
    Shift2 (.c3ShlB32 f) 0x12 4 (f.toL3 0) none (fun w a k => if k < w then a * 2 ^ k else 0) ∧
    Shift2 (.c3ShrB32 f) 0x13 4 (f.toL3 0) none (fun w a k => if k < w then a / 2 ^ k else 0) ∧
    Shift2 (.c3SarB32 f) 0x14 4 (f.toL3 0) none (fun w a k => wrapN w (signed w a / (2 : Int) ^ min k (w - 1))) ∧
    Shift2 (.c3RolB32 f) 0x15 4 (f.toL3 0) none (fun w a k => ((a <<< (k % w)) ||| (a >>> (w - k % w))) % 2 ^ w)) ∧
  (∀ f : C3,
    Int1 (.c3InegI32 f) 0x09 4 (f.toL3u 0) false (fun w sat a => narrow w true sat (-(signed w a))) ∧
    Int1 (.c3IabsI32 f) 0x0A 4 (f.toL3u 0) false (fun w sat a => narrow w true sat (signed w a).natAbs) ∧
    Int1 (.c3NotB32 f) 0x11 4 (f.toL3u 0) false (fun w _ a => 2 ^ w - 1 - a) ∧
    Int1 (.c3PopcB32 f) 0x17 4 (f.toL3u 0) true (fun w _ a => popcVal w a) ∧
    Int1 (.c3ClzB32 f) 0x18 4 (f.toL3u 0) true (fun w _ a => clzVal w a) ∧
    Int1 (.c3CtzB32 f) 0x19 4 (f.toL3u 0) true (fun w _ a => ctzVal w a) ∧
    Int1 (.c3BrevB32 f) 0x1A 4 (f.toL3u 0) false (fun w _ a => brevVal w a) ∧
    IntAB (.c3PrmbB32 f) 0x1D 4 (f.toL3 0) 1 2 1 (prmbVal 0) ∧
    IntAB (.c3BfeI32 f) 0x1B 4 (f.toL3 0) 1 1 1 (fun a b => bfeVal true (a.getD 0 0) b) ∧
    IntAB (.c3BfeN32 f) 0x1B 4 (f.toL3 1) 1 1 1 (fun a b => bfeVal false (a.getD 0 0) b) ∧
    IntAB (.c3LeaS1 f) 0x1E 4 (f.toL3 8) 2 2 1 (fun a b => leaVal 1 false (a.getD 0 0 + 2 ^ 32 * a.getD 1 0) b) ∧
    IntAB (.c3LeaS2 f) 0x1E 4 (f.toL3 16) 2 2 1 (fun a b => leaVal 2 false (a.getD 0 0 + 2 ^ 32 * a.getD 1 0) b) ∧
    IntAB (.c3LeaS3 f) 0x1E 4 (f.toL3 24) 2 2 1 (fun a b => leaVal 3 false (a.getD 0 0 + 2 ^ 32 * a.getD 1 0) b) ∧
    IntAB (.c3LeaS4 f) 0x1E 4 (f.toL3 32) 2 2 1 (fun a b => leaVal 4 false (a.getD 0 0 + 2 ^ 32 * a.getD 1 0) b)) ∧
  ((∀ f : CI,
    Int2 (.ciIaddI32 f) 0x00 4 (f.toL3 0) (some (f.imm.signExtend 32)) (fun w sg sat a b => narrow w sg sat (intOf w sg a + intOf w sg b)) ∧
    Int2 (.ciImulI32 f) 0x04 4 (f.toL3 0) (some (f.imm.signExtend 32)) (fun _ _ _ a b => a * b) ∧
    Int2 (.ciAndB32 f) 0x0D 4 (f.toL3 0) (some (f.imm.signExtend 32)) (fun _ _ _ a b => a &&& b) ∧
    Int2 (.ciOrB32 f) 0x0E 4 (f.toL3 0) (some (f.imm.signExtend 32)) (fun _ _ _ a b => a ||| b) ∧
    Int2 (.ciXorB32 f) 0x0F 4 (f.toL3 0) (some (f.imm.signExtend 32)) (fun _ _ _ a b => a ^^^ b) ∧
    Int2 (.ciIminI32 f) 0x0B 4 (f.toL3 0) (some (f.imm.signExtend 32)) (fun w sg _ a b => if intOf w sg b < intOf w sg a then b else a) ∧
    Int2 (.ciImaxI32 f) 0x0C 4 (f.toL3 0) (some (f.imm.signExtend 32)) (fun w sg _ a b => if intOf w sg a < intOf w sg b then b else a) ∧
    Shift2 (.ciShlB32 f) 0x12 4 (f.toL3 0) (some (f.imm.signExtend 32 &&& 31)) (fun w a k => if k < w then a * 2 ^ k else 0) ∧
    Shift2 (.ciShrB32 f) 0x13 4 (f.toL3 0) (some (f.imm.signExtend 32 &&& 31)) (fun w a k => if k < w then a / 2 ^ k else 0) ∧
    Shift2 (.ciSarB32 f) 0x14 4 (f.toL3 0) (some (f.imm.signExtend 32 &&& 31)) (fun w a k => wrapN w (signed w a / (2 : Int) ^ min k (w - 1)))) ∧
  (∀ f : S16,
    Int2 (.s16Iadd f) 0x00 2 (f.toC3.toL3 0) none (fun w sg sat a b => narrow w sg sat (intOf w sg a + intOf w sg b)) ∧
    Int2 (.s16Isub f) 0x01 2 (f.toC3.toL3 0) none (fun w sg sat a b => narrow w sg sat (intOf w sg a - intOf w sg b)) ∧
    Int2 (.s16Imin f) 0x0B 2 (f.toC3.toL3 0) none (fun w sg _ a b => if intOf w sg b < intOf w sg a then b else a) ∧
    Int2 (.s16Imax f) 0x0C 2 (f.toC3.toL3 0) none (fun w sg _ a b => if intOf w sg a < intOf w sg b then b else a) ∧
    Int2 (.s16And f) 0x0D 2 (f.toC3.toL3 0) none (fun _ _ _ a b => a &&& b) ∧
    Int2 (.s16Or f) 0x0E 2 (f.toC3.toL3 0) none (fun _ _ _ a b => a ||| b) ∧
    Int2 (.s16Xor f) 0x0F 2 (f.toC3.toL3 0) none (fun _ _ _ a b => a ^^^ b) ∧
    Shift2 (.s16Shl f) 0x12 2 (f.toC3.toL3 0) none (fun w a k => if k < w then a * 2 ^ k else 0) ∧
    Shift2 (.s16Shr f) 0x13 2 (f.toC3.toL3 0) none (fun w a k => if k < w then a / 2 ^ k else 0) ∧
    Shift2 (.s16Sar f) 0x14 2 (f.toC3.toL3 0) none (fun w a k => wrapN w (signed w a / (2 : Int) ^ min k (w - 1)))))

/-- The floating-point instructions and conversions write their rule's value and raise its flags (R246, R268, R272, R273,
R276, R277, R278, R279, R281, R282, R283, R284). -/
def Obligations.FloatInstructionResult : Prop :=
  (∀ f : L3,
    Fp2 (.fadd f) 0x30 8 f (fun t m a b => t.addC m a b) ∧
    Fp2 (.fsub f) 0x31 8 f (fun t m a b => t.subC m a b) ∧
    Fp2 (.fmul f) 0x32 8 f (fun t m a b => t.mulC m a b) ∧
    Fp2 (.fmin f) 0x34 8 f (fun t _ a b => t.minC false a b) ∧
    Fp2 (.fmax f) 0x35 8 f (fun t _ a b => t.minC true a b) ∧
    Fp2 (.fminm f) 0x36 8 f (fun t _ a b => t.minmC false a b) ∧
    Fp2 (.fmaxm f) 0x37 8 f (fun t _ a b => t.minmC true a b) ∧
    Fp2 (.fcopys f) 0x3A 8 f (fun t _ a b => t.setSign a (b.testBit (t.e + t.m))) ∧
    (let t := ftOf (match f.mod6.toNat % 4 with | 0 => 0 | 1 => 1 | 2 => 4 | _ => 5)
     (L3Form3 0x33 8 1 (floatLegal 0x33 f.mod6 f.sb) f t.k t.k t.k).FpCompletes (.ffma f) canAll (fun _ r l =>
       t.map3 (fun a b c => t.fmt.fmaC 0 a b c) (laneVal (nthRun r 0) t.w l) (laneVal (nthRun r 1) t.w l) (laneVal (nthRun r 2) t.w l))) ∧
    (let t := if f.mod6.toNat % 4 = 0 then bf16 else f16
     let e := fun (v k : Nat) => t.value (v / 2 ^ (16 * k) % 2 ^ 16)
     (L3Form3 0x43 8 1 (floatLegal 0x43 f.mod6 f.sb) f 1 1 1).Completes (.fdot2 f) (fun _ r l =>
       let a := laneVal (nthRun r 0) 32 l
       let b := laneVal (nthRun r 1) 32 l
       dotAcc (laneVal (nthRun r 2) 32 l) [dotProd (e a 0) (e b 0), dotProd (e a 1) (e b 1)]))) ∧
  (∀ f : L3,
    Fp1 (.fabs f) 0x38 8 f (fk f) (fun t _ a => t.setSign a false) ∧
    Fp1 (.fneg f) 0x39 8 f (fk f) (fun t _ a => t.setSign a (!a.testBit (t.e + t.m))) ∧
    Fp1 (.frnd f) 0x3D 8 f (fk f) (fun t m a => t.rndC m a) ∧
    Fp1 (.fgete f) 0x42 8 f 1 (fun t _ a => t.geteC a) ∧
    Fp1 (.fclass f) 0x3C 8 f 1 (fun t _ a => (t.classC a, 0)) ∧
    FpScale (.fscale f) 8 f none ∧
    FpConvert (.fcvt f) 8 f ∧
    FpToInt (.f2i f) 8 f ∧
    FpOfInt (.i2f f) 8 f)

/-- FCMP, the special functions, HAD32, BMAX, QNT and DQNT leave their rule's value (R26, R246, R273, R280, R285, R286,
R287, R289, R290, R291, R292). The model's own choices in it: log entries 16, 32. -/
def Obligations.FloatComparisonAndFunctionResult : Prop :=
  (∀ (f : L3) (s : State) (x : Cx) (r : List (List Opd)),
    let t := ftOf (f.mod6.toNat % 8)
    let srcs := srcsAB f t.k t.k none
    let cond := fun l => t.fmt.cmpC (f.mod6.toNat / 8) (t.el (laneVal (nthRun r 0) t.w l) 0) (t.el (laneVal (nthRun r 1) t.w l) 0)
    let fl := x.raised (fun l => (cond l).2)
    s.issueCx 0x3B 8 f.g = some x → floatLegal 0x3B f.mod6 f.sb = true → x.fetch srcs = .ok r → fl &&& x.enabled canAll = 0 →
    (∀ n, predOf f.dst = some n →
      ∃ uni, let o := x.writePredResult n 1 srcs uni (fun l => (cond l).1)
        exec (.fcmp f) s = .next ((Rsl.mk o.s (o.c.orFlags fl) o.adv).finish x)) ∧
    (predOf f.dst = none → dstCheck x.c f.dst 1 true = .ok () →
      ∃ sh, x.OnLanes sh (fun l => if (cond l).1 then 0xFFFFFFFF else 0) ∧
        let o := x.writeResult f.dst f.ocw (some 1) srcs [sh]
        exec (.fcmp f) s = .next ((Rsl.mk o.s (o.c.orFlags fl) o.adv).finish x))) ∧
  (∀ f : L3,
    FpFun (.rcp f) 0x50 8 f (fk f) (fun t m a => t.funC 0 m a) ∧
    FpFun (.sqrt f) 0x51 8 f (fk f) (fun t m a => t.funC 1 m a) ∧
    FpFun (.rsq f) 0x52 8 f (fk f) (fun t m a => t.funC 2 m a) ∧
    FpFun (.exp2 f) 0x53 8 f 1 (fun _ _ a => exp2C a) ∧
    FpFun (.log2 f) 0x54 8 f 1 (fun _ _ a => log2C a) ∧
    (∀ s x r, s.issueCx 0x55 8 f.g = some x → floatLegal 0x55 f.mod6 f.sb = true → x.c.w = 32 ∨ x.c.w = 64 →
      dstCheck x.c f.dst 1 true = .ok () → (x.blocks f.srcA).fetchRaw [f.srcA] = .ok r →
      x.poisonCheck [{ nthOpd r 0 with poison := blockPoison (nthOpd r 0) }] = .ok () →
      ∃ sh, (∀ l < x.c.w, sh.at l =
          BitVec.ofNat 32 ((had32Block f.mod6.toNat (blockOf x f.srcA (nthOpd r 0) (l / 32 * 32))).getD (l % 32) 0)) ∧
        exec (.had32 f) s = .next ((x.pendResult f.dst f.ocw (some 2) [f.srcA] [sh] f.la.toNat 0).finish x)) ∧
    (∀ s x r, s.issueCx 0x56 8 f.g = some x → floatLegal 0x56 f.mod6 f.sb = true → x.c.w = 32 ∨ x.c.w = 64 →
      dstCheck x.c f.dst 1 true = .ok () → (x.blocks f.srcA).fetchRaw [f.srcA] = .ok r →
      x.poisonCheck [{ nthOpd r 0 with poison := blockPoison (nthOpd r 0) }] = .ok () →
      ∃ sh, (∀ l < x.c.w, sh.at l = BitVec.ofNat 32 (bmaxBlock f.mod6.toNat (blockOf x f.srcA (nthOpd r 0) (l / 32 * 32)))) ∧
        exec (.bmax f) s = .next ((x.pendResult f.dst f.ocw (some 2) [f.srcA] [sh] f.la.toNat 0).finish x)) ∧
    (∀ s x r, s.issueCx 0x57 8 f.g = some x → floatLegal 0x57 f.mod6 f.sb = true → dstCheck x.c f.dst 1 true = .ok () →
      x.fetch [f.srcA, f.srcB, qntDst f] = .ok r →
      let t := qFmt (f.mod6.toNat % 4)
      let lo := t.w * (f.mod6.toNat / 4)
      ∃ sh, (∀ l < x.c.w, (sh.at l).toNat =
          (laneVal (nthRun r 2) 32 l - (laneVal (nthRun r 2) 32 l >>> lo % 2 ^ t.w) * 2 ^ lo +
            qntC t (laneVal (nthRun r 0) 32 l) (laneVal (nthRun r 1) 32 l % 256) * 2 ^ lo) % 2 ^ 32) ∧
        exec (.qnt f) s = .next ((x.pendResult f.dst f.ocw (some 2) [f.srcA, f.srcB, qntDst f] [sh] f.la.toNat 0).finish x)) ∧
    (∀ s x r, s.issueCx 0x58 8 f.g = some x → floatLegal 0x58 f.mod6 f.sb = true → dstCheck x.c f.dst 1 true = .ok () →
      x.fetch (srcsAB f 1 1 none) = .ok r →
      let t := qFmt (f.mod6.toNat % 4)
      ∃ sh, (∀ l < x.c.w, (sh.at l).toNat =
          dqntC t (laneVal (nthRun r 0) 32 l >>> (t.w * (f.mod6.toNat / 4)) % 2 ^ t.w) (laneVal (nthRun r 1) 32 l % 256) % 2 ^ 32) ∧
        exec (.dqnt f) s = .next ((x.pendResult f.dst f.ocw (some 2) (srcsAB f 1 1 none) [sh] f.la.toNat 0).finish x)))

/-- The compact, immediate and short floating-point forms write their long form's value (R39, R41, R276, R277, R281, R282,
R284, R285, R293). -/
def Obligations.CompactFloatResult : Prop :=
  (∀ f : C3,
    Fp2 (.c3FaddF32 f) 0x30 4 (f.toL3 0) (fun t m a b => t.addC m a b) ∧
    Fp2 (.c3FsubF32 f) 0x31 4 (f.toL3 0) (fun t m a b => t.subC m a b) ∧
    Fp2 (.c3FmulF32 f) 0x32 4 (f.toL3 0) (fun t m a b => t.mulC m a b) ∧
    Fp2 (.c3FminF32 f) 0x34 4 (f.toL3 0) (fun t _ a b => t.minC false a b) ∧
    Fp2 (.c3FmaxF32 f) 0x35 4 (f.toL3 0) (fun t _ a b => t.minC true a b) ∧
    Fp2 (.c3FminmF32 f) 0x36 4 (f.toL3 0) (fun t _ a b => t.minmC false a b) ∧
    Fp2 (.c3FmaxmF32 f) 0x37 4 (f.toL3 0) (fun t _ a b => t.minmC true a b) ∧
    Fp2 (.c3FcopysF32 f) 0x3A 4 (f.toL3 0) (fun t _ a b => t.setSign a (b.testBit (t.e + t.m))) ∧
    Fp2 (.c3FaddF16x2 f) 0x30 4 (f.toL3 4) (fun t m a b => t.addC m a b) ∧
    Fp2 (.c3FsubF16x2 f) 0x31 4 (f.toL3 4) (fun t m a b => t.subC m a b) ∧
    Fp2 (.c3FmulF16x2 f) 0x32 4 (f.toL3 4) (fun t m a b => t.mulC m a b) ∧
    Fp2 (.c3FminF16x2 f) 0x34 4 (f.toL3 4) (fun t _ a b => t.minC false a b) ∧
    Fp2 (.c3FmaxF16x2 f) 0x35 4 (f.toL3 4) (fun t _ a b => t.minC true a b) ∧
    Fp2 (.c3FaddBf16x2 f) 0x30 4 (f.toL3 5) (fun t m a b => t.addC m a b) ∧
    Fp2 (.c3FsubBf16x2 f) 0x31 4 (f.toL3 5) (fun t m a b => t.subC m a b) ∧
    Fp2 (.c3FmulBf16x2 f) 0x32 4 (f.toL3 5) (fun t m a b => t.mulC m a b) ∧
    Fp2 (.c3FminBf16x2 f) 0x34 4 (f.toL3 5) (fun t _ a b => t.minC false a b) ∧
    Fp2 (.c3FmaxBf16x2 f) 0x35 4 (f.toL3 5) (fun t _ a b => t.minC true a b) ∧
    Fp1 (.c3FabsF32 f) 0x38 4 (f.toL3u 0) 1 (fun t _ a => t.setSign a false) ∧
    Fp1 (.c3FnegF32 f) 0x39 4 (f.toL3u 0) 1 (fun t _ a => t.setSign a (!a.testBit (t.e + t.m))) ∧
    Fp1 (.c3FabsF16x2 f) 0x38 4 (f.toL3u 4) 1 (fun t _ a => t.setSign a false) ∧
    Fp1 (.c3FnegF16x2 f) 0x39 4 (f.toL3u 4) 1 (fun t _ a => t.setSign a (!a.testBit (t.e + t.m))) ∧
    Fp1 (.c3FabsBf16x2 f) 0x38 4 (f.toL3u 5) 1 (fun t _ a => t.setSign a false) ∧
    Fp1 (.c3FnegBf16x2 f) 0x39 4 (f.toL3u 5) 1 (fun t _ a => t.setSign a (!a.testBit (t.e + t.m))) ∧
    Fp1 (.c3FgeteF32 f) 0x42 4 (f.toL3u 0) 1 (fun t _ a => t.geteC a) ∧
    Fp1 (.c3FrndRneF32 f) 0x3D 4 (f.toL3u 0) 1 (fun t m a => t.rndC m a) ∧
    Fp1 (.c3FrndRtzF32 f) 0x3D 4 (f.toL3u 8) 1 (fun t m a => t.rndC m a) ∧
    Fp1 (.c3FrndRupF32 f) 0x3D 4 (f.toL3u 16) 1 (fun t m a => t.rndC m a) ∧
    Fp1 (.c3FrndRdnF32 f) 0x3D 4 (f.toL3u 24) 1 (fun t m a => t.rndC m a) ∧
    Fp1 (.c3FclassF32 f) 0x3C 4 (f.toL3u 0) 1 (fun t _ a => (t.classC a, 0))) ∧
  ((∀ f : C3,
    FpScale (.c3FscaleF32 f) 4 (f.toL3 0) none ∧
    FpToInt (.c3F2iRtzI32F32 f) 4 (f.toL3u 16) ∧
    FpToInt (.c3F2iRtzN32F32 f) 4 (f.toL3u 20) ∧
    FpToInt (.c3F2iRneI32F32 f) 4 (f.toL3u 0) ∧
    FpToInt (.c3F2iRneN32F32 f) 4 (f.toL3u 4) ∧
    FpOfInt (.c3I2fRneF32I32 f) 4 (f.toL3u 0) ∧
    FpOfInt (.c3I2fRneF32N32 f) 4 (f.toL3u 4) ∧
    FpConvert (.c3FcvtRneBf16F32 f) 4 { f.toL3 0 with sb := 0x18 } ∧
    FpConvert (.c3FcvtRneF16F32 f) 4 { f.toL3 0 with sb := 0x10 } ∧
    FpConvert (.c3FcvtF32Bf16 f) 4 { f.toL3 0 with sb := 0x03 } ∧
    FpConvert (.c3FcvtF32F16 f) 4 { f.toL3 0 with sb := 0x02 } ∧
    FpConvert (.c3FcvtRneF16x2F32 f) 4 (f.toL3 2) ∧
    FpConvert (.c3FcvtRneBf16x2F32 f) 4 (f.toL3 3) ∧
    FpFun (.c3RcpF32 f) 0x50 4 (f.toL3u 0) 1 (fun t m a => t.funC 0 m a) ∧
    FpFun (.c3SqrtF32 f) 0x51 4 (f.toL3u 0) 1 (fun t m a => t.funC 1 m a) ∧
    FpFun (.c3RsqF32 f) 0x52 4 (f.toL3u 0) 1 (fun t m a => t.funC 2 m a) ∧
    FpFun (.c3Exp2F32 f) 0x53 4 (f.toL3u 0) 1 (fun _ _ a => exp2C a) ∧
    FpFun (.c3Log2F32 f) 0x54 4 (f.toL3u 0) 1 (fun _ _ a => log2C a)) ∧
  (∀ f : CI, FpScale (.ciFscaleF32 f) 4 (f.toL3 0) (some (f.imm.signExtend 32))) ∧
  (∀ f : S16,
    Fp2 (.s16Fadd f) 0x30 2 (f.toC3.toL3 0) (fun t m a b => t.addC m a b) ∧
    Fp2 (.s16Fsub f) 0x31 2 (f.toC3.toL3 0) (fun t m a b => t.subC m a b) ∧
    Fp2 (.s16Fmul f) 0x32 2 (f.toC3.toL3 0) (fun t m a b => t.mulC m a b) ∧
    Fp2 (.s16Fmin f) 0x34 2 (f.toC3.toL3 0) (fun t _ a b => t.minC false a b) ∧
    Fp2 (.s16Fmax f) 0x35 2 (f.toC3.toL3 0) (fun t _ a b => t.minC true a b)))

/-- The moves write their words, MOVS reads and SMOV writes special registers (R26, R40, R41, R215, R232, R233, R234, R272,
R408, R438). The model's own choices in it: log entry 45. -/
def Obligations.MoveAndSpecialRegisterResult : Prop :=
  ((∀ f : L3, Moves (.mov f) 0x70 8 f 1 ∧ (movxCount f.mod6 ≠ 0 → Moves (.movx f) 0x76 8 f (movxCount f.mod6))) ∧
  (∀ f : C3, Moves (.c3MovB32 f) 0x70 4 (f.toL3u 0) 1) ∧
  (∀ f : S16, Moves (.s16Mov f) 0x70 2 ({ f.toC3 with a := f.a.setWidth 6 }.toL3u 0) 1) ∧
  (∀ (f : LI) s x, s.issueCx 0x71 8 f.g = some x → f.md = 0 → dstCheck x.c f.dst 1 true = .ok () →
    exec (.movi f) s = .next ((x.writeResult f.dst 0 (some 3) [] [.u (f.imm.signExtend 32)]).finish x)) ∧
  (∀ (f : CI) s x, s.issueCx 0x71 4 f.g = some x → dstCheck x.c (f.d.setWidth 9) 1 true = .ok () →
    exec (.ciMoviB32 f) s = .next ((x.writeResult (f.d.setWidth 9) 0 (some 3) [] [.u (f.imm.signExtend 32)]).finish x)) ∧
  (∀ f : LI, f.md = 1 → MovesHigh (.moviHi f) 8 f.g f.dst f.imm.toNat) ∧
  (∀ f : CI, MovesHigh (.ciMoviHi f) 4 f.g (f.d.setWidth 9) f.imm.toNat)) ∧
  (∀ (f : L3) (s : State) (x : Cx),
    (∀ shs, s.issueCx 0x72 8 f.g = some x → x.special f.mod6.toNat = some shs → dstCheck x.c f.dst shs.length true = .ok () →
      (f.mod6.toNat < 0x30 → exec (.movs f) s = .next ((x.writeResult f.dst f.ocw (some 3) [] shs).finish x)) ∧
      (0x30 ≤ f.mod6.toNat → exec (.movs f) s = .next ((x.pendResult f.dst f.ocw (some 3) [] shs f.la.toNat 0).finish x))) ∧
    (∀ k r, s.issueCx 0x73 8 f.g = some x → smovWords f.mod6.toNat = some k → x.peek [f.srcN k] = .ok r →
      x.once.deadReads [f.srcN k] = .ok () → x.once.poisonCheck r.flatten = .ok () →
      let c := x.c.emptySrcs [f.srcN k]
      let w := (nthOpd r 0).at x.lane
      let put := fun (c : Crew) => exec (.smov f) s = .next ((Rsl.mk x.s c true).finish x)
      (x.act = 0 → put c) ∧
      (x.act ≠ 0 → f.mod6.toNat = 0x0A → put { c with xdist := w }) ∧
      (x.act ≠ 0 → f.mod6.toNat = 0x0B → put { c with xsel := w }) ∧
      (x.act ≠ 0 → f.mod6.toNat = 0x16 → put { c with fpctl := fpctlWrite w }) ∧
      (x.act ≠ 0 → f.mod6.toNat = 0x17 → put { c with fpflags := w &&& 0x1F }) ∧
      (x.act ≠ 0 → f.mod6.toNat = 0x1A → put { c with dre := w.getLsbD 0 }) ∧
      (x.act ≠ 0 → f.mod6.toNat = 0x09 → ∀ o, exmaskWrite x c (pairAt (nthRun r 0) x.lane) = .ok o →
        exec (.smov f) s = .next (o.finish x))))

/-- SHAPE, PERM, OCLD, OCINV, IXSET and XSET write what their rules give (R101, R221, R224, R225, R227, R228, R235, R236,
R237, R238). -/
def Obligations.ShapeIndexAndCrossbarResult : Prop :=
  (∀ (f : L3) (s : State) (x : Cx),
    (s.issueCx 0x74 8 f.g = some x → f.mod6.toNat % 4 = 0 → dstCheck x.c f.dst 1 true = .ok () →
      srcCheck x.c { f.srcA with xc := 0, dead := false } = .ok () → x.owedSrc { f.srcA with xc := 0, dead := false } = false →
      ∃ sh, x.OnLanes sh (fun l => match place f.sa with
          | some .zero => 0
          | some (.rv n) => BitVec.ofNat 32 (shapeCode (x.recruiter.bind (fun r => mget r.1.regs n)))
          | some pl => BitVec.ofNat 32 (shapeCode (x.cell pl 0 l))
          | none => 0) ∧
        ((∀ n, place f.sa ≠ some (.ix n)) → sh.IsU) ∧
        exec (.shape f) s = .next ((x.writeResult f.dst f.ocw (some 3) [] [sh]).finish x)) ∧
    (∀ r, s.issueCx 0x74 8 f.g = some x → f.mod6.toNat % 4 = 1 ∨ f.mod6.toNat % 4 = 2 → dstCheck x.c f.dst 1 true = .ok () →
      x.fetch [f.srcA] = .ok r →
      let o := nthOpd r 0
      let same := ∀ l < 64, x.c.live.getLsbD l = true → o.at l = o.at ((laneList x.c.live).headD 0)
      let line := x.c.live.getLsbD 0 = true ∧ x.c.live.getLsbD 1 = true ∧
        ∀ l < 64, x.c.live.getLsbD l = true → o.at l = o.at 0 + BitVec.ofNat 32 l * (o.at 1 - o.at 0)
      ∃ sh, (∀ l < x.c.w, x.c.live.getLsbD l = true → sh.at l = o.at l) ∧
        (f.mod6.toNat % 4 = 1 → 1 < x.c.w → ∃ ws, sh = .g ws) ∧
        (f.mod6.toNat % 4 = 2 → same → sh.IsU) ∧
        (f.mod6.toNat % 4 = 2 → ¬ same → line → sh = .a (o.at 0) (o.at 1 - o.at 0)) ∧
        (f.mod6.toNat % 4 = 2 → ¬ same → ¬ line → 1 < x.c.w → ∃ ws, sh = .g ws) ∧
        exec (.shape f) s = .next ((x.writeResult f.dst f.ocw (some 3) [f.srcA] [sh]).finish x)) ∧
    (s.issueCx 0x78 8 f.g = some x → dstCheck x.c f.dst 1 true = .ok () →
      x.peek [f.srcA, f.srcB] = .ok [[x.readSrc f.srcA 0], [x.readSrc f.srcB 0]] → x.deadCheck (x.emptyRead f.srcB) = .ok () →
      let from_ := fun l => ((x.readSrc f.srcB 0).at l).toNat % x.c.w
      let has := fun l => x.c.live.getLsbD (xmap x.c f.xa.toNat (from_ l))
      x.deadCheck (x.emptyAt f.srcA (((laneList x.act).filter has).map from_)) = .ok () →
      let hurt := lanesWhere x.c.w (fun l => has l && (x.readSrc f.srcA 0).poison.getLsbD (from_ l))
      x.poisonCheck [x.readSrc f.srcB 0, { sh := (x.readSrc f.srcA 0).sh, poison := hurt }] = .ok () →
      ∃ sh, x.OnLanes sh (fun l => if has l then (x.readSrc f.srcA 0).at (from_ l) else 0) ∧
        ((x.readSrc f.srcB 0).isU = true → sh.IsU) ∧
        (x.c.w ≤ 64 → (x.readSrc f.srcA 0).isU = true → x.c.live = allLanes x.c.w → sh.IsU) ∧
        ((x.readSrc f.srcB 0).isU = false → ¬((x.readSrc f.srcA 0).isU = true ∧ x.c.live = allLanes x.c.w) → 1 < x.c.w →
          ∃ ws, sh = .g ws) ∧
        exec (.perm f) s = .next ((x.writeResult f.dst f.ocw (some 3) [f.srcA, f.srcB] [sh]).finish x)) ∧
    (∀ r, s.issueCx 0x79 8 f.g = some x → f.dst = 0x110 → 8 ≤ f.ocw.toNat →
      ({ x with act := allLanes x.c.w } : Cx).fetchRaw [f.srcA] = .ok r →
      let c := (x.c.emptySrcs [f.srcA]).supersede (.oc (f.ocw.toNat - 8)) (allLanes x.c.w)
      exec (.ocld f) s = .next ((Rsl.mk x.s
        { c with oc := mput c.oc (f.ocw.toNat - 8) { shape := normShape x.c.w (nthOpd r 0).sh, poison := (nthOpd r 0).poison } }
        true).finish x)) ∧
    (s.issueCx 0x7A 8 f.g = some x → f.mod6.toNat = 0 ∨ f.mod6.toNat / 8 = 1 →
      exec (.ocinv f) s = .next ((Rsl.mk x.s (if x.act = 0 then x.c else
        { x.c with oc := if f.mod6.toNat = 0 then [] else mdel x.c.oc (f.mod6.toNat - 8) }) true).finish x))) ∧
  (∀ (f : LI) (s : State) (x : Cx),
    (∀ r, s.issueCx 0x75 8 f.g = some x → f.md.toNat / 4 < 2 → x.fetch [f.srcA] = .ok r →
      let n := f.md.toNat % 4
      let add := fun l => (nthOpd r 0).at l + f.imm.signExtend 32
      ∃ c : Crew, exec (.ixset f) s = .next ((Rsl.mk x.s c true).finish x) ∧
        (∀ l < x.c.w, c.ixAt n l = if x.act.getLsbD l then (if f.md.toNat / 4 = 1 then x.c.ixAt n l + add l else add l) else x.c.ixAt n l) ∧
        (∀ k, k ≠ n → mgetD c.ix k [] = mgetD x.c.ix k []) ∧ c = { x.c.emptySrcs [f.srcA] with ix := c.ix }) ∧
    (s.issueCx 0x77 8 f.g = some x → f.md.toNat = 1 →
      exec (.xset f) s = .next ((Rsl.mk x.s (if x.act = 0 then x.c else
        { x.c with xdist := BitVec.ofNat 32 (x.c.w >>> (f.imm.toNat % 8)) }) true).finish x)) ∧
    (∀ r, s.issueCx 0x77 8 f.g = some x → f.md.toNat = 0 ∨ f.md.toNat = 2 → x.once.fetch [f.srcA] = .ok r →
      let c := x.c.emptySrcs [f.srcA]
      let v := (nthOpd r 0).at x.lane + f.imm.signExtend 32
      exec (.xset f) s = .next ((Rsl.mk x.s
        (if x.act = 0 then c else if f.md.toNat = 0 then { c with xdist := v } else { c with xsel := v }) true).finish x)))

/-- SHFL, REDC and SCAN, with their compact entries, leave their rule's value pending (R72, R294, R296, R300, R301, R307,
R26). The model's own choices in it: log entries 16, 37. -/
def Obligations.ShuffleAndReductionResult : Prop :=
  (∀ f : L3, Shuffles (.shfl f) 8 f ∧ Reduces (.redc f) 8 f ∧ Scans (.scan f) 8 f) ∧
  (∀ f : C3,
    Shuffles (.c3ShflAtB32 f) 4 (f.toL3 0) ∧ Shuffles (.c3ShflXorB32 f) 4 (f.toL3 3) ∧
    Reduces (.c3RedcAddI32 f) 4 (f.toL3u 0) ∧ Reduces (.c3RedcMaxI32 f) 4 (f.toL3u 0x10) ∧
    Reduces (.c3RedcAddF32 f) 4 (f.toL3u 2) ∧ Reduces (.c3RedcMaxF32 f) 4 (f.toL3u 0x12) ∧
    Scans (.c3ScanAddI32 f) 4 (f.toL3u 0) ∧ Scans (.c3ScanAddF32 f) 4 (f.toL3u 2))

/-- VOTE, BALLOT, MATCH, COMPACT, BSRCH, TOPK, HIST and HMERGE leave their rule's value pending (R26, R294, R297, R298,
R299, R302, R303, R304, R305, R306). The model's own choices in it: log entries 16, 39. -/
def Obligations.VoteMatchAndHistogramResult : Prop :=
  (∀ (f : L3) (s : State) (x : Cx),
    (∀ b n, s.issueCx 0x61 8 f.g = some x → crossLegal 0x61 f.mod6 = true → predOf f.dst = some n → f.mod6.toNat % 8 ≠ 3 →
      x.laneBit f.srcA = .ok b →
      exec (.vote f) s = .next ((x.pendPred f n b.srcs (.u (voteVal x (f.mod6.toNat % 8) b.val))).finish x)) ∧
    (∀ b, s.issueCx 0x61 8 f.g = some x → crossLegal 0x61 f.mod6 = true → predOf f.dst = none →
      dstCheck x.c f.dst 1 true = .ok () → x.laneBit f.srcA = .ok b →
      exec (.vote f) s = .next ((x.lanesResult f b.srcs [.u (voteVal x (f.mod6.toNat % 8) b.val)]).finish x)) ∧
    (∀ b, s.issueCx 0x62 8 f.g = some x → f.mod6 = 0 → dstCheck x.c f.dst 2 false = .ok () → x.laneBit f.srcA = .ok b →
      exec (.ballot f) s = .next ((x.lanesResult f b.srcs
        (maskShapes (lanesWhere x.c.w (fun l => x.act.getLsbD l && b.val l != 0)))).finish x)) ∧
    (∀ r, s.issueCx 0x62 8 f.g = some x → 1 ≤ f.mod6.toNat → f.mod6.toNat ≤ 3 → dstCheck x.c f.dst 2 false = .ok () →
      x.fetch [f.srcA, f.srcB] = .ok r →
      let a := fun l => (nthOpd r 0).at l
      let b := fun l => (nthOpd r 1).at l
      let t := fun l => if f.mod6.toNat = 1 then a l == b l else if f.mod6.toNat = 2 then decide ((a l).toNat < (b l).toNat)
        else decide ((a l).toInt < (b l).toInt)
      exec (.ballot f) s = .next ((x.lanesResult f [f.srcA, f.srcB]
        (maskShapes (lanesWhere x.c.w (fun l => x.act.getLsbD l && t l)))).finish x)) ∧
    (∀ r, s.issueCx 0x63 8 f.g = some x → crossLegal 0x63 f.mod6 = true →
      (if f.mod6.toNat % 4 = 0 then dstCheck x.c f.dst 2 false else dstCheck x.c f.dst 1 true) = .ok () →
      let k := if f.mod6.getLsbD 2 then 2 else 1
      x.fetch [{ f.srcA with k := k }] = .ok r →
      let grp := fun l => matchGroup x (laneVal (nthRun r 0) (32 * k)) l
      ∃ shs : List Shape, shs.length = (if f.mod6.toNat % 4 = 0 then 2 else 1) ∧
        (∀ l < x.c.w, x.act.getLsbD l = true → wordsAt shs l =
          match f.mod6.toNat % 4 with
          | 0 => (lanesWhere x.c.w (fun j => (grp l).contains j)).toNat
          | 1 => (grp l).headD 0
          | 2 => ((grp l).filter (fun j => decide (j < l))).length
          | _ => (grp l).length) ∧
        exec (.matchLanes f) s = .next ((x.lanesResult f [{ f.srcA with k := k }] shs).finish x)) ∧
    (∀ r, s.issueCx 0x66 8 f.g = some x → f.mod6 = 0 → dstCheck x.c f.dst 1 true = .ok () → predOf f.sb = none →
      srcCheck x.c f.srcA = .ok () → x.fetch [f.srcA, f.srcB] = .ok r → x.fetch [f.srcA] = .ok [nthRun r 0] →
      ∃ sh, x.OnLanes sh (fun l => match (x.lanes.filter (fun j => (nthOpd r 1).at j != 0))[(x.lanes.filter (fun j => decide (j < l))).length]? with
          | some j => (nthOpd r 0).at j
          | none => 0) ∧
        exec (.compact f) s = .next ((x.lanesResult f [f.srcA, f.srcB] [sh]).finish x)) ∧
    (∀ r n, s.issueCx 0x66 8 f.g = some x → f.mod6 = 0 → dstCheck x.c f.dst 1 true = .ok () → predOf f.sb = some n →
      x.c.owed (.pred n) = false → x.fetch [f.srcA] = .ok r →
      ∃ sh, x.OnLanes sh (fun l =>
          match (x.lanes.filter (fun j => x.predBit (some n) f.xb.toNat j))[(x.lanes.filter (fun j => decide (j < l))).length]? with
          | some j => (nthOpd r 0).at j
          | none => 0) ∧
        exec (.compact f) s = .next ((x.lanesResult f [f.srcA] [sh]).finish x)) ∧
    (∀ r, s.issueCx 0x69 8 f.g = some x → crossLegal 0x69 f.mod6 = true → dstCheck x.c f.dst 1 true = .ok () →
      x.fetch [f.srcA, f.srcB] = .ok r → x.c.dre = false →
      let hit := fun (e k : Word) =>
        match f.mod6.toNat % 4 with
        | 0 => if f.mod6.getLsbD 2 then decide (e.toInt < k.toInt) else decide (e.toInt ≤ k.toInt)
        | 1 => if f.mod6.getLsbD 2 then decide (e.toNat < k.toNat) else decide (e.toNat ≤ k.toNat)
        | _ => (f32.cmpC (if f.mod6.getLsbD 2 then 2 else 3) e.toNat k.toNat).1
      ∃ sh, x.OnLanes sh (fun l =>
          BitVec.ofNat 32 ((laneList x.c.live).filter (fun j => hit ((nthOpd r 0).at j) ((nthOpd r 1).at l))).length) ∧
        exec (.bsrch f) s = .next ((x.lanesResult f [f.srcA, f.srcB] [sh]).finish x)) ∧
    (∀ r, s.issueCx 0x6A 8 f.g = some x → crossLegal 0x6A f.mod6 = true → dstCheck x.c f.dst 1 true = .ok () →
      x.fetch [f.srcA] = .ok r →
      let pos := fun l => (x.lanes.filter (fun j => topkBefore f.mod6.toNat (laneVal (nthRun r 0) 32) j l)).length
      ∃ sh, x.OnLanes sh (fun l => BitVec.ofNat 32 (if f.mod6.toNat / 4 % 2 = 0 then pos l
          else (x.lanes.find? (fun j => pos j == (x.lanes.filter (fun j => decide (j < l))).length)).getD 0)) ∧
        exec (.topk f) s = .next ((x.lanesResult f [f.srcA] [sh]).finish x))) ∧
  (∀ (f : L3) (s : State) (x : Cx) (d : Nat),
    let nb := 2 ^ (f.mod6.toNat % 8 + 1)
    (∀ r, s.issueCx 0x67 8 f.g = some x → crossLegal 0x67 f.mod6 = true → place f.dst = some (.reg d) →
      dstCheck x.c f.dst nb true = .ok () → x.fetch [f.srcA, f.srcB] = .ok r →
      (∀ b < nb, x.c.owed (.reg (d + b)) = false) →
      let bin := fun l => ((nthOpd r 0).at l).toNat
      lowest (lanesWhere x.c.w (fun l => decide (bin l < nb) && (regPoison (mget x.c.regs (d + bin l))).getLsbD l) &&& x.act) = none →
      ∃ shs : List Shape, ∃ sh : Shape,
        (∀ b < nb, ∀ l < x.c.w, x.act.getLsbD l = true → bin l = b → ((shs.getD b (.u 0)).at l).toNat =
          binAdd (f.mod6.getLsbD 3) (regAt (mget x.c.regs (d + b)) l).toNat ((nthOpd r 1).at l).toNat % 2 ^ 32) ∧
        exec (.hist f) s = .next ((Rsl.mk x.s (((x.c.emptySrcs [f.srcA, f.srcB]).pendDests x.op f.la.toNat true
          (((List.range nb).map (fun b =>
              let ls := lanesWhere x.c.w (fun l => x.acts l && bin l == b)
              if ls = 0 then [] else [({ dst := .reg (d + b), lanes := ls, sh := shs.getD b (.u 0), poison := 0 } : PDest)])).flatten ++
            ocDests f.ocw x.act sh 0 ++ latchDests 2 x.act sh)).commit) true).finish x)) ∧
    (s.issueCx 0x68 8 f.g = some x → crossLegal 0x68 f.mod6 = true → nb ≤ x.c.w → dstCheck x.c f.dst 1 true = .ok () →
      place f.sa = some (.reg d) → srcCheck x.c { f.srcA with k := nb } = .ok () → x.owedSrc { f.srcA with k := nb } = false →
      let run := (List.range nb).map (fun b => x.readSrc { f.srcA with k := nb } b)
      x.poisonCheck run = .ok () →
      ∃ sh, x.OnLanes sh (fun l => if l < nb then BitVec.ofNat 32 (binAdd (f.mod6.getLsbD 3) 0
          (x.lanes.foldl (fun a j => a + ((run.getD l ⟨.u 0, 0⟩).at j).toNat) 0)) else 0) ∧
        exec (.hmerge f) s = .next ((Rsl.mk x.s (((x.c.emptySrcs [{ f.srcA with k := nb }]).pendDests x.op f.la.toNat true
          (regDests x.c f.dst 0 x.act sh 0 ++ ocDests f.ocw x.act sh 0 ++ latchDests 2 x.act sh ++
            (if f.mod6.getLsbD 4 && x.act != 0 then (List.range nb).map (fun b =>
              ({ dst := .reg (d + b), lanes := allLanes x.c.w, sh := .u 0, poison := 0 } : PDest)) else []))).commit) true).finish x)))

/-- LDG and LDC put a load in flight (R130, R131, R132, R134, R135, R136, R153, R26). -/
def Obligations.LoadsIssue : Prop :=
  ∀ f : LM, LoadIssues (.ldg f) 0x80 f ∧ LoadIssues (.ldc f) 0x82 f

/-- STG, STM and VSAVE enter the store queue (R138, R139, R141, R153, R239, R240, R130, R131). -/
def Obligations.StoresIssue : Prop :=
  ∀ (f : LM) (s : State) (x : Cx),
    StoreIssues (.stg f) 0x81 f (f.srcData (wtRegs f.wt) (wtRegs f.wt == 1) true) (fun _ _ => 0xFFFFFFFF) ∧
    StoreIssues (.stm f) 0x86 f (f.srcData (wtRegs f.wt + 1) false false) (fun run l => (run.getD (wtRegs f.wt) ⟨.u 0, 0⟩).at l) ∧
    (∀ n b t, s.issueCx 0x7B 8 f.g = some x → memLegal 0x7B f = true → slotDst f x = .ok n → x.peek [f.srcBase] = .ok b →
      x.c.owed (.reg n) = false → x.c.cnt cS < 63 → x.c.sq.length < 64 → x.deadReads [f.srcBase] = .ok () → x.act ≠ 0 →
      let va := lmAddr f (nthRun b 0) x.lane
      let bs := slotBytes x.c (mget x.c.regs n)
      let ps := sectorPieces 20 va bs.length 0
      va.toNat % 16 = 0 → x.translateAll x.s .store 0 (ps.map (fun p => (x.lane, p.2.1))) = .ok t →
      ({ x with act := oneLane x.lane } : Cx).poisonCheck b.flatten = .ok () →
      let accs := (t.2.zip ps).map (fun e =>
        ({ e.1 with n := e.2.2.2, bytes := ((bs.drop e.2.1).take e.2.2.2).map (fun b => some b.1),
                    poison := ((bs.drop e.2.1).take e.2.2.2).any (·.2) } : LaneAcc))
      exec (.vsave f) s = .next ((Rsl.mk t.1 ((x.c.raise cS x.op).enqueue x.op x.p.pc (.store f.pol.toNat) accs false 8) true).finish x))

/-- ATOM and RED enter the store queue (R145, R146, R147, R148, R141, R153, R26). -/
def Obligations.AtomicsIssue : Prop :=
  ∀ f : LM, AtomIssues (.atom f) true f ∧ AtomIssues (.red f) false f

/-- PREF, VREST, WAITC and CNTRD do what their rules give (R151, R154, R155, R156, R239, R241, R101). -/
def Obligations.PrefetchRestoreAndCounterResult : Prop :=
  (∀ (f : LM) (s : State) (x : Cx),
    (∀ b c, s.issueCx 0x83 8 f.g = some x → memLegal 0x83 f = true → x.fetch [f.srcBase] = .ok b →
      x.fencePref ((laneList x.act).map (lmAddr f (nthRun b 0))) = .ok c →
      exec (.pref f) s = .next ((Rsl.mk ((laneList x.act).foldl (fun s l => prefetch x f.pol.toNat s l (lmAddr f (nthRun b 0) l)) x.s)
        c true).finish x)) ∧
    (∀ n b t, s.issueCx 0x7C 8 f.g = some x → memLegal 0x7C f = true → slotDst f x = .ok n → x.peek [f.srcBase] = .ok b →
      x.c.cnt cG < 63 → x.deadReads [f.srcBase] = .ok () → x.act ≠ 0 → x.c.fence = none →
      let va := lmAddr f (nthRun b 0) x.lane
      va.toNat % 16 = 0 → x.translateAll x.s .load 16 [(x.lane, va)] = .ok t →
      ({ x with act := oneLane x.lane } : Cx).poisonCheck b.flatten = .ok () →
      ∃ ld : LoadOp, ld.op = x.op ∧ ld.vrest = some (n, x.lane) ∧ ld.got = [] ∧ ld.accs.length = t.2.length ∧
        exec (.vrest f) s = .next ((Rsl.mk t.1 { (x.c.raise cG x.op) with loads := x.c.loads ++ [ld] } false).finish x))) ∧
  (∀ (f : LE) (s : State) (x : Cx),
    (s.issueCx 0xA3 8 f.g = some x → f.md.toNat < 6 → f.sa = 0x110 → x.act ≠ 0 →
      (waitcHolds x.c.waitPoint f.md.toNat f.fn.toNat = true →
        exec (.waitc f) s = .next (s.awake ((Rsl.mk x.s x.c.waitPoint true).finish x) State.tryWaitc)) ∧
      (waitcHolds x.c.waitPoint f.md.toNat f.fn.toNat = false →
        ∃ w : Wait, w.op = .waitc f.md.toNat ∧ w.val = BitVec.ofNat 32 f.fn.toNat ∧ w.pc = x.p.pc ∧
          exec (.waitc f) s = .next (s.awake ((Rsl.mk x.s { x.c.waitPoint with wait := some w } true).finish x) State.tryWaitc))) ∧
    (∀ r, s.issueCx 0xA3 8 f.g = some x → f.md.toNat < 6 → f.sa ≠ 0x110 → x.act ≠ 0 →
      x.once.fetch [{ (f.srcA 1).plain with zero := false }] = .ok r →
      let c := (x.c.emptySrcs [f.srcA 1]).waitPoint
      let thr := ((nthOpd r 0).at x.lane).toNat
      (waitcHolds c f.md.toNat thr = true →
        exec (.waitc f) s = .next (s.awake ((Rsl.mk x.s c true).finish x) State.tryWaitc)) ∧
      (waitcHolds c f.md.toNat thr = false →
        ∃ w : Wait, w.op = .waitc f.md.toNat ∧ w.val = BitVec.ofNat 32 thr ∧ w.pc = x.p.pc ∧
          exec (.waitc f) s = .next (s.awake ((Rsl.mk x.s { c with wait := some w } true).finish x) State.tryWaitc))) ∧
    (s.issueCx 0xA4 8 f.g = some x → dstCheck x.c f.dst 1 true = .ok () →
      exec (.cntrd f) s = .next ((Rsl.mk x.s (x.writeWord x.c f.dst (BitVec.ofNat 32
        (x.c.cnt cG + 2 ^ 6 * x.c.cnt cS + 2 ^ 12 * x.c.cnt cA + 2 ^ 18 * x.c.cnt cX + 2 ^ 24 * x.c.cnt cM))) true).finish x)))

/-- FENCE, ACQ and REL do what their rules give (R196, R197, R198, R200, R201, R141, R153). The model's own choices in it:
log entry 35. -/
def Obligations.OrderingInstructionsIssue : Prop :=
  ∀ (f : LE) (s : State) (x : Cx),
    (s.issueCx 0xA1 8 f.g = some x → orderScope f < 7 → x.act ≠ 0 →
      let r := acquireHold x.s x.c (!f.md.getLsbD 3 && x.s.scopeWide x.c (orderScope f))
      exec (.acq f) s = .next ((Rsl.mk r.1 r.2 true).finish x)) ∧
    (s.issueCx 0xA2 8 f.g = some x → orderScope f < 7 → x.act ≠ 0 → x.c.cnt cS < 63 → x.c.sq.length < 64 →
      exec (.rel f) s = .next ((Rsl.mk x.s
        ((x.c.raise cS x.op).enqueue x.op x.p.pc (.rel (f.md.getLsbD 3)) [] true (orderScope f)) true).finish x)) ∧
    (s.issueCx 0xA0 8 f.g = some x → orderScope f < 7 → x.act ≠ 0 → x.c.cnt cS < 63 → x.c.sq.length < 64 →
      ∃ fr : FenceRun, fr.op = x.op ∧ fr.scope = orderScope f ∧ fr.pc = x.p.pc ∧ fr.issued = 0 ∧ fr.lines = [] ∧
        fr.conflict = false ∧ fr.rollbacks = 0 ∧ fr.ns = (f.md.getLsbD 3 || x.c.isHelper) ∧
        exec (.fence f) s = .next (((Rsl.mk
          (if x.s.scopeWide x.c (orderScope f) then x.s.dropCleanWhere x.c.core (fun _ => true) else x.s)
          { ((x.c.raise cS x.op).enqueue x.op x.p.pc .fence [] true (orderScope f)) with fence := some fr } true).finish x).takeShot s.focus s.opSeq)) ∧
    (s.issueCx 0xA1 8 f.g = some x → orderScope f < 7 → x.act = 0 → exec (.acq f) s = .next ((Rsl.mk x.s x.c true).finish x)) ∧
    (s.issueCx 0xA2 8 f.g = some x → orderScope f < 7 → x.act = 0 → exec (.rel f) s = .next ((Rsl.mk x.s x.c true).finish x)) ∧
    (s.issueCx 0xA0 8 f.g = some x → orderScope f < 7 → x.act = 0 →
      exec (.fence f) s = .next (((Rsl.mk x.s x.c true).finish x).takeShot s.focus s.opSeq))

/-- BRA, CALL, BRX, CALLX, RET and LOOP go where their rules give (R39, R40, R222, R404, R411, R412, R413, R415). The
model's own choices in it: log entries 68, 69, 70. -/
def Obligations.BranchCallAndLoopResult : Prop :=
  ((∀ (f : LB) (s : State) (x : Cx),
    (s.issueCx 0xD0 8 f.g = some x → exec (.bra f) s = .next ((x.branch x.c (f.target x.p.pc) x.act).finish x)) ∧
    (s.issueCx 0xD2 8 f.g = some x → dstCheck x.c f.dst 2 false = .ok () →
      exec (.call f) s = .next ((x.branch (x.c.putDests
        (regDests x.c f.dst 0 x.act (.u (loWord (x.p.pc + 8))) 0 ++ regDests x.c f.dst 1 x.act (.u (hiWord (x.p.pc + 8))) 0))
        (f.target x.p.pc) x.act).finish x))) ∧
  (∀ (f : CB) (s : State) (x : Cx), s.issueCx 0xD0 4 f.g = some x →
    exec (.cbBra f) s = .next ((x.branch x.c (x.p.pc + BitVec.ofInt 64 (2 * f.off.toInt)) x.act).finish x)) ∧
  (∀ f : LE, Jumps (.brx f) 0xD1 (some f.md) false f ∧ Jumps (.callx f) 0xD3 (some f.md) true f ∧ Jumps (.ret f) 0xD4 none false f)) ∧
  ((∀ (f : LB) (s : State) (x : Cx), f.md.toNat % 4 < 3 → s.issueCx 0xD8 8 f.g = some x →
    let n := f.md.toNat % 4
    CountsDown x n (f.target x.p.pc) (exec (.loop f) s) ∧
    (∀ r, x.act ≠ 0 → x.once.fetch [{ d := f.dst, xc := 0, dead := false, k := 1, fld := 0, upper := true, zero := true }] = .ok r →
      exec (.loopSet f) s = .next ((Rsl.mk x.s (x.c.setLoop n ((nthOpd r 0).at x.lane)) true).finish x)) ∧
    (x.act ≠ 0 → exec (.loopSeti f) s = .next ((Rsl.mk x.s (x.c.setLoop n f.off) true).finish x)) ∧
    (dstCheck x.c f.dst 1 true = .ok () →
      exec (.loopGet f) s = .next ((Rsl.mk x.s (x.c.putDests (regDests x.c f.dst 0 x.act (.u (x.c.loopCnt n)) 0)) true).finish x))) ∧
  (∀ (f : CB) (s : State) (x : Cx), s.issueCx 0xD8 4 f.g = some x →
    CountsDown x 0 (f.target x.p.pc) (exec (.cbLoopLc0 f) s) ∧ CountsDown x 1 (f.target x.p.pc) (exec (.cbLoopLc1 f) s) ∧
    CountsDown x 2 (f.target x.p.pc) (exec (.cbLoopLc2 f) s)))

/-- LAND, RCV, EXIT and the hints do what their rules give (R45, R406, R407, R414, R417, R319). The model's own choices in
it: log entry 14. -/
def Obligations.LandRecoverExitAndHintResult : Prop :=
  (∀ (f : LE) (s : State) (x : Cx),
    (s.issueCx 0xD5 8 Guard.always = some x → f.g.ok = true → exec (.land f) s = .next ((Rsl.mk x.s x.c true).finish x)) ∧
    (s.issueCx 0xF2 8 Guard.always = some x → exec (.loch f) s = .next ((Rsl.mk x.s x.c true).finish x)) ∧
    (s.issueCx 0xD6 8 Guard.always = some x → f.g.ok = true →
      let parked : Crew := { x.c with paths := x.c.paths.map (fun p =>
        if p.run then { p with tok := f.md.toNat, wait := true, run := false, age := 0 } else p) }
      exec (.rcv f) s = .next ((Rsl.mk x.s (parked.settle.switchFrom (some x.p)) false).finish x)) ∧
    (s.issueCx 0xD7 8 f.g = some x → x.act = 0 →
      exec (.exit f) s = .next (s.exitRefill ((Rsl.mk x.s x.c true).finish x))) ∧
    (s.issueCx 0xD7 8 f.g = some x → x.act ≠ 0 → x.c.recruit = none → x.c.surv = false →
      let c := (if x.p.mask &&& ~~~x.act = 0 then x.c else x.c.setPc (x.p.pc + BitVec.ofNat 64 x.len)).exitLanes x.p x.act
      exec (.exit f) s = .next (s.exitRefill ((Rsl.mk
        (if c.done then (x.s.exitChains x.id).exitTeam x.c.team x.c.teampos else x.s) c false).finish x)))) ∧
  (∀ (s : State) (x : Cx),
    (s.issueCx 0xF0 8 Guard.always = some x → exec .nop s = .next ((Rsl.mk x.s x.c true).finish x)) ∧
    (s.issueCx 0xF0 2 Guard.always = some x → ∀ d, exec (.nop16 d) s = .next ((Rsl.mk x.s x.c true).finish x)) ∧
    (s.issueCx 0xF1 8 Guard.always = some x → ∀ p, exec (.prioh p) s = .next ((Rsl.mk x.s x.c true).finish x)) ∧
    (∀ n : BitVec 4, s.issueCx (0xF0 + n.toNat) 8 Guard.always = some x → exec (.hint n) s = .next ((Rsl.mk x.s x.c true).finish x)))

/-- TRAP and BRK enter the trap handler, which R439 and R440 describe (R439, R440, R443, R418, R438, R222). The model's own
choices in it: log entries 27, 107. -/
def Obligations.TrapEntrySavesAndEnters : Prop :=
  ∀ (f : LE) (s : State) (x : Cx), x.c.fence = none → x.c.hgroup = none → x.c.frames.length < 4 → x.act ≠ 0 →
    (s.issueCx 0xED 8 f.g = some x → f.md = 0 →
      ∃ t c, exec (.trap f) s = .next t ∧ mget t.crews s.focus = some c ∧
        TrapTaken s x c (BitVec.ofNat 32 (1 + f.fn.toNat % 256 * 2 ^ 24)) x.p.mask) ∧
    (s.issueCx 0xD9 8 f.g = some x →
      ∃ t c, exec (.brk f) s = .next t ∧ mget t.crews s.focus = some c ∧
        TrapTaken s x c (BitVec.ofNat 32 (2 + f.md.toNat % 256 * 2 ^ 24)) x.act)

/-- TRET, its frame accesses, SNAP and YIELDPT do what their rules give (R155, R440, R442, R444, R445, R446). -/
def Obligations.TrapReturnSnapshotAndYieldResult : Prop :=
  (∀ (f : LE) (s : State) (x : Cx) (t : Frame), s.issueCx 0xEE 8 f.g = some x → x.c.frames.getLast? = some t →
    (f.md.toNat < 4 → x.act ≠ 0 → exec (.tret f) s = .next ((Rsl.mk x.s (x.c.leaveTrap none) false).finish x)) ∧
    (f.md.toNat < 4 → x.act ≠ 0 → exec (.tretSkip f) s = .next ((Rsl.mk x.s
      (x.c.leaveTrap (if t.cause.toNat % 256 = 8 then none else some t.len)) false).finish x)) ∧
    (f.md.toNat < 4 → x.act = 0 → exec (.tret f) s = .next ((Rsl.mk x.s x.c true).finish x) ∧
      exec (.tretSkip f) s = .next ((Rsl.mk x.s x.c true).finish x)) ∧
    (∀ r, x.act ≠ 0 → dstCheck x.c f.dst 2 false = .ok () → x.once.peek [f.srcA 1] = .ok r →
      ((nthOpd r 0).at x.lane).toNat < 8 → x.once.deadReads [f.srcA 1] = .ok () → x.once.poisonCheck r.flatten = .ok () →
      let c := x.c.emptySrcs [f.srcA 1]
      let v := t.dw ((nthOpd r 0).at x.lane).toNat
      exec (.tretGet f) s = .next ((Rsl.mk x.s (c.putDests
        (regDests c f.dst 0 x.act (.u (loWord v)) 0 ++ regDests c f.dst 1 x.act (.u (hiWord v)) 0)) true).finish x)) ∧
    (∀ r, x.act ≠ 0 → x.once.peek [f.srcA 1, { f.srcB 2 with zero := false }] = .ok r → (nthOpd r 0).at x.lane = 1 →
      x.once.deadReads [f.srcA 1, { f.srcB 2 with zero := false }] = .ok () → x.once.poisonCheck r.flatten = .ok () →
      let c := x.c.emptySrcs [f.srcA 1, { f.srcB 2 with zero := false }]
      exec (.tretSet f) s = .next ((Rsl.mk x.s
        { c with frames := c.frames.dropLast ++ [{ t with rpc := pairAt (nthRun r 1) x.lane }] } true).finish x))) ∧
  (∀ (f : LE) (s : State) (x : Cx), f.md = 0 →
    (s.issueCx 0xEF 8 f.g = some x → dstCheck x.c f.dst 1 true = .ok () → x.act ≠ 0 →
      let on := x.s.snap.progen && x.s.snap.arm
      exec (.snap f) s = .next ((Rsl.mk (if on then x.s.trigger else x.s)
        (x.c.putDests (regDests x.c f.dst 0 x.act (.u (if on then x.s.snap.gen + 1 else 0)) 0)) true).finish x)) ∧
    (s.issueCx 0xA6 8 f.g = some x → x.act = 0 ∨ x.c.yreq = false ∨ x.c.recruit.isSome = true →
      exec (.yieldpt f) s = .next (s.awake ((Rsl.mk x.s x.c.waitPoint true).finish x) State.tryYield)) ∧
    (s.issueCx 0xA6 8 f.g = some x → x.act ≠ 0 → x.c.yreq = true → x.c.recruit = none →
      exec (.yieldpt f) s = .next (s.awake ((Rsl.mk x.s (x.c.waitAt (x.waitFor 9 0 0 0 0x110 8 .yielded)) true).finish x) State.tryYield)))

/-- RWB writes back, RINV drops clean lines and RWI does both, on a range or on all (R102, R103, R104, R105, R101). The
model's own choices in it: log entry 109. -/
def Obligations.CacheRangeResult : Prop :=
  ∀ f : LE, RangeActs (.rwb f) 0x87 f true State.writeBackWhere ∧
    RangeActs (.rinv f) 0x88 f false (fun s core p => (s.dropCleanWhere core p).dropReplicaWhere core p) ∧
    RangeActs (.rwi f) 0x89 f true State.l1Rwi

/-- FREEZE, THAW and FRZQ do what their rules give (R105, R115, R116, R121, R122, R125). The model's own choices in it: log
entries 34, 110. -/
def Obligations.FreezeInstructionResult : Prop :=
  (∀ (f : LE) (s : State) (x : Cx) (r : List (List Opd)) (t : State × List Part),
    dstCheck x.c f.dst 1 true = .ok () → x.Reads [(f.srcA 2).plain, (f.srcB 1).plain] r →
    let va := pairAt (nthRun r 0) x.lane
    let n := ((nthOpd r 1).at x.lane).toNat
    let c := x.c.emptySrcs [(f.srcA 2).plain, (f.srcB 1).plain]
    x.parts x.s .range va n = .ok t →
    (s.issueCx 0x8A 8 f.g = some x → f.md.toNat < 2 → t.1.partsInRange t.2 = false →
      (freezeReason t.2 va n ≠ 0 → exec (.freeze f) s = .next (s.awake (x.ends t.1
        (x.writeWord c.waitPoint f.dst (freezeFail (freezeReason t.2 va n)))) State.tryFreeze)) ∧
      (freezeReason t.2 va n = 0 → exec (.freeze f) s = .next (s.awake (x.ends t.1 (c.waitAt (x.waitFor 8 0x8A 0 va f.dst 8
        (.freeze 0 0 ((contiguous t.2).getD 0) n (f.md == 1) []) (headLeaf t.2) (headLevel t.2)))) State.tryFreeze))) ∧
    (s.issueCx 0x8B 8 f.g = some x →
      let hit := (contiguous t.2).bind (fun b =>
        t.1.freezes.find? (fun e => e.2.state == .frozen && e.2.base == b && e.2.len == n))
      (hit = none → exec (.thaw f) s = .next (x.ends t.1 (x.writeWord c f.dst 0))) ∧
      (∀ e, hit = some e →
        let q := t.1.thawTake
        let far := e.2.presence.filter (fun d => d != q.1.devnum)
        (1 < e.2.count → exec (.thaw f) s = .next (x.ends
          (({ q.1 with freezes := mput q.1.freezes e.1 { e.2 with count := e.2.count - 1 } }).thawComplete q.2)
          (x.writeWord c f.dst q.2))) ∧
        (¬ 1 < e.2.count → exec (.thaw f) s = .next (x.ends
          ((({ q.1 with freezes := mput q.1.freezes e.1 { e.2 with state := .thawing, tseq := q.2, asked := far },
                        outbox := q.1.outbox ++ far.map (fun d => OutMsg.collect d e.1) } : State).dropEntry e.1).thawFree e.1)
          (x.writeWord c f.dst q.2)))))) ∧
  (∀ (f : LE) (s : State) (x : Cx), s.issueCx 0x8C 8 f.g = some x → dstCheck x.c f.dst 1 true = .ok () →
    exec (.frzqSeq f) s = .next (x.ends x.s (x.writeWord x.c f.dst x.s.thawDone)) ∧
    exec (.frzqFree f) s = .next (x.ends x.s (x.writeWord x.c f.dst (BitVec.ofNat 32 (256 - x.s.freezes.length)))) ∧
    (∀ r t a, f.md = 0 → x.Reads [(f.srcA 2).plain] r →
      x.translateAll x.s .range 1 [(x.lane, pairAt (nthRun r 0) x.lane)] = .ok (t, [a]) →
      let c := x.c.emptySrcs [(f.srcA 2).plain]
      (∀ pa, a.tgt = .hbm pa → exec (.frzqAddr f) s = .next (x.ends t (x.writeWord c f.dst (t.frzqWord pa)))) ∧
      (∀ dev pa, a.tgt = .peer dev pa → t.peerPath dev = false → x.c.fence = none →
        exec (.frzqAddr f) s = .next (x.s.crewFault x.id (a.failRec 17 x.p.pc 4))) ∧
      (∀ dev pa, a.tgt = .peer dev pa → t.peerPath dev = true →
        exec (.frzqAddr f) s = .next (x.ends (t.askPeer (x.c.tag x.id x.p.pc (pairAt (nthRun r 0) x.lane) a.leaf a.level)
          x.op x.lane dev pa 0 .frzq).1 (c.pendDests x.op 0 false (regDests c f.dst 0 x.act (.u 0) 0)))) ∧
      (∀ off, a.tgt = .host off ∨ a.tgt = .gaz off → exec (.frzqAddr f) s = .next (x.ends t (x.writeWord c f.dst 0)))))

/-- CRDECL declares a range, CRREL and PROMOTE wait for their recalls and write-backs (R106, R107, R112, R126, R127). -/
def Obligations.CommutativeRangeAndPromoteResult : Prop :=
  ∀ (f : LE) (s : State) (x : Cx) (r : List (List Opd)),
    (∀ t h s1 e, s.issueCx 0x8D 8 f.g = some x → f.md.toNat < 5 → dstCheck x.c f.dst 2 true = .ok () →
      x.Reads [f.srcD 2, (f.srcA 2).plain, (f.srcB 1).plain] r →
      let hva := pairAt (nthRun r 0) x.lane
      let va := pairAt (nthRun r 1) x.lane
      let n := ((nthOpd r 2).at x.lane).toNat
      va.toNat % 128 = 0 → n % 128 = 0 → n ≠ 0 → n ≤ 2 ^ 30 → hva.toNat % 16 = 0 →
      x.parts x.s .range va n = .ok t → x.parts t.1 .holder hva (n / 128 * 16) = .ok h → plainParts t.2 = true →
      plainParts h.2 = true →
      let base := (contiguous t.2).getD 0
      let hbase := (contiguous h.2).getD 0
      let tab := mgetD h.1.ranges (x.c.core / 128) []
      rangesMeet base n hbase (n / 128 * 16) = false → mfree tab 16 = some e → h.1.partsInRange t.2 = false →
      h.1.freezeOver base n = false →
      let rng : CRange := { oper := f.md.toNat, base := base, len := n, owner := ((t.2.head?.map (·.owner)).getD 0), hbase := hbase,
                            howner := ((h.2.head?.map (·.owner)).getD 0), forced := false }
      (List.range (n / 128)).foldlM (fun (s : State) i =>
        if s.reach (x.c.core / 128) (hbase + 16 * i) = false then .error 17
        else s.homeStore rng.howner (maskedCells (hbase + 16 * i) ((leBytes 16 0).map some)) false) h.1 = .ok s1 →
      exec (.crdecl f) s = .next (x.ends (State.sweep { s1 with ranges := mput s1.ranges (x.c.core / 128) (mput tab e rng) } base n)
        (x.c.emptySrcs [f.srcD 2, (f.srcA 2).plain, (f.srcB 1).plain]).waitPoint)) ∧
    (∀ t a, s.issueCx 0x8E 8 f.g = some x → dstCheck x.c f.dst 1 true = .ok () → x.Reads [(f.srcA 2).plain] r →
      x.translateAll x.s .range 1 [(x.lane, pairAt (nthRun r 0) x.lane)] = .ok (t, [a]) →
      let pa := match a.tgt with | .hbm pa => pa | _ => Config.hbmBytes
      let waits := fun del => x.ends t ((x.c.emptySrcs [(f.srcA 2).plain]).waitAt
        (x.waitFor 8 0x8E 0 (pairAt (nthRun r 0) x.lane) f.dst 8 (.crrel pa del) a.leaf a.level))
      exec (.crrel f) s = .next (s.awake (waits false) State.tryCrrel) ∧
      exec (.crrelEnd f) s = .next (s.awake (waits true) State.tryCrrel)) ∧
    (s.issueCx 0x8F 8 f.g = some x →
      let all := f.md.getLsbD 0
      let srcs := if all then [(f.srcB 1).plain] else [(f.srcB 1).plain, f.srcD 1, (f.srcA 2).plain]
      (all = false → dstCheck x.c f.dst 1 true = .ok ()) → x.Reads srcs r →
      let v := ((nthOpd r 0).at x.lane).toNat
      v < 256 → x.s.clusterUp (clusterOf v) = true →
      ∀ t, (if all then t = (x.s, []) else x.parts x.s .range (pairAt (nthRun r 2) x.lane) ((nthOpd r 1).at x.lane).toNat = .ok t) →
      exec (.promote f) s = .next (s.awake (x.ends t.1 ((x.c.emptySrcs srcs).waitAt (x.waitFor 8 0x8F 0 0 0x110 8
        (.promote v (t.2.map (fun p => (p.tgt, p.n))) all 0 [])))) (fun t id => (t.promoteVictim id).tryPromote id)))

/-- CHPUSH, TXFER, QFENCE and CHTAIL submit to a chain (R170, R171, R172, R173, R174, R158). The model's own choices in it:
log entry 50. -/
def Obligations.ChainSubmissionResult : Prop :=
  ∀ f : LE,
  (f.sb.toNat ≤ 240 → Submits (.chpush f) 0xB1 f cS [f.srcA 1, { f.srcB 16 with dead := false, zero := false }] [f.srcA 1] 0
    (fun _ _ _ => True) (fun x r _ _ accs => (.store 2, accs.map (fun a =>
      ({ a with bytes := ((nthRun r 1).map (fun o => leBytes 4 (o.at x.lane).toNat)).flatten.map some } : LaneAcc)), false, 8))) ∧
  (orderScope f < 7 →
    Submits (.txfer f) 0xB0 f cX [f.srcD 1, f.srcA 2, f.srcB 2] [f.srcD 1, f.srcA 2, f.srcB 2] 0 (fun _ _ _ => True)
      (fun x r h n accs => (.txfer h n.toNat (txferEntry (f.fn.getLsbD 0) (pairAt (nthRun r 1) x.lane) (pairAt (nthRun r 2) x.lane)),
        accs, true, orderScope f)) ∧
    Submits (.qfence f) 0xB3 f cX [f.srcA 1, f.srcB 1] [f.srcA 1, f.srcB 1] 0
      (fun x r h => ((List.range 16).filter (fun i =>
        (((nthOpd r 1).at x.lane).setWidth 16 : BitVec 16).getLsbD i && i != h % 16)).length ≤ 4)
      (fun x r h n accs => (.qfence h n.toNat (((nthOpd r 1).at x.lane).setWidth 16), accs, true, orderScope f)) ∧
    (∀ s x r, s.issueCx 0xB2 8 f.g = some x → x.Reads [f.srcA 1] r → x.c.cnt cX < 63 → x.c.sq.length < 64 →
      (x.s.chainOf x.c.ctx ((nthOpd r 0).at x.lane).toNat).isSome = true →
      exec (.chtail f) s = .next (x.ends x.s
        (x.queued [f.srcA 1] cX (.chtail ((nthOpd r 0).at x.lane).toNat) [] true (orderScope f)))))

/-- SEQWAIT and the byte-barrier instructions do what their rules give (R155, R156, R175, R180, R181, R182, R183, R184,
R456). The model's own choices in it: log entry 36. -/
def Obligations.SequenceWaitAndByteBarrierResult : Prop :=
  (∀ (f : LE) (s : State) (x : Cx) (r : List (List Opd)), s.issueCx 0xA5 8 f.g = some x → orderScope f < 7 →
    let waits := fun (srcs : List Src) (t : State) (v : Word) (a : Dword) (op : WaitOp) =>
      s.awake (x.ends t ((x.c.emptySrcs srcs).waitAt (x.waitFor 2 (seqDet f) v a 0x110 (orderScope f) op))) State.trySeq
    (f.fn.toNat % 4 ≠ 3 → x.Reads [f.srcA 1, f.srcB 1] r → (x.s.chainOf x.c.ctx ((nthOpd r 0).at x.lane).toNat).isSome = true →
      exec (.seqwaitChain f) s = .next (waits [f.srcA 1, f.srcB 1] x.s ((nthOpd r 1).at x.lane)
        (BitVec.ofNat 64 ((nthOpd r 0).at x.lane).toNat) (.seqChain ((nthOpd r 0).at x.lane).toNat))) ∧
    (x.Reads [f.srcB 1] r →
      exec (.seqwaitThaw f) s = .next (waits [f.srcB 1] x.s ((nthOpd r 0).at x.lane) 0 .seqThaw)) ∧
    (∀ t a, x.Reads [f.srcA 2, f.srcB 1] r → (pairAt (nthRun r 0) x.lane).toNat % 4 = 0 →
      x.translateAll x.s .load 4 [(x.lane, pairAt (nthRun r 0) x.lane)] = .ok (t, [a]) →
      exec (.seqwaitMem f) s = .next (waits [f.srcA 2, f.srcB 1] t ((nthOpd r 1).at x.lane) (pairAt (nthRun r 0) x.lane) (.seqMem a))) ∧
    (∀ q, x.act = 0 →
      (f.fn.toNat % 4 ≠ 3 → x.once.peek [f.srcA 1, f.srcB 1] = .ok q →
        exec (.seqwaitChain f) s = .next (s.awake (x.ends x.s (x.c.emptySrcs [f.srcA 1, f.srcB 1]).waitPoint) State.trySeq)) ∧
      (x.once.peek [f.srcB 1] = .ok q →
        exec (.seqwaitThaw f) s = .next (s.awake (x.ends x.s (x.c.emptySrcs [f.srcB 1]).waitPoint) State.trySeq)) ∧
      (x.once.peek [f.srcA 2, f.srcB 1] = .ok q →
        exec (.seqwaitMem f) s = .next (s.awake (x.ends x.s (x.c.emptySrcs [f.srcA 2, f.srcB 1]).waitPoint) State.trySeq)))) ∧
  (∀ f : LE, BarrierStores (.bbinit f) 0xB4 f false (fun n => .bbinit (BitVec.ofNat 32 n)) ∧
    BarrierStores (.bbarr f) 0xB5 f true .bbarr ∧
    (∀ s x r t, s.issueCx 0xB6 8 f.g = some x → orderScope f < 7 → dstCheck x.c f.dst 1 true = .ok () →
      x.Reads [f.srcA 2, f.srcB 1] r → (pairAt (nthRun r 0) x.lane).toNat % 16 = 0 →
      x.phaseAcc (pairAt (nthRun r 0) x.lane) = .ok t →
      exec (.bbwait f) s = .next (s.awake (x.ends t.1 ((x.c.emptySrcs [f.srcA 2, f.srcB 1]).waitAt
        (x.waitFor 3 (orderScope f) ((nthOpd r 1).at x.lane &&& 0xFFFF) (pairAt (nthRun r 0) x.lane) f.dst (orderScope f)
          (.bbwait t.2)))) State.trySeq)))

/-- MMA, MMAS, MMAG and MMAX go into their quadrant's queue (R316, R321, R324, R326, R327, R328). The model's own choices in
it: log entries 26, 52, 54. -/
def Obligations.MatrixInstructionsQueue : Prop :=
  ∀ f : LX, QueuesMatrix (.mma f) 0xC0 f ∧ QueuesMatrix (.mmas f) 0xC1 f ∧ QueuesMatrix (.mmag f) 0xC2 f ∧
    QueuesMatrix (.mmax f) 0xC3 f

/-- The tile and task instructions do what their rules give (R315, R329, R330, R331, R332, R333, R334, R335, R336, R337,
R338). The model's own choices in it: log entries 55, 56. -/
def Obligations.TileAndTaskInstructionsResult : Prop :=
  (∀ (f : LE) (s : State) (x : Cx) (r : List (List Opd)),
    let k := x.s.clus x.c.clus
    let tile := ((nthOpd r 0).at x.lane).toNat
    (s.issueCx 0xC4 8 f.g = some x → x.Reads [f.srcA 1] r → tile < 32 → k.room (tile / 8) = true →
      exec (.accz f) s = .next (s.awake (x.ends x.s ((x.c.emptySrcs [f.srcA 1]).waitAt
        (x.waitFor 8 0xC4 0 (BitVec.ofNat 64 tile) 0x110 8 (.accz tile f)))) State.tryAccz)) ∧
    (s.issueCx 0xC8 8 f.g = some x →
      let n := f.md.toNat % 8 + 1
      let pos := ((nthOpd r 1).at x.lane).toNat
      dstCheck x.c f.dst n false = .ok () → x.Reads [f.srcA 1, f.srcB 1] r → x.c.cnt cM < 63 → tile < 32 → pos + n * x.c.w ≤ 9216 →
      let c1 := (x.c.emptySrcs [f.srcA 1, f.srcB 1]).raise cM x.op
      let c2 := c1.pendDests x.op f.la.toNat false
        ((List.range n).map (fun i => regDests c1 f.dst i x.act (.u (BitVec.ofNat 32 i)) 0)).flatten
      exec (.accrd f) s = .next (x.ends x.s { c2 with
        accReads := c2.accReads ++ [{ op := x.op, pc := x.p.pc, tile := tile, pos := pos, n := n, lanes := x.act }] })) ∧
    (s.issueCx 0xC9 8 f.g = some x → x.Reads [f.srcA 1] r → tile < 32 →
      let a : AccFree := { crew := x.id, ops := x.c.accReads.map (·.op), tile := tile,
                           qids := ((mgetD k.quads (tile / 8) []).filter (fun o => o.tile == tile)).map (·.id) }
      exec (.accfree f) s = .next (x.ends (x.s.setClus x.c.clus
        (if x.s.accfreeReady k a then k.freeTile tile else { k with accfree := k.accfree ++ [a] })) (x.c.emptySrcs [f.srcA 1]))) ∧
    (s.issueCx 0xCA 8 f.g = some x → dstCheck x.c f.dst 1 true = .ok () →
      (f.md = 0 → x.act ≠ 0 → exec (.mstat f) s = .next (x.ends (x.s.setClus x.c.clus k) (x.writeWord x.c f.dst k.mstat))) ∧
      (x.Reads [f.srcA 1] r →
        let m := (nthOpd r 0).at x.lane
        let cleared := k.mstat &&& ~~~(m &&& 0xF)
        exec (.mstatClr f) s = .next (x.ends
          (x.s.setClus x.c.clus { k with mstat := if m.getLsbD 16 then cleared &&& 0xFFFF else cleared })
          (x.writeWord (x.c.emptySrcs [f.srcA 1]) f.dst k.mstat)) ∧
        exec (.mstatCtl f) s = .next (x.ends
          (x.s.setClus x.c.clus { k with mstat := if m.getLsbD 8 then k.mstat ||| stGRPEN else k.mstat &&& ~~~stGRPEN })
          (x.writeWord (x.c.emptySrcs [f.srcA 1]) f.dst k.mstat))))) ∧
  (∀ (f : LE) (s : State) (x : Cx) (r : List (List Opd)),
    let k := x.s.clus x.c.clus
    let w := (nthOpd r 0).at x.lane
    (s.issueCx 0xC5 8 f.g = some x → dstCheck x.c f.dst 1 true = .ok () → x.Reads [f.srcA 1, f.srcB 2] r →
      let toks := taskToks (pairAt (nthRun r 1) x.lane)
      let c := x.c.emptySrcs [f.srcA 1, f.srcB 2]
      (∀ t ∈ toks, t < 0x1000 ∨ t = 0xFFFF) →
      (mfree k.dep 64 = none → exec (.task f) s = .next (x.ends x.s (x.writeWord c f.dst 0xFFFFFFFF))) ∧
      (∀ e, mfree k.dep 64 = some e → exec (.task f) s = .next (x.ends
        (x.s.setClus x.c.clus { k with
          dep := mput k.dep e { entry := x.p.pc + BitVec.ofInt 64 (w.toInt * 2), toks := toks.filter (fun t => t != 0xFFFF),
                                decl := k.decl, state := 0 }
          decl := k.decl + 1 })
        (x.writeWord c f.dst (BitVec.ofNat 32 e))))) ∧
    (s.issueCx 0xC7 8 f.g = some x → orderScope f < 7 → x.Reads [f.srcA 1] r → x.c.cnt cS < 63 → x.c.sq.length < 64 →
      x.s.tokOk (x.c.core / 128) w = true →
      exec (.ttok f) s = .next (x.ends x.s (x.queued [f.srcA 1] cS (.ttok w) [] true (orderScope f)))) ∧
    (s.issueCx 0xC6 8 f.g = some x → f.md = 0 → k.running = none → x.act ≠ 0 →
      exec (.tdoneRun f) s = .next (x.dispatches (x.s.setClus x.c.clus { k with root := some (x.p.pc + 8) }) x.c)) ∧
    (∀ e, s.issueCx 0xC6 8 f.g = some x → k.running = some e →
      let bare := f.sb == 0x110
      let srcs := if bare then [f.srcA 1] else [f.srcA 1, f.srcB 2]
      let va := pairAt (nthRun r 1) x.lane
      x.Reads srcs r → x.s.tokOk (x.c.core / 128) w = true → (bare = false → va.toNat % 16 = 0) →
      let d : Deferred := { dep := e, token := w, bar := if bare then none else some va, pc := x.p.pc, task := k.task,
                            sqOps := (x.c.sq.map (·.op) ++ x.c.unacked.map (·.1)).filter (fun o => decide (k.taskOp ≤ o)),
                            stage := 0, ids := [] }
      exec (.tdone f) s = .next (x.dispatches (x.s.setClus x.c.clus
        { k with running := none, defer := k.defer ++ [d], dep := mmod k.dep e (fun y => { y with state := 2 }) }) (x.c.emptySrcs srcs))))

/-- A quadrant adds one block to each element of its tile and changes no other element (R65, R66, R325, R326, R327). -/
def Obligations.BlockAddResult : Prop :=
  ∀ (s : State) (key q : Nat) (o : QOp) (opc : Nat) (f : LX) (t0 : AccTile) (g : Nat),
    let k := s.clus key
    s.ctxRuns (key / 64) = true → (mgetD k.quads q []).head? = some o → o.lx = some (opc, f) → mget k.tiles o.tile = some t0 →
    o.da.rows ≤ 96 → o.db.rows ≤ 96 → o.nextGroup opc o.group = some g →
    (o.blockLines opc f g o.block).all (fun l => (k.line o.task l).isSome) = true →
    (opc = 0xC1 → ∀ n < min 8 ((o.da.klen - 32 * o.block) / 4), (k.meta? f.q.toNat (o.resv + 8 * o.block + n)).isSome = true) →
    k.blockMarked o opc f g o.block = false → (f.za = true ∨ ∀ p ∈ o.groupCells opc g, t0.poison.contains p = false) →
    let old := fun p => if f.za && o.block == 0 && o.group == 0 && o.cells.contains p then 0 else t0.word p
    ∃ t u, exec (.quadrantBlockAdd key q) s = .next t ∧ mget (t.clus key).tiles o.tile = some u ∧
      (∀ i ∈ o.rowsOf opc g, ∀ j < o.db.rows,
        u.word (96 * i + j) = k.blockElem (o.begin f.za (f.text == 6) t0).1 opc f g o.block i j (old (96 * i + j))) ∧
      (∀ p, (∀ i ∈ o.rowsOf opc g, ∀ j < o.db.rows, p ≠ 96 * i + j) → u.word p = old p)

/-- The events of the matrix engine do what their rules give (R322, R323, R333, R334, R335, R336). The model's own choices
in it: log entry 55. -/
def Obligations.MatrixEventResult : Prop :=
  ∀ (s : State) (key : Nat),
    let k := s.clus key
    (s.ctxRuns (key / 64) = true →
      (∀ q pos vln o t s1 s2 bs p pa, (mgetD k.quads q [])[pos]? = some o → o.reads vln = true → k.line o.task vln = none →
        s.bufferUse key < 8192 → s.peerReqs.any (fun r => r.crew == clusEngine key && r.op == vln && r.lane == o.task) = false →
        s.translate (256 + key % 64) (key / 64) (BitVec.ofNat 64 (128 * vln)) .plotter = (s1, .ok t) → t.tgt = .hbm pa →
        k.obuf.find? (fun l => l.task == o.task && l.tgt == t.tgt && l.owner == t.owner) = none →
        s1.reach (key % 64 / 32) pa = true → s1.canPin pa = true → s1.homeEngine t.owner pa 128 = .ok (s2, bs, p) →
        exec (.plotterFetch key q pos vln) s = .next (s2.modClus key (fun k =>
          k.hold ⟨o.task, vln, t.tgt, t.owner, bs, s2.linePoison (pa / 128)⟩))) ∧
      (∀ q o, (mgetD k.quads q []).head? = some o → o.lx = none →
        exec (.acczZero key q) s = .next (s.setClus key
          ({ k with tiles := mmod k.tiles o.tile (fun _ => { words := [], poison := [] }) }.pop q))) ∧
      (∀ n a, k.accfree[n]? = some a → s.accfreeReady k a = true →
        exec (.accfreeEffect key n) s = .next (s.setClus key ({ k with accfree := k.accfree.eraseIdx n }.freeTile a.tile))) ∧
      (∀ id c r, s.surveyor key = some id → mget s.crews id = some c → c.evicted = false → c.waitOp = some .dispatch →
        s.dispatch c = some r → exec (.taskDispatch key) s = .next (r.1.setCrew id { r.2 with wait := none })) ∧
      (∀ n d, k.defer[n]? = some d → d.bar = none → s.deferReady key k d = true →
        exec (.deferredCompletion key n) s = .next
          ((s.modClus key (fun k => { k with defer := k.defer.eraseIdx n, dep := mdel k.dep d.dep })).postToken
            (clKey (key / 64) (tokClus (key % 64 / 32) d.token)) (tokOf d.token)))) ∧
    (∀ id op c a u, mget s.crews id = some c → c.accReads.find? (fun b => b.op == op) = some a →
      mget (s.clus c.clus).tiles a.tile = some u →
      let word := fun (w i : Nat) =>
        (normShape w (gen w (fun l => if a.lanes.getLsbD l then u.word (a.pos + i * w + l) else 0)),
         lanesWhere w (fun l => a.lanes.getLsbD l && u.poison.contains (a.pos + i * w + l)))
      exec (.accrdReturn id op) s = .next (((s.both id (fun d => d.fillPend op (word d.w))).modCrew id (fun d =>
        { d with accReads := d.accReads.filter (fun b => b.op != op) })).lowerOp id cM op))

/-- A chain's entry begins and works as its kind's rule gives (R161, R162, R164, R166, R176, R178, R185, R186, R187, R347).
The model's own choices in it: log entries 53, 112, 134. -/
def Obligations.ChainEntryBeginsAndWorks : Prop :=
  (∀ (s s1 : State) (h : Nat) (ch : Chain) (bs : List Byte),
    mget s.chains h = some ch → s.chainRuns ch = true → ch.cur = none → ch.ready.contains ch.next.toNat = true →
    ch.nops.contains ch.next.toNat = false → s.chainRead h ch (ch.slot ch.next) 64 = (s1, some (bs, false)) →
    s1.entryOk h (entryOf bs) = true →
    let e := entryOf bs
    let tile := fun (src : Option ShapeRec) (d : ShapeRec) =>
      let ranks := d.ranks (s.groupFor ch.ctx d)
      ({ e with src := src, dst := some d, ranks := ranks, prog := if ch.back.length = ranks.length then ch.back else ranks.map (fun _ => 0),
                count := d.count * etBytes d.etype * ranks.length } : Entry)
    (e.kind = 0 → exec (.nopEntry h) s = .next (s1.setEntry h { e with done := true })) ∧
    (e.kind = 5 → exec (.bbarrEntry h) s = .next (s1.setEntry h { e with done := true, count := (e.dws.getD 1 0).toNat })) ∧
    (∀ s2 s3 src d, e.kind = 1 → e.coll = false → s1.readShape h ch (e.dws.getD 1 0) false = (s2, some src) →
      s2.readShape h ch (e.dws.getD 2 0) true = (s3, some d) → src.etype = d.etype → src.count = d.count →
      d.count * etBytes d.etype ≤ 2 ^ 32 → ropOk false d.rop d.etype = true → s3.groupFor ch.ctx d = s.groupFor ch.ctx d →
      exec (.copyEntry h) s = .next (s3.setEntry h (tile (some src) d))) ∧
    (∀ s2 d, e.kind = 2 → s1.readShape h ch (e.dws.getD 1 0) true = (s2, some d) →
      ropOk false d.rop d.etype = true → s2.groupFor ch.ctx d = s.groupFor ch.ctx d →
      exec (.fillEntry h) s = .next ((s2.setEntry h (tile none d)).txeBeat h))) ∧
  (∀ (s : State) (h : Nat) (ch : Chain) (e : Entry), mget s.chains h = some ch → s.chainRuns ch = true → ch.cur = some e →
    e.done = false →
    (∀ d k0 u t s1 s2 pa, e.kind = 2 → e.src = none → e.dst = some d → d.gdim = 0 → d.rop = 0 → e.ranks = [0] → e.prog = [k0] →
      k0 < d.count → ch.acked = [] → ch.ids = [] →
      let ks := beatElems d 0 d.count (d.count - k0) k0
      beatUnits d 0 (fun _ => 0) (ks.zip (ks.map (fun _ => (leBytes (etBytes d.etype) (e.dws.getD 2 0).toNat, false)))) [] = [u] →
      s.translate (320 + h / 16) ch.ctx u.va .txeWrite = (s1, .ok t) → t.tgt = .hbm pa → s1.reach (h / 256) pa = true → u.rop = false →
      mget s1.chains h = some ch →
      (s1.modChain h (fun c => { c with units := [u.va] })).homeStore t.owner (maskedCells pa u.bytes) u.poison = .ok s2 →
      mget s2.chains h = some { ch with units := [u.va] } →
      exec (.txeBeat h) s = .next ((s2.modChain h (fun c => { c with acked := c.acked ++ [0] })).modChain h
        (fun c => c.endBeat 0 (k0 + ks.length)))) ∧
    (e.kind = 3 →
      (∀ p ∈ (e.dws.drop 1).take 4, p.getLsbD 31 = true → bits p 0 9 ≠ h →
        bits p 0 9 / 256 = h / 256 ∧ ∃ c, mget s.chains (bits p 0 9) = some c ∧ c.ctx = ch.ctx ∧
          seqGe c.compseq (BitVec.ofNat 32 (bits p 32 32)) = true) →
      exec (.qfenceEntry h) s = .next (s.setEntry h { e with done := true })) ∧
    (∀ s2 bs p, e.kind = 4 →
      let d2 := e.dws.getD 2 0
      let key := clKey ch.ctx (32 * (h / 256) + bits d2 16 5)
      let q := bits d2 22 2
      ch.mqGot < bits d2 0 16 → (mgetD (s.clus key).mq q []).length < 32 →
      s.chainRead h ch (e.dws.getD 1 0 + BitVec.ofNat 64 (64 * ch.mqGot)) 64 = (s2, some (bs, p)) →
      exec (.mqfillEntry h) s = .next ((s2.modClus key (fun k =>
        { k with mq := mput k.mq q (mput (mgetD k.mq q []) (mgetD k.mqIn q 0) bs), mqIn := mput k.mqIn q (mgetD k.mqIn q 0 + 1) })).modChain h
        (fun c => { c with mqGot := c.mqGot + 1, buf := [], cur := c.cur.map (fun e =>
          { e with done := decide (bits d2 0 16 ≤ c.mqGot + 1) }) }))) ∧
    (∀ r, s.peerReqs.find? (fun r => r.crew == chainEngine h && decide (1024 ≤ r.dev)) = some r →
      exec (.scaleOutAbandon h) s = .next ((({ s with peerReqs := s.peerReqs.filter (fun q => q.id != r.id) } : State).modChain h
        (fun c => { c with ids := c.ids.filter (fun i => i.1 != r.id) })).chainFault h
          (chainRec 17 r.engCls r.tag.va r.tag.leaf r.tag.level))))

/-- A performed entry completes: token, sequence number, X counters, and the chain goes on (R163, R176). -/
def Obligations.ChainEntryCompletes : Prop :=
  ∀ (s : State) (h : Nat) (ch : Chain) (e : Entry), mget s.chains h = some ch → s.chainRuns ch = true → ch.cur = some e →
    e.done = true → e.phase = 1 → e.bbsig = false → ch.ids = [] → ch.seqaddr = 0 →
    ∃ t c, exec (.entryComplete h) s = .next t ∧ mget t.chains h = some c ∧ c.compseq = ch.compseq + 1 ∧ c.cur = none ∧
      c.ready = ch.ready.filter (fun n => n != (ch.compseq + 1).toNat) ∧
      t.clusters = (s.postToken (clKey ch.ctx (32 * (h / 256) + e.tclu)) e.token).clusters ∧
      t.crews = ((ch.xops.filter (fun x => seqGe (ch.compseq + 1) x.2.2)).foldl
        (fun (s : State) x => s.lowerOp x.1 cX x.2.1) s).crews ∧
      (∀ k, k ≠ h → mget t.chains k = mget s.chains k)

/-- The events of a collective step do what their rules give at a member's reduction point (R359, R360, R361, R362, R363).
The model's own choices in it: log entries 51, 58, 104. -/
def Obligations.CollectiveEventResult : Prop :=
  ∀ (s : State) (g : Group) (c : Coll),
    (∀ b, s.openColl b.ctx b.group b.hdr.step = some c → s.group b.ctx b.group = some g →
      c.mute = none → c.lapsed = [] → c.passed = [] → c.result = [] → c.parts = [] → c.own = [] →
      (g.rank = some 0 → 2 ≤ g.size → c.fly.contains b = true → b.rank = 0 → g.devOf 1 ≠ s.devnum → s.peerPath (g.devOf 1) = true →
        ∃ t, exec (.contributionBeat b) s = .next t ∧ t.outbox = s.outbox ++
          [.partialBeat (g.devOf 1) { b with raises := b.scales.map (fun _ => 0), nrank := 1, novf := 0 }]) ∧
      (∀ own, g.rank = some own → 2 ≤ own → s.collLive b = true → c.copies.contains b = false → s.areaRoom b = true →
        exec (.buddyCopy b) s = .next (s.modColl b.ctx b.group b.hdr.step (fun c => { c with copies := c.copies ++ [b] })))) ∧
    (∀ b own x, s.openColl b.ctx b.group b.hdr.step = some c → s.group b.ctx b.group = some g → s.collLive b = true →
      c.mute = none → c.lapsed = [] → c.passed = [] → c.result = [] → c.parts = [] →
      g.rank = some own → own + 1 = g.size → b.rank + 1 = own → c.own.find? (fun x => x.beat == b.beat) = some x → x.hdr = b.hdr →
      1 < collBeats (combineBeat b x).hdr →
      ∃ t c', exec (.partialBeat b) s = .next t ∧ t.coll b.ctx b.group b.hdr.step = some c' ∧ c'.result = [combineBeat b x]) ∧
    (∀ ctx group own p, s.firstColl ctx group = some c → s.group ctx group = some g → g.rank = some own → own + 2 ≤ g.size →
      c.passed = [p] → p.rank = own → c.lapsed = [] → g.devOf (own + 2) ≠ s.devnum → s.peerPath (g.devOf (own + 2)) = true →
      exec (.groupTimeout ctx group (own + 1) p.beat) s = .next ((s.modColl ctx group c.step (fun c =>
        { c with lapsed := c.lapsed ++ [(own + 1, p.beat)] })).send
          (.partialBeat (g.devOf (own + 2)) { p with silent := putRank p.silent (own + 1) }))) ∧
    (∀ ctx group rank, s.colls.find? (fun c => c.ctx == ctx && c.group == group && c.waits.any (fun w => w.1 == rank)) = some c →
      s.coll ctx group c.step = some c → c.waits.any (fun w => w.1 != rank) = true →
      ∃ t c', exec (.destAckTimeout ctx group rank) s = .next t ∧ t.coll ctx group c.step = some c' ∧
        c'.dmiss = putRank c.dmiss rank ∧ c'.waits = c.waits.filter (fun w => w.1 != rank)) ∧
    (∀ n : CollNotice, s.group n.ctx n.group = some g → seqGe g.cstep n.step = false →
      exec (.completionNotice n) s = .next (((s.modColl n.ctx n.group n.step (fun c =>
        { c with record := c.record.or (some n.record), fly := [], own := [], copies := [], parts := [], passed := [], result := [],
                 waits := [] })).txeBeat g.chain).completeEntry g.chain))

/-- The team barriers, SPAWN, SYNCW and the helper instructions do what their rules give (R374, R375, R376, R377, R380,
R383, R384, R385, R388, R389). The model's own choices in it: log entries 60, 61, 62, 97, 98. -/
def Obligations.TeamTaskAndHelperResult : Prop :=
  (∀ (f : LE) (s : State) (x : Cx) (r : List (List Opd)) (n : Nat), x.act ≠ 0 →
    let c := if f.sa == 0x110 then x.c else x.c.emptySrcs [f.srcA 1]
    (s.issueCx 0xE0 8 f.g = some x → barCount f x = .ok n → exec (.bar f) s = .next (s.awake (x.ends x.s (c.waitAt
      (x.waitFor 0 f.md.toNat 0 0 0x110 1 (.release (.bar f.md.toNat n (f.fn.getLsbD 0)) false [])))) State.tryBar)) ∧
    (s.issueCx 0xE1 8 f.g = some x → dstCheck x.c f.dst 1 true = .ok () → barCount f x = .ok n →
      exec (.bara f) s = .next (s.awake (x.ends x.s (c.await
        (x.waitFor 0 f.md.toNat 0 0 f.dst 8 (.release (.bara f.md.toNat n) false [])))) State.tryBar)) ∧
    (s.issueCx 0xE2 8 f.g = some x → x.once.fetch [f.srcA 1] = .ok r → exec (.barw f) s = .next (s.awake (x.ends x.s
      ((x.c.emptySrcs [f.srcA 1]).waitAt (x.waitFor 4 f.md.toNat ((nthOpd r 0).at x.lane &&& 0xFFFF) 0 0x110 1 (.barw f.md.toNat))))
      State.tryBar))) ∧
  ((∀ (f : LB) (s : State) (x : Cx) (r : List (List Opd)), x.act ≠ 0 → x.c.sq.length < 64 →
    let src : Src := { d := f.dst, xc := 0, dead := false, k := 2, fld := 0, upper := false, zero := false }
    let y := if f.md.getLsbD 0 then x else x.once
    (s.issueCx 0xE3 8 f.g = some x → y.fetch [src] = .ok r → x.c.cnt cS < 63 → x.s.spawnRoom x.c (laneList y.act).length = true →
      exec (.spawn f) s = .next (s.awake (x.ends x.s (x.queued [] cS
        (.spawn ((laneList y.act).map (fun l => (f.target x.p.pc, pairAt (nthRun r 0) l)))) [] true 2)) State.trySpawn)) ∧
    (s.issueCx 0xE5 8 f.g = some x → f.md.toNat % 8 < 6 → x.once.fetch [src] = .ok r → laneCount x.act ≤ 1 → x.c.recruit = none →
      let n := ((nthOpd r 0).at x.lane).toNat
      let grant := (x.s.eligible x.id x.c).take (min (((nthRun r 0).getD 1 ⟨.u 0, 0⟩).at x.lane).toNat 64)
      let none_ := grant.isEmpty || n == 0
      let q : Recruit := { op := x.op, waiting := if none_ then [] else grant, lane := x.lane, oper := f.md.toNat % 8, n := n, next := 0,
                           closed := none_, body := f.target x.p.pc, groups := [], contrib := [], errs := [], flags := 0, fpctl := x.c.fpctl }
      exec (.recruit f) s = .next (x.ends x.s
        (({ x.c with hcount := BitVec.ofNat 32 grant.length, recruit := some q } : Crew).enqueue x.op x.p.pc .recruit [] true 1)))) ∧
  (∀ (f : LE) (s : State) (x : Cx) (r : List (List Opd)), x.act ≠ 0 →
    (s.issueCx 0xE4 8 f.g = some x → exec (.syncw f) s = .next (s.awake (x.ends x.s
      (x.c.waitAt (x.waitFor 5 0 0 0 0x110 3 .syncw))) State.trySyncw)) ∧
    (s.issueCx 0xE6 8 f.g = some x → x.c.isHelper = true → x.fetch [f.srcA 1] = .ok r →
      exec (.hjoinHelper f) s = .next (s.awake (x.ends x.s ((x.c.emptySrcs [f.srcA 1]).await
        (x.waitFor 0 0 0 0 0x110 8 (.release (.join ((laneList x.act).map (fun l => (l, (nthOpd r 0).at l)))) false []))))
        (fun s id => (s.tryHjoin id).tryBar id))) ∧
    (s.issueCx 0xE6 8 f.g = some x → x.c.isHelper = false → dstCheck x.c f.dst 2 false = .ok () →
      exec (.hjoin f) s = .next (s.awake (x.ends x.s (x.c.closeCounter.waitAt
        (x.waitFor 6 ((x.c.recruit.map (·.oper)).getD 0) 0 0 f.dst 1 .hjoin))) (fun s id => (s.tryHjoin id).tryBar id))) ∧
    (s.issueCx 0xE7 8 f.g = some x → exec (.hrel f) s = .next (x.ends x.s x.c.closeCounter))))

/-- An arrival completes a generation exactly when the rule of R375 says so (R373, R374, R375). -/
def Obligations.BarrierGenerationResult : Prop :=
  ∀ (s : State) (c : Crew) (n count : Nat) (tm : Team), mget s.teams c.team = some tm →
    (barMask (tm.bar n)).testBit c.teampos = false → c.teampos < 32 → count < 33 → (barMask (tm.bar n) = 0 ∨ count = barCnt (tm.bar n)) →
    let mask := barMask (tm.bar n) ||| 2 ^ c.teampos
    let full := if count = 0 then (∀ p < tm.crews.length, tm.exited.contains p = true ∨ mask.testBit p = true)
      else count ≤ ((List.range 32).filter (fun p => mask.testBit p)).length
    ∃ t u, s.arriveBar c n count = .ok (t, barGen (tm.bar n)) ∧ mget t.teams c.team = some u ∧
      (full → barMask (u.bar n) = 0 ∧ barGen (u.bar n) = (barGen (tm.bar n) + 1) % 2 ^ 16) ∧
      (¬ full → barMask (u.bar n) = mask ∧ barGen (u.bar n) = barGen (tm.bar n) ∧ barCnt (u.bar n) = count)

/-- Messages at their homes, and requests and replies of peers and the host, have their rule's effect (R96, R100, R104,
R108, R144, R147, R149, R348, R474). The model's own choices in it: log entries 13, 71, 72, 99. -/
def Obligations.MessageAndRemoteEventResult : Prop :=
  (Delivers .writeBack (fun k => match k with | .writeBack _ _ _ _ => true | _ => false) homeMerge ∧
  Delivers .storeAtHome (fun k => match k with | .store _ => true | _ => false) homeStores ∧
  Delivers .atomicAtHome (fun k => match k with | .atom _ _ _ _ => true | _ => false) homeAtoms ∧
  Delivers .holdMessage (fun k => match k with | .hold => true | _ => false) homeHold ∧
  Delivers .bbArrival (fun k => match k with | .arrive _ _ => true | .bbinit _ _ => true | _ => false) homeBar ∧
  (∀ (s : State) (n : Nat),
    (∀ a, s.acks[n]? = some a → s.ackBehind n a = false → exec (.storeAck n) s = .next (({ s with acks := s.acks.eraseIdx n } : State).tookAck a.1)) ∧
    (∀ core l, (s.l1 core)[n]? = some l → exec (.l1Evict core n) s = .next (s.evict core l)) ∧
    (∀ m ∈ s.net, m.ln = n → m.held = none → (m.kind = .hold → False) → ∀ t, s.recallAt (128 * n) = .ok t →
      exec (.rangeRecall n) s = .next t))) ∧
  ((∀ (s : State) (r : PeerRequest), s.rot.released = true →
    (∀ bs mark, r.op = .write bs mark → inHbm r.pa (max bs.length 1) = true →
      (∀ t, s.homeStore r.owner (maskedCells r.pa bs) mark = .ok t →
        exec (.remoteRequest r) s = .next (t.send (.reply r.dev r.tag 0 [] none))) ∧
      (∀ e, s.homeStore r.owner (maskedCells r.pa bs) mark = .error e →
        exec (.remoteRequest r) s = .next (s.send (.reply r.dev r.tag e [] none)))) ∧
    (∀ n bs t, r.op = .read n → inHbm r.pa (max n 1) = true → s.homeLoad r.owner r.pa n = .ok (t, bs, false) →
      exec (.remoteRequest r) s = .next (t.send (.reply r.dev r.tag 0 bs none))) ∧
    (∀ off n bs t, r.op = .line off n → inHbm r.pa 128 = true → s.rangeAt r.pa = none → s.heapHit r.pa 128 false = false →
      s.homeLoad r.owner r.pa 128 = .ok (t, bs, false) → t.replicaEntry r.pa r.dev = none →
      exec (.remoteRequest r) s = .next (t.send (.reply r.dev r.tag 0 bs none)))) ∧
  (∀ (s : State) (r : PeerReply) (q : PeerReq), s.peerReqs.find? (fun q => q.id == r.op) = some q → q.held = none →
    exec (.remoteReply r) s = .next (s.answer q r.status r.data r.entry)) ∧
  (∀ (s : State) (r : HostReply),
    (s.accept r.ident r.seq = none → exec (.hostWindowReply r) s = .next (s.portDrop r.port)) ∧
    (∀ t, s.accept r.ident r.seq = some t →
      (∀ q, t.hostReqs.find? (fun q => q.sent && q.held.isNone && q.ident == r.ident && q.reqid == r.reqid) = some q →
        (q.write = true → r.op = 0x82 → r.len = 0 → r.status = 0 → exec (.hostWindowReply r) s = .next (t.answer q.asPeer 0 r.data)) ∧
        (q.write = false → r.op = 0x81 → r.len.toNat = q.len → r.data.length = q.len → r.status = 0 →
          exec (.hostWindowReply r) s = .next (t.answer q.asPeer 0 r.data)) ∧
        (r.status ≠ 0 → exec (.hostWindowReply r) s = .next (t.answer q.asPeer 7 r.data))) ∧
      (t.hostReqs.find? (fun q => q.sent && q.held.isNone && q.ident == r.ident && q.reqid == r.reqid) = none →
        exec (.hostWindowReply r) s = .next (t.portDrop r.port)))) ∧
  (∀ (s : State) (n : Nat) (q : PeerReq), s.peerReqs.find? (fun q => q.id == n && q.held.isNone) = some q →
    exec (.peerSilenceTimeout n) s = .next (s.silentReq q)))

/-- The heap and node-queue instructions do what their rules give (R308, R310, R311, R312, R313, R393, R394, R395, R398).
The model's own choices in it: log entries 33, 44, 65, 128. -/
def Obligations.HeapAndNodeInstructionsResult : Prop :=
  (∀ (f : LE) (s : State) (x : Cx) (r : List (List Opd)) (t : State × List LaneAcc),
    (s.issueCx 0xEC 8 f.g = some x → x.Reads [f.srcA 2, f.srcB 1] r → x.c.cnt cS < 63 → x.c.sq.length < 64 →
      let va := pairAt (nthRun r 0) x.lane
      let cap := ((nthOpd r 1).at x.lane).toNat
      1 ≤ cap → cap ≤ 4096 → va.toNat % 128 = 0 → x.translateAll x.s .atomic 64 [(x.lane, va)] = .ok t →
      exec (.hclr f) s = .next (x.ends t.1 (x.queued [f.srcA 2, f.srcB 1] cS (.hclr cap (f.md.getLsbD 0)) t.2 false 8))) ∧
    (s.issueCx 0xEA 8 f.g = some x →
      let srcs := [{ f.srcD 2 with zero := false }, f.srcA 1, f.srcB 1]
      x.fetch srcs = .ok r → x.act ≠ 0 → x.c.cnt cS < 63 → x.c.sq.length < 64 →
      x.aligned 128 (fun l => pairAt (nthRun r 0) l) = .ok () →
      x.translateAll x.s .atomic 64 ((laneList x.act).map (fun l => (l, pairAt (nthRun r 0) l))) = .ok t →
      exec (.hpush f) s = .next (x.ends t.1 (x.queued srcs cS .hpush (t.2.map (fun a =>
        ({ a with x := ((nthOpd r 1).at a.lane).setWidth 64 &&& 0xFFFF, y := ((nthOpd r 2).at a.lane).setWidth 64 } : LaneAcc))) false 8))) ∧
    (∀ u a, s.issueCx 0xEB 8 f.g = some x → dstCheck x.c f.dst 1 true = .ok () → x.Reads [f.srcA 2, f.srcB 2] r →
      let va := pairAt (nthRun r 0) x.lane
      let out := pairAt (nthRun r 1) x.lane
      va.toNat % 128 = 0 → out.toNat % 8 = 0 → x.translateAll x.s .atomic 64 [(x.lane, va)] = .ok (u, [a]) →
      exec (.hdrain f) s = .next (s.awake (x.ends u ((x.c.emptySrcs [f.srcA 2, f.srcB 2]).waitAt
        (x.waitFor 8 0xEB 0 va f.dst 8 (.hdrain a out (f.md.getLsbD 0) 0 0 [])))) State.tryHdrain))) ∧
  (∀ (f : LE) (s : State) (x : Cx) (r : List (List Opd)),
    (∀ t, s.issueCx 0xE8 8 f.g = some x → f.fn.toNat % 8 < 7 → f.sa.toNat < 256 →
      let k := f.md.toNat + 1
      let srcs := [{ f.srcD 2 with zero := false }, { f.srcA k with zero := false }]
      x.fetch srcs = .ok r → x.act ≠ 0 → x.c.cnt cS < 63 → x.c.sq.length < 64 →
      x.translateAll x.s .atomic 64 ((laneList x.act).map (fun l => (l, pairAt (nthRun r 0) l))) = .ok t →
      (∀ a ∈ t.2, a.va.toNat % 64 = 0 ∧ a.isHbm = true) →
      exec (.nqpush f) s = .next (s.awake (x.ends t.1 ((x.queued srcs cS (.nqpush k) (t.2.map (fun a =>
        ({ a with bytes := (((nthRun r 1).map (fun o => leBytes 4 (o.at a.lane).toNat)).flatten).map some } : LaneAcc))) true
        (f.fn.toNat % 8)).waitAt (x.waitFor 8 0xE8 0 0 0x110 8 (.sqEntry x.op)))) State.trySqEntry)) ∧
    (∀ t a, s.issueCx 0xE9 8 f.g = some x → f.md.toNat % 4 ≠ 3 → dstCheck x.c f.dst 3 false = .ok () → x.Reads [f.srcA 2] r →
      let va := pairAt (nthRun r 0) x.lane
      let c := x.c.emptySrcs [f.srcA 2]
      x.takeNode va = .ok (t, a) → (t.nodeDesc a.owner a.pa).entry = 0 →
      exec (.nqtake f) s = .next (s.awake (x.ends t (c.waitAt (x.waitFor 7 f.md.toNat 0 va f.dst 4 (.nqtake a)))) State.tryNqtake) ∧
      (∀ g, t.takeTile a = .ok g → let got := g.getD (t, 0, 0)
       let ws := [loWord got.2.1, hiWord got.2.1, BitVec.ofNat 32 got.2.2]
       let q := acquireHold got.1 (c.putDests ((ws.zipIdx.map (fun v => regDests c f.dst v.2 x.act (.u v.1) 0)).flatten))
         (got.1.scopeWide (c.putDests ((ws.zipIdx.map (fun v => regDests c f.dst v.2 x.act (.u v.1) 0)).flatten)) 4)
       exec (.nqtakeTry f) s = .next (x.ends q.1 q.2))) ∧
    (∀ t a u, s.issueCx 0xE9 8 f.g = some x → x.Reads [f.srcA 2, f.srcB 2] r → x.c.cnt cS < 63 → x.c.sq.length < 64 →
      x.takeNode (pairAt (nthRun r 0) x.lane) = .ok (t, a) →
      ({ x with s := t } : Cx).translateAll t .range 65536 [(x.lane, pairAt (nthRun r 1) x.lane)] = .ok u →
      exec (.nqtakeRet f) s = .next (x.ends u.1 (x.queued [f.srcA 2, f.srcB 2] cS .nqret (a :: u.2) false 8))))

/-- The events of nodes, completion and scheduling have their rule's effect (R311, R381, R382, R395, R396, R397, R420, R421,
R423, R425, R428, R434). The model's own choices in it: log entries 64, 66, 67, 78, 79, 80, 81, 82, 83, 120, 126, 137. -/
def Obligations.NodeCompletionAndSchedulingResult : Prop :=
  (Delivers .heapPushAtHome (fun k => match k with | .heapPush _ _ _ => true | _ => false) homePush ∧
  (∀ (s : State) (n : Nat) (m : Msg) (a : LaneAcc) (k : Nat), s.net[n]? = some m → m.kind = .nodePush a k → m.held = none →
    (s.msgBehind n m = false ∨ ∃ node, mget s.nodes a.pa = some node ∧ node.ops.contains (.push m.id) = true) →
    (s.reach (m.core / 128) a.pa = true →
      exec (.nodePush n) s = .next (({ s with nodes := mput s.nodes a.pa (s.nodeRec a.pa a.owner m.tag.ctx a.va) } : State).arriveNode
        a.pa (.push m.id))) ∧
    (s.reach (m.core / 128) a.pa = false → exec (.nodePush n) s = .next (s.refuseMsg m (m.failRec 17)))) ∧
  (∀ (s : State) (n : Nat) (k : Node), mget s.nodes n = some k →
    (k.timer = true → exec (.nodeTimerExpiry n) s = .next
      ((s.modNode n (fun k => { k with timer := false })).arriveNode n (.expiry none))) ∧
    (0 < k.press → exec (.nodePressureExpiry n) s = .next
      ((s.modNode n (fun k => { k with press := k.press - 1 })).arriveNode n (.expiry none)))) ∧
  (∀ (s : State) (id : Nat) (c : Crew), mget s.crews id = some c → c.spent = true → c.hgroup = none → s.ctxRuns c.ctx = true →
    (∀ msgs, c.waitOp = some (.finish msgs) → s.inFlight msgs = false → mget (s.endFinish id c).crews id = none →
      exec (.crewComplete id) s = .next (s.endFinish id c)) ∧
    (c.wait = none →
      exec (.crewComplete id) s = .next (((s.beginFinish id c).finishCrew id).endGroup id))) ∧
  (∀ (s : State) (id : Nat) (c : Crew), mget s.crews id = some c → c.spent = true → c.hgroup.isSome = true →
    exec (.crewComplete id) s = .next { s with crews := mdel s.crews id, fenceShots := mdel s.fenceShots id })) ∧
  ((∀ (s : State) (d : Datagram), s.accept d.ident d.seq = none → exec (.launchDatagram d) s = .next (s.portDrop d.port)) ∧
  (∀ (s u : State) (d : Datagram), s.accept d.ident d.seq = some u →
    (d.bytes.length % 64 ≠ 0 ∨ d.bytes.length = 0 ∨ 1024 < d.bytes.length → exec (.launchDatagram d) s = .next (u.portDrop d.port)) ∧
    (d.bytes.length % 64 = 0 → 0 < d.bytes.length → d.bytes.length ≤ 1024 →
      exec (.launchDatagram d) s = .next ((List.range (d.bytes.length / 64)).foldl (fun v j =>
        v.acceptLaunch d.ident ((List.range 8).map (fun k => BitVec.ofNat 64 (leNat ((d.bytes.drop (64 * j + 8 * k)).take 8))))) u)) ∧
    (∀ (q : Queue), d.bytes.length = 64 →
      let dws := (List.range 8).map (fun j => BitVec.ofNat 64 (leNat ((d.bytes.drop (8 * j)).take 8)))
      let n := bits (dws.getD 0 0) 20 12
      mget u.queues n = some q → q.ident = d.ident → hiWord (dws.getD 0 0) = q.expseq → q.msgs.length < 32 →
      let l : Launch := { queue := n, dws := dws, checked := false, next := 0, ranges := [], teams := [], survs := [], started := [],
                          drain := none, placed := false, status := 0 }
      exec (.launchDatagram d) s = .next { u with
        opSeq := u.opSeq + 1
        launches := mput u.launches u.opSeq l
        queues := mput u.queues n { q with expseq := q.expseq + 1, msgs := q.msgs ++ [u.opSeq] } })) ∧
  (∀ (s : State) (die : Nat), die < 2 →
    let u := s.checkHeads
    let best := bestPick ((u.queueOrder die).filterMap (u.queuePick die) ++ u.sealedQ.filterMap (u.tilePick die))
    (best = none → exec (.placeTeam die) s = .next u) ∧
    (∀ q id l ctx plan, best = some (.grid q id l ctx plan) →
      let t := u.seatLaunchTeam id l ctx l.next plan
      exec (.placeTeam die) s = .next (({ t with
        launches := mmod t.launches id (fun l => { l with next := l.next + 1 })
        rr := mput t.rr die (q + 1) } : State).placedAll q id (decide (l.nteams ≤ l.next + 1)))) ∧
    (∀ q id l ctx cluster core plan, best = some (.priv q id l ctx cluster core plan) →
      let rest := l.ranges.map (fun r => if r.1 = cluster then (r.1, r.2.1 + 1, r.2.2) else r)
      let t := u.seatLaunchTeam id l ctx (((l.ranges.find? (fun r => r.1 == cluster)).map (·.2.1)).getD 0) plan
      exec (.placeTeam die) s = .next (({ t with
        launches := mmod t.launches id (fun l => { l with ranges := rest })
        rr := mput (mput t.rr die (q + 1)) (1048576 + cluster) ((core + 1) % 4) } : State).placedAll q id
          (rest.all (fun r => decide (r.2.2 ≤ r.2.1))))) ∧
    (∀ t plan, best = some (.node t plan) → exec (.placeTeam die) s = .next (u.seatConsumer t plan))) ∧
  (∀ (s : State) (q id : Nat) (l : Launch) (r : Queue), s.checkHeads.eligibleHead q = some (id, l, r) →
    (∀ pa owner, l.kind = 1 → s.checkHeads.plainPage r.ctx (l.dw 1) = some (pa, owner) →
      exec (.nodeDrainMessage q) s = .next ((({ s.checkHeads with
        nodes := mput s.checkHeads.nodes pa (s.checkHeads.nodeRec pa owner r.ctx (l.dw 1)) } : State).placedAll q id true).arriveNode pa
          (.expiry (some id)))) ∧
    (l.kind = 2 → l.ranges = [] →
      let ks := (List.range 64).filter (fun k => s.checkHeads.launchUses l r.ctx k && (!l.surv || s.checkHeads.survFree k))
      ks ≠ [] →
      let k0 := ks.filter (fun k => decide (k < 32))
      let cut := (l.nteams * k0.length + ks.length - 1) / ks.length
      let ranges := splitRange 0 cut k0 ++ splitRange cut l.nteams (ks.filter (fun k => decide (32 ≤ k)))
      let t : State := { s.checkHeads with launches := mmod s.checkHeads.launches id (fun l => { l with ranges := ranges }) }
      exec (.privilegedDistribute q) s = .next (if l.surv then
        (ranges.filter (fun e => decide (e.2.1 < e.2.2))).foldl (fun v e => v.startSurveyor id l r.ctx e.1) t else t))) ∧
  (∀ (s : State) (id cluster : Nat) (l : Launch) (q : Queue) (mine v : Nat × Nat × Nat), mget s.launches id = some l →
    mget s.queues l.queue = some q → s.placing q.ctx = true → s.clusterAvail cluster = true → l.ranges.find? (fun r => r.1 == cluster) = some mine →
    mine.2.2 ≤ mine.2.1 →
    (largestRange (l.ranges.filter (fun r => r.1 / 32 == cluster / 32))).or
      (largestRange (l.ranges.filter (fun r => r.1 / 32 != cluster / 32))) = some v →
    let half := if s.clusterAvail v.1 then (v.2.2 - v.2.1) / 2 else v.2.2 - v.2.1
    let cut := v.2.2 - half
    0 < half → (l.surv = true → l.started.contains cluster = false → s.survFree cluster = true) →
    let t : State := { s with launches := mput s.launches id { l with ranges := l.ranges.map (fun r =>
      if r.1 = v.1 then (r.1, r.2.1, cut) else if r.1 = cluster then (r.1, cut, v.2.2) else r) } }
    exec (.distributorSteal id cluster) s = .next
      (if l.surv && !l.started.contains cluster then t.startSurveyor id l q.ctx cluster else t)) ∧
  (∀ (s : State) (core part d n : Nat) (t : Task) (p : Crew), core < 256 → part < 8 → s.nextTask core part = some (d, n, t) →
    mget s.crews t.parent = some p →
    exec (.taskTake core part) s = .next
      (({ s with deques := mput s.deques d ((mgetD s.deques d []).eraseIdx n) } : State).seatTeam t.ctx [(core, part)] none none (fun k _ =>
        { startCrew k 0 t.ctx p.w p.nregs t.entry (allLanes p.w) [loWord t.arg, hiWord t.arg] with
          origin := t.origin, parent := some t.parent, teamid := p.teamid, grid := p.grid }))) ∧
  (∀ (s : State) (id : Nat) (l : Launch) (q : Queue), mget s.launches id = some l → s.launchDone l = true →
    mget s.queues l.queue = some q →
    let t : State := { s with
      launches := mdel s.launches id
      queues := mput s.queues l.queue (({ q with finished := q.finished ++ [l.seq] } : Queue).advance (q.finished.length + 1)) }
    (l.cmode = 0 → exec (.launchComplete id) s = .next t) ∧
    (l.cmode ≠ 0 →
      let u := t.writeCompletion l.queue q l.seq l.status
      (l.cmode = 2 → (mget u.sessions q.ident).isSome = true → exec (.launchComplete id) s = .next
        (u.send (.completion q.ident (leBytes 4 l.queue ++ leBytes 4 l.seq.toNat ++ leBytes 8 l.status)))) ∧
      (l.cmode ≠ 2 ∨ (mget u.sessions q.ident).isSome = false → exec (.launchComplete id) s = .next u))))

/-- Stop records, time slices, the watchdog, eviction and restoration (R448, R449, R456, R457, R460). The model's own
choices in it: log entries 40, 41, 74, 75, 76, 77, 84, 85, 101, 117. -/
def Obligations.StopAndYieldEventResult : Prop :=
  ∀ (s : State) (ctx : Nat) (x : Ctx), mget s.ctxs ctx = some x →
    (∀ y, x.halted = true → x.recorded = false → s.memStopped ctx = true →
      let u := ((s.ctxCrews ctx).filter (fun e => !e.2.evicted && !e.2.done)).foldl (fun (s : State) e => s.saveCrew e.1) s
      mget u.ctxs ctx = some y → exec (.stopRecordsWrite ctx) s = .next
        ((u.writeArea ctx y (u.areaPieces y ctx (u.ctxCrews ctx) true)).modCtx ctx (fun x => { x with recorded := true }))) ∧
    (x.tslice ≠ 0 → exec (.timeSliceExpiry ctx) s = .next
      (({ s with crews := s.crews.map (fun e => if e.2.ctx = ctx then (e.1, { e.2 with yreq := true }) else e) } : State).modCtx ctx
        (fun x => { x with yieldReq := true }))) ∧
    (x.halted = false →
      (x.yieldReq = true → s.allEvicted ctx = false →
        ∃ t y, exec (.tsliceEscalation ctx) s = .next t ∧ mget t.ctxs ctx = some y ∧ y.halted = true ∧
          y.cause = Cause.none.add causeTslice 0 ∧ y.haltseq = x.haltseq + 1) ∧
      (∀ id c, mget s.crews id = some c → c.ctx = ctx → c.evicted = false →
        (∀ w, x.wdog ≠ 0 → c.wait = some w → 1 ≤ w.kind →
          exec (.watchdogExpiry id) s = .next ((s.setCrew id { c with cause := c.cause.add causeWdog 0 }).raiseLine ctx
            (Cause.none.add causeWdog 0) (some id))) ∧
        (∀ d, c.yreq = true → c.done = false → c.hgroup = none → c.recruit = none → c.blocked = true → c.quiet = true →
          s.lentLanes id = 0 →
          let u := if (s.ctxCrews ctx).all (fun e => e.1 == id || e.2.evicted || e.2.done || e.2.hgroup.isSome) &&
              (s.saveCrew id).ctxRuns ctx then (s.saveCrew id).saveDevice id c else s.saveCrew id
          u.ctxRuns ctx = true → mget u.crews id = some d →
          ∃ t e, exec (.crewEvict id) s = .next t ∧ mget t.crews id = some e ∧ e.evicted = true ∧
            e.cause = d.cause.add causeYield 0)) ∧
      (∀ id c v u, mget s.crews id = some c → c.ctx = ctx → c.evicted = true → (x.yieldReq = false ∨ s.allEvicted ctx = true) →
        s.placeFree c = true → (x.evicted = false → v = s) → (x.evicted = true → s.loadDevice c = .ok v) →
        v.readCrew id false = .ok (some u) →
        exec (.crewRestore id) s = .next (((u.standBack id c).endYield ctx).payOwed c.slot)))

/-- The events of memory, waits, freezes and fences have their rule's effect (R77, R116, R121, R124, R127, R134, R141, R175,
R201, R203, R431, R433). The model's own choices in it: log entries 10, 12, 100, 132. -/
def Obligations.MemoryWaitAndFreezeEventResult : Prop :=
  ((∀ (s : State) (id : Nat) (c : Crew), mget s.crews id = some c →
    (s.memRuns c = true →
      (∀ op lanes ld, c.loads.find? (fun l => l.op == op) = some ld →
        (ld.vrest = none →
          let u := (ld.accs.filter (fun a => lanes.getLsbD a.lane)).foldl (fun s a => s.captureInOrder id op a) s
          (∀ d l, mget u.crews id = some d → d.loads.find? (fun l => l.op == op) = some l → l.vrest = none) →
          exec (.loadReturn id op lanes) s = .next (u.finishLoad id op)) ∧
        (ld.vrest.isSome = true → ∀ d l,
          let u := ld.accs.foldl (fun s a => s.captureInOrder id op a) s
          mget u.crews id = some d → d.loads.find? (fun l => l.op == op) = some l → l.vrest.isSome = true →
          exec (.loadReturn id op lanes) s = .next (u.vrestStep id l))) ∧
      (∀ e rest, c.sq = e :: rest →
        (e.rel = true → e.stage < 2 → exec (.storeRetire id) s = .next (s.releaseStage id c e)) ∧
        (¬ (e.rel = true ∧ e.stage < 2) → exec (.storeRetire id) s = .next (s.retireHead id c e)) ∧
        (∀ v, e.kind = .rel v → 2 ≤ e.stage → exec (.storeRetire id) s = .next (s.leave id e.op cS [])))) ∧
    (s.ctxRuns c.ctx = true → ∀ w, c.wait = some w → w.owed = none →
      (∀ sel v, w.op = .waitc sel → s.viewCrew id = some v → v.wait = some w → waitcHolds v sel w.val.toNat = true →
        exec (.waitWake id) s = .next (s.endWait id none)) ∧
      (w.op = .syncw → c.out = 0 → c.sq.any (fun e => match e.kind with | .spawn _ => true | _ => false) = false →
        let q := acquireHold s c (s.scopeWide c 3)
        exec (.waitWake id) s = .next ((q.1.setCrew id q.2).endWait id none)) ∧
      (∀ h ch, w.op = .seqChain h → mget s.chains h = some ch → seqGe ch.compseq w.val = true →
        exec (.waitWake id) s = .next ((s.wakeAcquire c w.scope).endWait id none)) ∧
      (w.op = .seqThaw → seqGe s.thawDone w.val = true →
        exec (.waitWake id) s = .next ((s.wakeAcquire c w.scope).endWait id none)) ∧
      (∀ a pa t bs d, w.op = .seqMem a → a.tgt = .hbm pa → s.reach (c.core / 128) pa = true →
        s.homeLoad a.owner pa a.n = .ok (t, bs, false) → mget t.crews id = some d → d.wait = some w →
        (seqGe (BitVec.ofNat 32 (leNat bs)) w.val = true →
          exec (.waitWake id) s = .next ((t.wakeAcquire d w.scope).endWait id none) ∧
          exec (.seqwaitPoll id) s = .next ((t.wakeAcquire d w.scope).endWait id none)) ∧
        (seqGe (BitVec.ofNat 32 (leNat bs)) w.val = false →
          exec (.waitWake id) s = .next t ∧ exec (.seqwaitPoll id) s = .next t)) ∧
      (∀ a pa t bs d, w.op = .bbwait a → a.tgt = .hbm pa → s.reach (c.core / 128) pa = true →
        s.homeLoad a.owner pa a.n = .ok (t, bs, false) → mget t.crews id = some d → d.wait = some w →
        leNat (bs.drop 6) ≠ w.val.toNat →
        exec (.waitWake id) s = .next ((t.wakeAcquire d w.scope).endWait id (some (BitVec.ofNat 32 (leNat (bs.drop 6)))))) ∧
      (∀ op, w.op = .sqEntry op → c.sq.any (fun e => e.op == op) = false → exec (.waitWake id) s = .next (s.endWait id none)) ∧
      (∀ n, w.op = .barw n → exec (.waitWake id) s = .next (s.tryBar id))) ∧
    (c.loadHeld.isSome = true → s.loadRoom c = true → s.heldBefore c = false → c.evicted = false →
      exec (.loadSetEntry id) s = .next (s.setCrew id { c with loadSet := true, loadSlots := 0, loadHeld := none }))) ∧
  (∀ (s : State) (core : Nat), core < 256 →
    let old := mgetD s.loadLim core 8
    let n := mgetD s.lost core 0
    let lim := if 256 ≤ n ∧ old = 8 then 4 else if 256 ≤ n then 2 else if n ≤ 64 ∧ old = 2 then 4 else if n ≤ 64 then 8 else old
    exec (.loadLimitWindow core) s = .next { s with loadLim := mput s.loadLim core lim, lost := mput s.lost core 0 }) ∧
  (∀ (s : State) (unit ctx : Nat) (va : Dword) (acc : Acc), s.ctxRuns ctx = true → unit < 352 →
    exec (.pageWalk unit ctx va acc) s = .next (s.translate unit ctx va acc).1)) ∧
  (∀ (s : State),
    (∀ dev base n, dev ≠ s.devnum →
      exec (.freezeMessage dev base n) s = .next (((s.l1s.foldl (fun (s : State) e =>
        s.dropCleanWhere e.1 (fun l => l.dev == dev && rangesMeet base n (128 * l.ln) 128)) s).noFills
          (fun l => l.dev == dev && rangesMeet base n (128 * l.ln) 128)).send (.freezeAck dev base n))) ∧
    (∀ dev entry, dev ≠ s.devnum →
      exec (.collectionRequest dev entry) s = .next
        ((s.dropReplicas (fun l => l.kind == .replica entry && l.dev == dev) (fun d => d == dev)).send (.collectAck dev entry))) ∧
    (∀ entry dev f, mget s.freezes entry = some f → f.retry = false →
      exec (.freezeAck entry dev) s = .next ((s.freezers entry).foldl (fun (s : State) id => s.tryWait id)
        { s with freezes := mmod s.freezes entry (fun f => if f.retry then f else { f with acks := f.acks.filter (fun d => d != dev) }) })) ∧
    (∀ entry dev f, mget s.freezes entry = some f → f.state = .thawing → f.asked.contains dev = true →
      exec (.collectionAck entry dev) s = .next (({ s with freezes := mput s.freezes entry { f with
        asked := f.asked.filter (fun d => d != dev), presence := f.presence.filter (fun d => d != dev) } } : State).thawFree entry) ∧
      exec (.collectionStuck entry dev) s = .next (({ s with freezes := mput s.freezes entry { f with stuck := true } } : State).logEvent
        0 7 (BitVec.ofNat 64 entry) (BitVec.ofNat 64 dev))) ∧
    (∀ id c w v ps all ids, mget s.crews id = some c → c.wait = some w → w.op = .promote v ps all 0 ids →
      let u := s.l1RwiOrd v (fun l => all || s.lineIn ps l)
      exec (.promoteRequest id) s = .next (u.setWaitOp id (.promote v ps all 1
        ((u.net.filter (fun m => decide (s.opSeq ≤ m.id) || m.core == v)).map (·.id))))) ∧
    (∀ id c f, mget s.crews id = some c → c.fence = some f →
      (∀ dev line, line < 2 ^ 37 → (f.conflict = true ∧ f.lines.contains (dev, line) = true ∨ dev ≠ s.devnum ∧ f.read.contains (dev, line) = true) →
        exec (.fenceConflict id (dev * 2 ^ 37 + line)) s = .next (s.rollback id)) ∧
      (f.conflict = false → c.sq.any (fun e => e.op == f.op) = false →
        exec (.fenceComplete id) s = .next
          { s.modCrew id (fun d => { d with fence := none }) with fenceShots := mdel s.fenceShots id })))

/-- GRPDEF defines or removes a group, CLSTAT reports, links and ports change state (R343, R344, R346, R352, R354, R356,
R479). The model's own choices in it: log entries 57, 59, 108. -/
def Obligations.GroupAndLinkResult : Prop :=
  (∀ (f : LE) (s : State) (x : Cx) (r : List (List Opd)),
    (s.issueCx 0xB7 8 f.g = some x → dstCheck x.c f.dst 1 true = .ok () →
      let g := ((nthOpd r 0).at x.lane).toNat
      let va := pairAt (nthRun r 1) x.lane
      g < 256 →
      (x.Reads [f.srcB 1, f.srcA 2] r → va.toNat % 64 = 0 →
        exec (.grpdef f) s = .next (s.awake (x.ends x.s ((x.c.emptySrcs [f.srcB 1, f.srcA 2]).waitAt
          (x.waitFor 8 0xB7 0 0 f.dst 8 (.grpdef g false va [])))) State.tryGrpdef)) ∧
      (x.Reads [f.srcB 1] r →
        exec (.grpdefDel f) s = .next (s.awake (x.ends x.s ((x.c.emptySrcs [f.srcB 1]).waitAt
          (x.waitFor 8 0xB7 0 0 f.dst 8 (.grpdef g true va [])))) State.tryGrpdef))) ∧
    (s.issueCx 0xB8 8 f.g = some x → dstCheck x.c f.dst 1 true = .ok () →
      (f.md = 4 → x.act ≠ 0 → exec (.clstat f) s = .next (x.ends x.s (x.writeWord x.c f.dst x.s.portWord))) ∧
      (f.md.toNat < 4 → x.Reads [f.srcA 1] r → ((nthOpd r 0).at x.lane).toNat < 256 →
        exec (.clstat f) s = .next (x.ends x.s (x.writeWord (x.c.emptySrcs [f.srcA 1]) f.dst
          (clstatWord f.md.toNat (x.s.group x.c.ctx ((nthOpd r 0).at x.lane).toNat))))))) ∧
  (∀ s : State,
    (s.d2dUp = true → exec (.flitCrcResend true) s = .next { s with crcFails := 0 }) ∧
    (s.d2dUp = true → s.crcFails < 15 → exec (.flitCrcResend false) s = .next { s with crcFails := s.crcFails + 1 }) ∧
    (s.d2dUp = true → 15 ≤ s.crcFails → exec (.flitCrcResend false) s = .next
      (({ s with crcFails := s.crcFails + 1, d2dUp := false } : State).logEvent 0 8 0 0)) ∧
    (s.d2dUp = true → 16 ≤ s.crcFails → exec .linkDown s = .next (({ s with d2dUp := false } : State).logEvent 0 8 0 0)) ∧
    (∀ p, p < 16 → exec (.portDown p) s = .next (({ s with ualLanes := mput s.ualLanes p 0 } : State).logEvent (p / 8) 9 (BitVec.ofNat 64 p) 0)) ∧
    (∀ p, p < 4 → exec (.portDown (16 + p)) s = .next
      (({ s with ueLanes := mput s.ueLanes p 0 } : State).logEvent (p / 2) 9 (BitVec.ofNat 64 (16 + p)) 0)) ∧
    (∀ p, p < 16 → exec (.portTraining p 4) s = .next { s with ualLanes := mput s.ualLanes p 4 }) ∧
    (∀ p n, p < 16 → n = 1 ∨ n = 2 → exec (.portTraining p n) s = .next
      (({ s with ualLanes := mput s.ualLanes p n } : State).logEvent (p / 8) 9 (BitVec.ofNat 64 p) (BitVec.ofNat 64 n))))

/-- The commands on contexts and queues do what R471 lists for them (R420, R458, R459, R466, R469, R470, R471, R473, R504).
The model's own choices in it: log entries 87, 89, 122. -/
def Obligations.ContextCommandResult : Prop :=
  (∀ (s t : State) (h : CmdHdr) (b : Session), s.Takes h t b →
  (∀ desc n v buf, t.rot.lcs ≠ 1 → t.rot.lcs ≠ 4 → mfree t.ctxs 256 = some n → badDescriptor (newCtx h.ident desc) = false →
    let x := newCtx h.ident desc
    (∀ bs, t.readList n x [] = ⟨v, buf, .data bs false⟩ → badList (listOf bs) = false →
      (listOf bs).any (fun e => (mget t.chains (e.getD 0 0).toNat).isSome) = false →
      let u : State := { v with ctxs := mput v.ctxs n { x with collClus := v.partition x.cpart },
                                chains := (listOf bs).foldl (fun m e => mput m (e.getD 0 0).toNat (boundChain n e)) v.chains }
      Answers (.ctxcreate h desc) s h 0x01 b (u, stOk, leBytes 8 n)) ∧
    (t.readList n x [] = ⟨v, buf, .wait⟩ →
      exec (.ctxcreate h desc) s = .next { v with ctxWait := some { hdr := h, slot := b.slot, desc := desc, buf := buf, bad := false } })) ∧
  (∀ ctx x, ctx ≤ 255 → mget t.ctxs ctx = some x →
    (x.ident = h.ident →
      Answers (.ctxdestroy h ctx) s h 0x02 b (t.destroyCtx ctx).yes ∧
      Answers (.halt h ctx) s h 0x05 b (t.debugHalt ctx).yes ∧
      Answers (.release h ctx) s h 0x06 b (t.clearCauses ctx 0x02).yes ∧
      Answers (.faultclr h ctx) s h 0x07 b (t.clearCauses ctx 0x51).yes ∧
      (∀ u, t.resumeCtx ctx = some u → Answers (.resume h ctx) s h 0x08 b u.yes) ∧
      (t.resumeCtx ctx = none → Answers (.resume h ctx) s h 0x08 b (t.no stState)) ∧
      (∀ base size, size % 65536 = 0 → size ≤ 2 ^ 44 → Answers (.hostwin h ctx base size) s h 0x12 b
        (t.modCtx ctx (fun x => { x with window := some (BitVec.ofNat 64 base, size) })).yes) ∧
      (∀ q caddr priv, q ≤ 4095 → caddr.toNat % 8 = 0 → mget t.queues q = none → Answers (.bindq h q ctx caddr priv) s h 0x03 b
        (State.yes { t with queues := mput t.queues q ⟨ctx, h.ident, caddr, priv, 1, 0, [], []⟩ }))) ∧
    (x.ident ≠ h.ident → Answers (.ctxdestroy h ctx) s h 0x02 b (t.no stDenied) ∧
      Answers (.halt h ctx) s h 0x05 b (t.no stDenied))) ∧
  (∀ ctx, ctx ≤ 255 → mget t.ctxs ctx = none → Answers (.ctxdestroy h ctx) s h 0x02 b (t.no stState)) ∧
  (∀ q d, mget t.queues q = some d → d.ident = h.ident → Answers (.unbindq h q) s h 0x04 b (t.unbind q).yes)) ∧
  (∀ (s : State) (h : CmdHdr) (ctx : Nat),
    (s.received h = none → exec (.halt h ctx) s = .next (s.portDrop h.port) ∧ exec (.resume h ctx) s = .next (s.portDrop h.port)) ∧
    (∀ t, s.received h = some t → t.tlbWait.isSome = true ∨ t.ctxWait.isSome = true →
      exec (.halt h ctx) s = .next { t with cmds := t.cmds ++ [(h, { code := 0x05, ops := [ctx], str := [] })] } ∧
      exec (.resume h ctx) s = .next { t with cmds := t.cmds ++ [(h, { code := 0x08, ops := [ctx], str := [] })] }))

/-- The commands on the device do what R471 and R472 list for them (R81, R86, R463, R466, R467, R470, R471, R472, R476,
R477, R492). The model's own choices in it: log entries 87, 90, 91, 92. -/
def Obligations.DeviceCommandResult : Prop :=
  (∀ (s t : State) (h : CmdHdr) (b : Session), s.Takes h t b →
  (∀ asn va len,
    let r := State.invalidate { t with tlbWait := some { hdr := h, slot := b.slot, asn := asn, va := va, len := len } } asn va len
    (r.2 = true →
      let u := State.answered h 0x09 b.slot (State.yes { r.1 with tlbWait := none })
      exec (.tlbinv h asn va len) s = .next { u with agenda := u.cmds.map (fun e => .queued e.1 e.2) ++ u.agenda, cmds := [] }) ∧
    (r.2 = false → exec (.tlbinv h asn va len) s = .next r.1)) ∧
  (∀ owner, owner ≤ 255 → t.ctxs.any (fun e => e.2.ptown == owner) = false → Answers (.ownkey h owner) s h 0x0A b (t.replaceKey owner).yes) ∧
  (∀ entry dev f, mget t.freezes entry = some f → f.state = .thawing → f.asked.contains dev = true →
    Answers (.thawforce h entry dev) s h 0x0B b
      ((if dev = t.devnum then t.forcedOut else t).collected entry dev).yes) ∧
  Answers (.snaptrig h) s h 0x0C b t.trigger.yes ∧
  (∀ w, 1200 ≤ w → w ≤ 2100 → Answers (.powerlim h w) s h 0x0D b (State.yes { t with powerLimit := w })) ∧
  (∀ pa owner n, Answers (.memrd h pa owner n) s h 0x0E b (t.memRead h b pa owner n)) ∧
  (∀ pa owner bs, Answers (.memwr h pa owner bs) s h 0x0F b (t.memWrite h b pa owner bs)) ∧
  (∀ pa owner n u, t.mayUse h b owner = true → owner ≤ 255 → n ≤ 1000 → inHbm pa n = true → t.entriesHit pa n = false →
    t.recallLines pa n = .ok u → u.poisoned pa n = false → t.memRead h b pa owner n = (u, stOk, u.homeRead owner pa n)) ∧
  (∀ block off n, 1 ≤ block → block ≤ 255 → n ≤ 1000 → off + n ≤ 2 ^ 28 →
    Answers (.ctlrd h block off n) s h 0x10 b (if b.admin then (t, stOk, t.ctlBytes block off n) else t.no stDenied)) ∧
  (∀ block off bs, 1 ≤ block → block ≤ 255 → bs.length ≤ 992 → off + bs.length ≤ 2 ^ 28 →
    Answers (.ctlwr h block off bs) s h 0x11 b (if b.admin then (t.ctlPut block off bs).yes else t.no stDenied)) ∧
  (∀ dev n, t.ctxs = [] → dev < n → n ≤ 1024 → Answers (.podjoin h dev n) s h 0x13 b (State.yes { t with devnum := dev, podsize := n })) ∧
  (∀ port key, port ≤ 15 → key.length = 64 →
    Answers (.linkkey h port key) s h 0x14 b (State.yes { t with linkKeys := mput t.linkKeys port key })) ∧
  (∀ idx bs, idx ≤ 4095 → Answers (.epset h idx bs) s h 0x15 b (State.yes { t with endpoints := mput t.endpoints idx bs })) ∧
  (∀ first, Answers (.report h first) s h 0x16 b (t, stOk, t.reportBytes h.ident first)) ∧
  (∀ code, 0x18 < code → Answers (.unassignedCommand h code) s h code b (t.no stBadcmd))) ∧
  (∀ (s : State) (h : CmdHdr), s.received h = none → exec (.snaptrig h) s = .next (s.portDrop h.port) ∧
    (∀ w, exec (.powerlim h w) s = .next (s.portDrop h.port)) ∧ (∀ asn va len, exec (.tlbinv h asn va len) s = .next (s.portDrop h.port)))

/-- The SPDM responder answers each request and opens and closes sessions; datagrams go to their ports (R465, R466, R482,
R485, R486, R487). The model's own choices in it: log entries 18, 122, 124. -/
def Obligations.SpdmEventResult : Prop :=
  (∀ (s : State) (conn : Nat),
  Exchanges (.getVersion conn) reqVersion conn s (fun s => s.modRot (fun r => { r with conns := mdel r.conns conn })) ∧
  Exchanges (.getCapabilities conn) reqCapabilities conn s id ∧
  Exchanges (.negotiateAlgorithms conn) reqAlgorithms conn s (fun s => if s.rot.stage conn = 0 then s.setConn conn 1 none else s) ∧
  Exchanges (.getDigests conn) reqDigests conn s id ∧
  Exchanges (.getCertificate conn 0) reqCertificate conn s id ∧
  (∀ slot, slot ≠ 0 → exec (.getCertificate conn slot) s = .next (s.unsupported (reqCertificate + 256 * slot) conn)) ∧
  (∀ slot, Exchanges (.challenge conn slot) (reqChallenge + 256 * slot) conn s id) ∧
  Exchanges (.keyExchange conn) reqKeyExchange conn s (fun s => if s.rot.stage conn = 1 then s.setConn conn 2 none else s) ∧
  (∀ cert, Exchanges (.finish conn cert) reqFinish conn s (fun s => if s.rot.stage conn = 2 then s.openSession conn cert else s)) ∧
  Exchanges (.endSession conn) reqEndSession conn s (fun s => s.endSession conn) ∧
  Exchanges (.heartbeat conn) reqHeartbeat conn s id ∧ Exchanges (.keyUpdate conn) reqKeyUpdate conn s id ∧
  (s.rot.silent = false →
    (∀ idx : Byte, 1 ≤ s.rot.stage conn → idx ≠ 0 → idx.toNat ≤ 9 →
      let nonce := s.rot.noise 4
      exec (.getMeasurements conn [0x12, 0xE0, 0x00, idx]) s = .next
        (((s.receive [0x12, 0xE0, 0x00, idx]).modRot (fun r => { r with rxbuf := putBytes r.rxbuf 0x300 nonce, rng := Config.entropy (r.rngs + 3), rngs := r.rngs + 4 })).respond
          conn (s.measBlock idx.toNat ++ nonce ++ [0, 0]))) ∧
    (∀ req : List Byte, req.length ≠ 4 ∨ req.getD 3 0 = 0xFF → exec (.getMeasurements conn req) s = .next
      ((State.receive { s with free := s.free + 1 } (req.take 0x400)).respond conn
        (s.rot.response reqMeasurements conn s.free))) ∧
    exec (.unsupportedRequest conn) s = .next
      ((s.freshFree.1.receive ((Config.spdmRequest 0 conn s.free).take 0x400)).respond conn [0x12, 0x7F, 0x07, s.freshFree.2.setWidth 8]))) ∧
  (∀ (s : State) (m : SecMsg),
    (m.auth = false ∨ s.accept m.ident m.seq = none → exec (.securedMessage m) s = .next (s.portDrop m.port)) ∧
    (∀ t, m.auth = true → s.accept m.ident m.seq = some t →
      (m.dport = 0x5A30 → exec (.securedMessage m) s = .next
        (s.launchDatagram { port := m.port, ident := m.ident, seq := m.seq, bytes := m.bytes })) ∧
      (m.dport = 0x5A31 → exec (.securedMessage m) s = .next
        { t with agenda := .queued (cmdOf m.port m.ident m.seq m.bytes).1 (cmdOf m.port m.ident m.seq m.bytes).2 :: t.agenda }) ∧
      (m.dport = 0x5A32 → exec (.securedMessage m) s = .next (s.hostReply (replyOf m.port m.ident m.seq m.bytes)))))

/-- The root-of-trust registers, the unlock and the lifecycle do what their rules give (R4, R482, R485, R488, R489, R490,
R491). The model's own choices in it: log entries 17, 20, 93, 94, 138. -/
def Obligations.RootOfTrustEventResult : Prop :=
  (∀ (s : State) (v : Dword),
  (s.rot.hbusy = false → exec (.hctl 1) s = .next (s.modRot (fun r => { r with hbusy := true }))) ∧
  (s.rot.ebusy = false → exec (.ectl 1) s = .next (s.modRot (fun r => { r with ebusy := true }))) ∧
  (s.ctxs = [] → exec (.kctl 1) s = .next (s.modRot (fun r => { r with kbusy := true }))) ∧
  (s.ctxs ≠ [] → exec (.kctl 1) s = .next (s.modRot (fun r => { r with kerr := true }))) ∧
  (s.rot.hbusy = true →
    (s.rot.hlen.toNat < 2 ^ 32 → ∀ bs, s.mgmtBytes s.rot.hsrc.toNat s.rot.hlen.toNat = some bs →
      exec .hashComplete s = .next (s.modRot (fun r =>
        { r.passRng r.hsrc.toNat r.hlen.toNat with hbusy := false, herr := false, hdig := Config.sha512 bs }))) ∧
    (2 ^ 32 ≤ s.rot.hlen.toNat ∨ s.mgmtBytes s.rot.hsrc.toNat s.rot.hlen.toNat = none →
      exec .hashComplete s = .next (s.modRot (fun r => { r with hbusy := false, herr := true })))) ∧
  (s.rot.ebusy = true → s.rot.emlen.toNat ≤ 4096 → exec .verifyComplete s = .next (s.modRot (fun r =>
    (((r.passRng r.ekey.toNat 32).passRng r.esig.toNat 64).passRng r.emsg.toNat s.rot.emlen.toNat).verified (r.ekey == 0xF020)
      (s.mgmtBytes r.ekey.toNat 32) (s.mgmtBytes r.esig.toNat 64) (s.mgmtBytes r.emsg.toNat s.rot.emlen.toNat)))) ∧
  (s.rot.kbusy = true → s.ctxs = [] → exec .wipeComplete s = .next s.wipe) ∧
  (∀ n, 1 ≤ n → n ≤ 7 → s.rot.hbusy = false → s.rot.herr = false → exec (.mext (BitVec.ofNat 64 n)) s = .next (s.modRot (fun r => { r with
    meas := mput r.meas n (match mget r.meas n with
      | none => r.hdig
      | some m => Config.sha512 (digestBytes m ++ digestBytes r.hdig))
    aliasGen := if n ≤ 2 then r.aliasGen + 1 else r.aliasGen }))) ∧
  (∃ t, exec (.unlock 1) s = .next t ∧
    t.rot.lcs = (if s.rot.evalid ∧ s.rot.ekeymode ∧ s.rot.etarget = some 0 ∧ s.rot.wiped then 3 else s.rot.lcs)) ∧
  (∃ t, exec (.dbgctl v) s = .next t ∧ t.rot.dbg = (if s.rot.lcs = 3 ∧ s.rot.dbgLock = false then v.getLsbD 0 else s.rot.dbg)) ∧
  exec (.hbeat v) s = .next (s.modRot (fun r => { r with hbeat := s.clk })) ∧
  exec (.rxlen v) s = .next (s.modRot (fun r => { r with rxlen := v })) ∧
  exec (.txlen v) s = .next ((s.modRot (fun r => { r with txlen := v })).send (.spdm 0 (s.rot.txBytes v.toNat))) ∧
  exec .rng s = .next (s.modRot (fun r => { r with rng := Config.entropy r.rngs, rngs := r.rngs + 1 })) ∧
  (∀ a n, (n = 1 ∨ n = 2 ∨ n = 4 ∨ n = 8) → a % n = 0 →
    (0x1000000 ≤ a → a < 0x1100000 → exec (.registerWrite a ⟨v, n⟩) s = .next
      (s.modRot (fun r => { r with sram := putBytes r.sram (a - 0x1000000) (leBytes n v.toNat) }))) ∧
    (0x10006100 ≤ a → a < 0x10006500 → exec (.registerWrite a ⟨v, n⟩) s = .next
      (s.modRot (fun r => { r with rxbuf := putBytes r.rxbuf (a - 0x10006100) (leBytes n v.toNat) })))) ∧
  exec (.registerWrite 0x10000000 ⟨v, 8⟩) s = .next (s.modRot (fun r => { r with hsrc := v })) ∧
  exec (.registerWrite 0x10000010 ⟨v, 8⟩) s = exec (.hctl v) s ∧ exec (.registerWrite 0x10006000 ⟨v, 8⟩) s = exec (.rxlen v) s) ∧
  (∀ (s t : State) (h : CmdHdr) (b : Session) (bs : List Byte), s.Takes h t b →
    (t.rot.tokenFits ((tokenOf bs).take 64) = false ∨ (tokenOf bs).getD 5 0 ≠ 0 → Answers (.dbgunlock h bs) s h 0x17 b (t.no stState)) ∧
    (t.rot.tokenFits ((tokenOf bs).take 64) = true → (tokenOf bs).getD 5 0 = 0 →
      ((t.verifyToken (tokenOf bs)).rot.evalid = false → Answers (.dbgunlock h bs) s h 0x17 b (t.no stState)) ∧
      ((t.verifyToken (tokenOf bs)).rot.evalid = true → t.ctxs = [] → t.rot.dbgLock = false →
        ∃ u : State, Answers (.dbgunlock h bs) s h 0x17 b u.yes ∧ u.rot.lcs = 3 ∧
          u.rot.dbg = (1 : Dword).getLsbD 0 ∧ u.sessions = [] ∧ u.l1s = [])) ∧
    ((t.rot.lcf = 1 ∧ (tokenOf bs).getD 5 0 = 2) ∨ (t.rot.lcf = 2 ∧ (tokenOf bs).getD 5 0 = 4) →
      ((t.verifyToken (tokenOf bs)).rot.evalid = false → Answers (.lcadvance h bs) s h 0x18 b (t.no stState)) ∧
      ((t.verifyToken (tokenOf bs)).rot.evalid = true →
        Answers (.lcadvance h bs) s h 0x18 b ((t.verifyToken (tokenOf bs)).modRot (fun r =>
          { r with lcfNext := (tokenOf bs).getD 5 0 })).yes)))

/-- Losses of capacity, power, snapshots, power-on and failover do what their rules give (R14, R19, R20, R21, R87, R462,
R463, R480, R483). The model's own choices in it: log entries 20, 24, 73, 95. -/
def Obligations.DeviceEventResult : Prop :=
  ∀ (s : State),
  (∀ kind unit, exec (.rowRetire (.spared kind unit)) s = .next (s.logRetired kind unit false)) ∧
  (∀ core part, core < 256 → part < 8 →
    let v := mgetD s.gzcore core 0x888888888
    let n := bits v (4 * part) 4
    n ≠ 0 → (s.residents core part).foldl (fun n c => n + c.nregs * c.w) 0 ≤ 8192 * (n - 1) →
    let u := s.setGzcore core (v - BitVec.ofNat 64 (2 ^ (4 * part)))
    exec (.rowRetire (.rfRow core part)) s = .next ((if n = 1 then u.loseCluster (core / 4) else u).logRetired 1 core true)) ∧
  (∀ core, core < 256 →
    let v := mgetD s.gzcore core 0x888888888
    bits v 32 4 ≠ 0 → exec (.rowRetire (.l1Unit core)) s = .next
      ((((s.l1 core).foldl (fun (s : State) l => s.evict core l) s).setGzcore core (v - BitVec.ofNat 64 (2 ^ 32))).logRetired 3 core true)) ∧
  (∀ slice, slice < 128 → mgetD s.gzslice slice 16 ≠ 0 → exec (.rowRetire (.l2Unit slice)) s = .next
    (State.logRetired { s with gzslice := mput s.gzslice slice (mgetD s.gzslice slice 16 - 1), gzgen := s.gzgen + 1 } 4 slice true)) ∧
  (∀ kind k, k < 64 → s.clusterHeld k = false → exec (.rowRetire (.fixed kind k)) s = .next ((s.loseCluster k).logRetired kind k true)) ∧
  (∀ w, exec (.powerLimitThrottle w) s = .next { s with power := w }) ∧
  (s.snap.pinen = true → exec .snapinPin s = .next s.trigger) ∧ (s.snap.pinen = false → exec .snapinPin s = .next s) ∧
  (s.snap.pending = true → exec .snapshotLatch s = .next
    { s with snap := { s.snap with gen := s.snap.gen + 1, arm := false, pending := false, copy := s.units } }) ∧
  (∃ t, exec .powerOnReset s = .next t ∧ t.crews = [] ∧ t.ctxs = [] ∧ t.queues = [] ∧ t.chains = [] ∧ t.sessions = [] ∧ t.l1s = [] ∧
    t.mem = State.reset.mem ∧ t.rot.lcf = s.rot.lcfNext ∧ t.gzcla = s.gzcla ∧
    ∀ o < 256, mgetD t.keyGen o 0 = mgetD s.keyGen o 0 + (if t.rot.boot = 7 then 1 else 0)) ∧
  (s.rot.die = 0 → s.rot.hbeat + Config.hbeatClk ≤ s.clk → s.rot.warm = true →
    exec .failover s = .next ((State.runBoot { s.closeSessions with
      rot := s.rot.twin s.clk, tlbWait := none, ctxWait := none, cmds := [], admitted := false } false [1, 2, 3, 4, 7]).logEvent 1 10 1 0))

/-- A step runs the instruction that the bytes at the program counter decode to (R22, R46, R432, R470). The model's own
choices in it: log entries 1, 15, 86, 92, 119. -/
def Obligations.StepRunsDecodedInstruction : Prop :=
  (∀ (s : State) i r, s.agenda = .act i :: r → step s = exec i { s.tick with agenda := r }) ∧
  (∀ (s : State) h op r, s.agenda = .queued h op :: r → step s = exec (op.instr h) { s.tick with agenda := r, admitted := true }) ∧
  (∀ (s : State) r, s.agenda = .forced :: r → step s = .next (State.forcedOut { s.tick with agenda := r })) ∧
  (∀ (s : State) e r, s.agenda = .ecc e :: r → step s = .next (State.eccError { s.tick with agenda := r } e)) ∧
  (∀ (s : State) id r, s.agenda = .crew id :: r →
    let u : State := { s.tick with agenda := r }
    step s = (u.tryTurns (u.turnOrder id)).1 ∧
    ∀ c ids t bs i n v, u.turnOrder id = id :: ids → u.readyCrew id = some c →
      State.fetch { u with focus := id } id c = .word t bs → decode c.isHelper bs = .ok (i, n) →
      exec i (t.heldWord id bs) = .next v → v.hasIssued u id = true → step s = .next (v.noteIssue id)) ∧
  (∀ (s : State) o b, s.agenda = [] → s.tick.tryTurns (s.tick.turnOrder s.focus) = (o, b) →
    (∀ t, o = .next t → step s = .next (if b then t else t.pass)) ∧ ((∀ t, o ≠ .next t) → step s = o)) ∧
  (∀ s : State, s.tryTurns [] = (.next s, false)) ∧
  (∀ (s : State) id ids,
    (∀ t, s.turn id = .next t → s.tryTurns (id :: ids) = if t.hasIssued s id then (.next (t.noteIssue id), true) else t.tryTurns ids) ∧
    ((∀ t, s.turn id ≠ .next t) → s.tryTurns (id :: ids) = (s.turn id, true))) ∧
  (∀ (s : State) id, s.readyCrew id = none → s.turn id = .next { s with focus := id }) ∧
  (∀ (s : State) id c, s.readyCrew id = some c →
    (∀ t, State.fetch { s with focus := id } id c = .out t → s.turn id = .next t) ∧
    (∀ t bs i n, State.fetch { s with focus := id } id c = .word t bs → decode c.isHelper bs = .ok (i, n) →
      s.turn id = exec i (t.heldWord id bs)) ∧
    (∀ t bs e, State.fetch { s with focus := id } id c = .word t bs → decode c.isHelper bs = .error e →
      s.turn id = .next (t.undefinedWord id c bs.length))) ∧
  (∀ (s : State) id (c : Crew) h, c.pc.getLsbD 0 = false → c.fbuf = [] → s.fetchFree c c.pc = true →
    let a := s.bufRead (c.fetcher id) .fetch [] c.pc 2
    let len := insnLen (h.getD 0 0)
    a.got = .data h false →
    (len = 2 → s.fetch id c = .word a.s h) ∧
    (∀ r, len ≠ 2 → s.fetchFree c (c.pc + 2) = true → s.fetchFree c (c.pc + BitVec.ofNat 64 (len - 2)) = true →
      let b := a.s.bufRead (c.fetcher id) .fetch a.buf (c.pc + 2) (len - 2)
      b.got = .data r false → s.fetch id c = .word b.s (h ++ r)))

/-- The words that the spec works out field by field decode to their instructions (R22, R24, R31, R33, R34, R35, R36, R37,
R39, R40, R41, R42). -/
def Obligations.SpecWordsDecode : Prop :=
  ∀ helper : Bool,
  decode helper [0xCF, 0x3C, 0x50, 0x00, 0x04, 0xE8, 0x00, 0x02] =
    .ok (.ffma { g := ⟨15, false⟩, la := 0, dst := 0x00A, ocw := 0, sa := 0x004, xa := 4, ka := false, sb := 0x007, xb := 0, kb := true, mod6 := 0 }, 8) ∧
  decode helper [0x01, 0x46, 0x61, 0x1C] =
    .ok (.c3IaddI32 { g := ⟨3, false⟩, d := 5, a := 6, b := 7 }, 4) ∧
  decode helper [0x1A, 0x4D] =
    .ok (.s16Fmul { d := 40, a := 9 }, 2) ∧
  decode helper [0x2B, 0x3E, 0xA0, 0x10, 0x04, 0xA0, 0x00, 0x00] =
    .ok (.freeze { g := ⟨15, false⟩, la := 0, dst := 0x014, md := 1, sa := 0x004, ka := false, sb := 0x005, kb := false, fn := 0 }, 8) ∧
  decode helper [0x13, 0x3E, 0x60, 0x00, 0x04, 0xDC, 0x02, 0x00] =
    .ok (.atom { g := ⟨15, false⟩, la := 0, dst := 0x00C, md := 0, base := 4, wt := 4, scp := 3, pol := 3, off := 2 }, 8) ∧
  decode helper [0x83, 0x3C, 0x20, 0x09, 0x03, 0x00, 0x01, 0x40] =
    .ok (.icmp { g := ⟨15, false⟩, la := 0, dst := 0x124, ocw := 0, sa := 0x003, xa := 0, ka := false, sb := 0x008, xb := 0, kb := false, mod6 := 0x10 }, 8) ∧
  decode helper [0xFB, 0x3C, 0x48, 0x00, 0x03, 0x00, 0x05, 0x04] =
    .ok (.fcvt { g := ⟨15, false⟩, la := 0, dst := 0x009, ocw := 0, sa := 0x003, xa := 0, ka := false, sb := 0x028, xb := 0, kb := false, mod6 := 0x01 }, 8) ∧
  decode helper [0x93, 0x3D, 0xF1, 0x00, 0x08, 0x10, 0x22, 0x08] =
    .ok (.redc { g := ⟨15, false⟩, la := 2, dst := 0x01E, ocw := 0, sa := 0x008, xa := 0, ka := true, sb := 0x110, xb := 0, kb := false, mod6 := 0x02 }, 8) ∧
  decode helper [0x07, 0x3F, 0x48, 0x20, 0x82, 0x80, 0x01, 0x44] =
    .ok (.mmas { g := ⟨15, false⟩, la := 0, tile := 9, q := 2, za := false, text := 2, sa := 0x008, sb := 0x00C, sc := 0x110 }, 8) ∧
  decode helper [0xDF, 0x3E, 0xF0, 0x00, 0x04, 0xC0, 0x00, 0x00] =
    .ok (.grpdef { g := ⟨15, false⟩, la := 0, dst := 0x01E, md := 0, sa := 0x004, ka := false, sb := 0x006, kb := false, fn := 0 }, 8) ∧
  decode helper [0xB7, 0x3F, 0x80, 0x08, 0x10, 0x01, 0x22, 0x14] =
    .ok (.trap { g := ⟨15, false⟩, la := 0, dst := 0x110, md := 0, sa := 0x110, ka := false, sb := 0x110, kb := false, fn := 5 }, 8) ∧
  decode helper [0x83, 0x3F, 0x80, 0x38, 0x10, 0x01, 0x22, 0x04] =
    .ok (.bar { g := ⟨15, false⟩, la := 0, dst := 0x110, md := 3, sa := 0x110, ka := false, sb := 0x110, kb := false, fn := 1 }, 8) ∧
  decode helper [0x5B, 0x3F, 0x80, 0x18, 0x10, 0x01, 0x22, 0x00] =
    .ok (.rcv { g := ⟨15, false⟩, la := 0, dst := 0x110, md := 1, sa := 0x110, ka := false, sb := 0x110, kb := false, fn := 0 }, 8) ∧
  decode helper [0xC1, 0xC3, 0x02, 0x00] =
    .ok (.cbBra { g := ⟨1, false⟩, off := 11 }, 4) ∧
  decode helper [0xC5, 0xDF, 0xFF, 0xFF] =
    .ok (.cbLoopLc0 { g := ⟨15, false⟩, off := 0x3FFFF }, 4) ∧
  decode helper [0xA3, 0x3F, 0x00, 0x20, 0x0A, 0x00, 0x22, 0x0C] =
    .ok (.nqpush { g := ⟨15, false⟩, la := 0, dst := 0x000, md := 2, sa := 0x00A, ka := false, sb := 0x110, kb := false, fn := 3 }, 8) ∧
  decode helper [0xC3, 0x3E, 0x70, 0x50, 0x0A, 0x80, 0x01, 0x04] =
    .ok (.txfer { g := ⟨15, false⟩, la := 0, dst := 0x00E, md := 5, sa := 0x00A, ka := false, sb := 0x00C, kb := false, fn := 1 }, 8) ∧
  decode helper [0xC7, 0x3D, 0x48, 0x00, 0x10, 0x81, 0x01, 0x00] =
    .ok (.movi { g := ⟨15, false⟩, la := 0, dst := 9, md := 0, sa := 0x110, xa := 0, ka := false, imm := 12 }, 8) ∧
  decode helper [0x43, 0x3F, 0x80, 0x08, 0xFA, 0xFF, 0xFF, 0xFF] =
    .ok (.bra { g := ⟨15, false⟩, la := 0, dst := 0x110, md := 0, off := 0xFFFFFFFA }, 8) ∧
  decode helper [0x93, 0x3C, 0, 0, 0, 0, 0, 0] = .error (.opcode 0x24) ∧ decode helper [0x79, 0x1F, 0, 0] = .error (.compact 94)

/-- Decoding the encoding of a well-formed instruction gives it back, every field of it (R22, R24, R31, R33, R34, R35, R36,
R37, R39, R40, R41, R42). -/
def Obligations.EncodeDecodeRoundTrip : Prop :=
  ∀ (helper : Bool) (i : Instr) (rest : List Byte), i.WF →
    (∀ f, i = .hjoin f → helper = false) → (∀ f, i = .hjoinHelper f → helper = true) →
    ∃ w, encode i = some w ∧ decode helper (w.bytes ++ rest) = .ok (i, w.bytes.length)

/-- What the decoder reads is a well-formed instruction of the length that its first halfword gives (R22, R40, R42). -/
def Obligations.DecodedInstructionIsWellFormed : Prop :=
  ∀ (helper : Bool) (b : Byte) (bs : List Byte),
    let n := if b.getLsbD 0 = false then 2 else if b.getLsbD 1 = false then 4 else 8
    (∀ i k, decode helper (b :: bs) = .ok (i, k) → i.WF ∧ k = n ∧ n ≤ bs.length + 1 ∧
      ∀ r, decode helper ((b :: bs).take n ++ r) = .ok (i, n)) ∧
    (bs.length + 1 < n → decode helper (b :: bs) = .error .short)

/-- The state at reset meets the invariant and the values that the spec gives for reset (R14, R18, R21, R463, R479). The
model's own choices in it: log entries 3, 20, 22. -/
def Obligations.InvariantAtReset : Prop :=
  let s := State.reset
  s.Inv ∧ s.mem.cells = [] ∧ s.crews = [] ∧ s.teams = [] ∧ s.ctxs = [] ∧ s.queues = [] ∧ s.launches = [] ∧ s.chains = [] ∧
  s.clusters = [] ∧ s.freezes = [] ∧ s.ranges = [] ∧ s.colls = [] ∧ s.sessions = [] ∧ s.tlbs = [] ∧ s.walks = [] ∧ s.l1s = [] ∧
  s.net = [] ∧ s.devnum = 0 ∧ s.podsize = 1 ∧ s.powerLimit = 2100 ∧ s.gzgen = 0 ∧ s.hostUp = 3 ∧ s.d2dUp = true ∧ s.logs.evcount = 0 ∧ s.logs.counts = [] ∧ s.logs.events = [] ∧ s.logs.cmddone = 0 ∧
  s.snap.arm = false ∧ s.snap.gen = 0 ∧ s.snap.pending = false

/-- Every step keeps main memory in its canonical form (R87, R88, R91). The model's own choices in it: log entry 3. -/
def Obligations.EveryStepKeepsMemoryCanonical : Prop :=
  ∀ s t : State, s.Inv → step s = .next t → t.Inv

/-- Every instruction and every other agent's step answers a next state where there is a crew to issue (R46, R436, R437,
R439). The model's own choices in it: log entry 1. -/
def Obligations.NothingStopsTheDevice : Prop :=
  (∀ i s, exec i s = .refused .noCrew ∨ ∃ t, exec i s = .next t) ∧
  (∀ i s, i.slot = none → ∃ t, exec i s = .next t) ∧
  (∀ i s, (s.viewCrew s.focus).isSome = true → ∃ t, exec i s = .next t) ∧
  (∀ i s, i.slot.isSome = true → s.viewCrew s.focus = none → exec i s = .refused .noCrew) ∧
  (∀ s : State, (∀ i r, s.agenda = .act i :: r → i.slot = none) → ∃ t, step s = .next t)

/-- IMIN, IMAX, IDIV and IREM leave the smaller, larger, quotient or remainder in their destination (R253, R252). -/
def Obligations.MinimumMaximumAndDivisionReachTheirRegister : Prop :=
  (∀ f : L3,
    Lands2 (.imin f) 0x0B f (fun w sg a b => if intOf w sg a ≤ intOf w sg b then a else b) ∧
    Lands2 (.imax f) 0x0C f (fun w sg a b => if intOf w sg a ≤ intOf w sg b then b else a)) ∧
  (∃ quo rem : Nat → Bool → Nat → Nat → Nat,
    (∀ f : L3, Lands2 (.idiv f) 0x07 f quo ∧ Lands2 (.irem f) 0x08 f rem) ∧
    ∀ w sg a b, w = 32 ∨ w = 64 → a < 2 ^ w → b < 2 ^ w →
      (b = 0 → quo w sg a b = 2 ^ w - 1 ∧ rem w sg a b = a) ∧
      (sg = true → a = 2 ^ (w - 1) → b = 2 ^ w - 1 → quo w sg a b = a ∧ rem w sg a b = 0) ∧
      (b ≠ 0 → ¬ (sg = true ∧ a = 2 ^ (w - 1) ∧ b = 2 ^ w - 1) →
        intOf w sg a = intOf w sg b * intOf w sg (quo w sg a b) + intOf w sg (rem w sg a b) ∧
        (intOf w sg (rem w sg a b)).natAbs < (intOf w sg b).natAbs ∧
        (intOf w sg (rem w sg a b) = 0 ∨ (intOf w sg (rem w sg a b) < 0 ↔ intOf w sg a < 0))))

/-- The shifts and the single-source bit instructions leave their rule's value in their destination (R259, R261). -/
def Obligations.ShiftsAndBitCountsReachTheirRegister : Prop :=
  ∃ sar rol : Nat → Nat → Nat → Nat, ∃ popc clz ctz brev : Nat → Nat → Nat,
    (∀ f : L3,
      LandsShift (.shl f) 0x12 f (fun w a k => if k < w then a * 2 ^ k % 2 ^ w else 0) ∧
      LandsShift (.shr f) 0x13 f (fun w a k => if k < w then a / 2 ^ k else 0) ∧
      LandsShift (.sar f) 0x14 f sar ∧ LandsShift (.rol f) 0x15 f rol ∧
      Lands1 (.popc f) 0x17 f true popc ∧ Lands1 (.clz f) 0x18 f true clz ∧ Lands1 (.ctz f) 0x19 f true ctz ∧
      Lands1 (.brev f) 0x1A f false brev) ∧
    ∀ w a k, w = 32 ∨ w = 64 → a < 2 ^ w → k < 2 ^ 32 →
      (∀ i < w, (sar w a k).testBit i = if i + k < w then a.testBit (i + k) else a.testBit (w - 1)) ∧
      (∀ i < w, (rol w a k).testBit ((i + k) % w) = a.testBit i) ∧
      popc w a = ((List.range w).filter (fun i => a.testBit i)).length ∧
      (a = 0 → clz w a = w ∧ ctz w a = w) ∧
      (a ≠ 0 → 2 ^ (w - 1 - clz w a) ≤ a ∧ a < 2 ^ (w - clz w a) ∧ clz w a < w) ∧
      (a ≠ 0 → a.testBit (ctz w a) = true ∧ 2 ^ ctz w a ∣ a) ∧
      (∀ i < w, (brev w a).testBit (w - 1 - i) = a.testBit i)

/-- A register write takes the lanes that act and keeps the others, with the shape that R215 gives (R215). -/
def Obligations.RegisterWriteFollowsLanes : Prop :=
  ∀ (c : Crew) (n : Nat) (act : Lanes) (sh : Shape) (poison : Lanes), 0 < c.w →
    let old := mget c.regs n
    let new := mget (c.writeReg n act sh poison).regs n
    (∀ k, k ≠ n → mget (c.writeReg n act sh poison).regs k = mget c.regs k) ∧
    (act = 0 → new = old) ∧
    (act ≠ 0 → c.live &&& ~~~act = 0 → ∃ r, new = some r ∧ r.shape = normShape c.w sh) ∧
    (act ≠ 0 → c.live &&& ~~~act ≠ 0 → ∃ r, new = some r ∧
      (∀ l < c.w, r.shape.at l = if act.getLsbD l then sh.at l else regAt old l) ∧
      ((old.map (·.shape)).getD (.u 0) = normShape c.w sh → r.shape = normShape c.w sh) ∧
      ((old.map (·.shape)).getD (.u 0) ≠ normShape c.w sh → 1 < c.w → ∃ ws, r.shape = .g ws))

/-- Affine sources give the affine results of R248, and other integer results are general (R248, R214). The model's own
choices in it: log entry 106. -/
def Obligations.AffineResults : Prop :=
  ∀ (f : L3) (s : State) (x : Cx) (a b : Opd) (p q : Word × Word),
    affOf a.sh = some p → affOf b.sh = some q → dstCheck x.c f.dst 1 true = .ok () →
    let two := srcsAB f 1 1 none
    let one : List Src := [{ f.srcA with k := 1 }]
    let done := fun (srcs : List Src) (b st : Word) =>
      Host.Outcome.next ((x.writeResult f.dst f.ocw (some 0) srcs [if st = 0 then .u b else .a b st]).finish x)
    (∀ (o : Opd) (e : Word × Word) (d : Src), f.mod6.toNat % 4 = 0 → intLegal 0x06 f.mod6 = true → f.srcC = some d → affOf o.sh = some e →
      s.issueCx 0x06 8 f.g = some x → x.fetch [f.srcA, f.srcB, { d with k := 1 }] = .ok [[a], [b], [o]] →
      (b.isU = true → exec (.imad f) s = done [f.srcA, f.srcB, { d with k := 1 }] (p.1 * q.1 + e.1) (p.2 * q.1 + e.2)) ∧
      (a.isU = true → exec (.imad f) s = done [f.srcA, f.srcB, { d with k := 1 }] (p.1 * q.1 + e.1) (q.2 * p.1 + e.2))) ∧
    (tyWide f.mod6 = 32 → tySat f.mod6 = false → intLegal 0x00 f.mod6 = true →
    (x.fetch two = .ok [[a], [b]] →
      (s.issueCx 0x00 8 f.g = some x → exec (.iadd f) s = done two (p.1 + q.1) (p.2 + q.2)) ∧
      (s.issueCx 0x01 8 f.g = some x → exec (.isub f) s = done two (p.1 - q.1) (p.2 - q.2)) ∧
      (s.issueCx 0x04 8 f.g = some x → b.isU = true → exec (.imul f) s = done two (p.1 * q.1) (p.2 * q.1)) ∧
      (s.issueCx 0x04 8 f.g = some x → a.isU = true → exec (.imul f) s = done two (p.1 * q.1) (q.2 * p.1)) ∧
      (s.issueCx 0x12 8 f.g = some x → b.isU = true → q.1.toNat < 32 →
        exec (.shl f) s = done two (p.1 <<< q.1.toNat) (p.2 <<< q.1.toNat))) ∧
    (x.fetch one = .ok [[a]] → s.issueCx 0x09 8 f.g = some x → intLegal 0x09 f.mod6 = true → exec (.ineg f) s = done one (-p.1) (-p.2)) ∧
    (x.fetch two = .ok [[a], [b]] → a.isU = false ∨ b.isU = false → 1 < x.c.w → intLegal 0x0B f.mod6 = true →
      ∀ e ∈ [(0x0B, Instr.imin f), (0x0C, .imax f), (0x05, .imulh f), (0x07, .idiv f), (0x08, .irem f), (0x0D, .and f), (0x0E, .or f),
        (0x0F, .xor f), (0x10, .andn f)], s.issueCx e.1 8 f.g = some x →
        ∃ ws, exec e.2 s = .next ((x.writeResult f.dst f.ocw (some 0) two [.g ws]).finish x)))

/-- An instruction that its executor may not execute, or whose modifiers are illegal, takes the illegal-instruction trap
(R24, R46, R245, R318, R435, R439). The model's own choices in it: log entry 27. -/
def Obligations.IllegalInstructionTraps : Prop :=
  ∀ (i : Instr) (s : State) (q : Slot) (c c1 : Crew) (p : Path), i.slot = some q →
    mget s.crews s.focus = some c → c.running = some p → s.loadSetCrew q.opc c = some c1 → s.canIssue c = true →
    c.fence = none → c.holdHolds q.opc = false → c.hgroup = none → c.frames.length < 4 → c.Fits →
    (c.roleOk q.opc = false ∨ q.g.ok = false ∨ (q.legal = false ∧ c.guardOwed q.g = false)) →
    ∃ t d, exec i s = .next t ∧ mget t.crews s.focus = some d ∧ IllTaken s c d p q.len

/-- A register instruction changes only what it names (R26, R215, R217, R224, R246, R273, R294). -/
def Obligations.RegisterInstructionFrame : Prop :=
  ∀ (i : Instr) (m : Touch), i.regTouch = some m → m.Frame i ∧ RestKept i

/-- Branches, loops, hints, traps and the issue of loads, stores and atomics leave registers and memory as they were (R26,
R134, R141, R145, R403, R411, R412, R415, R439). -/
def Obligations.BranchAndAccessIssueFrame : Prop :=
  ∀ (i : Instr) (m : Touch), i.issueTouch = some m → m.Frame i

/-- A write at a home changes the bytes it carries and nothing else that its owner reads (R87, R88, R91). The model's own
choices in it: log entries 3, 4, 66. -/
def Obligations.HomeWriteRule : Prop :=
  ∀ (s : State) (o : Nat) (cs : List Host.Cell) (mark : Bool), s.Inv → (cs.map (·.1)).Nodup →
    (∀ e ∈ s.pools, ∀ c ∈ cs, ¬ (e.1 ≤ c.1 ∧ c.1 < e.1 + 8) ∧ ¬ (e.1 + 12 ≤ c.1 ∧ c.1 < e.1 + 16)) →
    let t := s.homeWrite o cs mark
    t.Inv ∧ (∀ c ∈ cs, t.homeByte o c.1 = c.2) ∧
    (∀ a, (∀ c ∈ cs, c.1 ≠ a) → t.homeByte o a = s.homeByte o a) ∧
    (∀ a k, (∀ c ∈ cs, c.1 / 128 ≠ a / 128) → t.homeByte k a = s.homeByte k a) ∧
    (∀ q, (mget t.mem.poison q).isSome =
      if cs.any (fun c => c.1 / 32 == q) = false then (mget s.mem.poison q).isSome
      else if mark then true else if coversSector cs q then false else (mget s.mem.poison q).isSome)

/-- No access goes through a page that does not allow it, or to memory that is not there (R75, R77, R80, R81, R83, R92,
R150, R322). The model's own choices in it: log entries 28, 110. -/
def Obligations.TranslationGuardsAccess : Prop :=
  ∀ (s : State) (unit ctx : Nat) (va : Dword) (acc : Acc),
    (∀ x, (s.translate unit ctx va acc).2 = .ok x →
      va.toNat < 2 ^ 57 ∧
      (acc = .fetch → pteX x.leaf = true) ∧
      (acc = .load ∨ acc = .plotter ∨ acc = .txeRead ∨ acc = .range → pteR x.leaf = true) ∧
      (acc = .store ∨ acc = .txeWrite → pteW x.leaf = true) ∧
      (acc = .atomic ∨ acc = .txeReduce → pteR x.leaf = true ∧ pteW x.leaf = true) ∧
      (∀ pa, x.tgt = .hbm pa → pa < Config.hbmBytes) ∧
      (∀ dev pa, x.tgt = .peer dev pa → dev < s.podsize ∧ dev ≠ s.devnum) ∧
      (∀ off, x.tgt = .host off → acc ≠ .atomic ∧ acc ≠ .txeReduce ∧ acc ≠ .plotter ∧
        ∃ b size, (mget s.ctxs ctx).bind (·.window) = some (b, size) ∧ off < size) ∧
      (∀ off, x.tgt = .gaz off → off < 2 ^ 28 ∧ acc ≠ .atomic ∧ acc ≠ .txeReduce ∧ acc ≠ .plotter)) ∧
    (2 ^ 57 ≤ va.toNat → s.translate unit ctx va acc = (s, .error { xlc := 1, level := 0, ent := 0 })) ∧
    (∀ e lvl x, permCheck acc e = some x → s.leafCheck ctx acc e lvl va = .error { xlc := x, level := lvl, ent := e } ∧ 4 ≤ x ∧ x ≤ 6)
end

