-- ==== Sys2Proof/Laws/State.lean ====
section
/-!
SUPPORT. One lemma for each field and each named update of State and of Crew, true by rfl, so that no proof unfolds a record
update.
-/

namespace Sys2Proof.Machine

@[simp] theorem State.setCrew_agenda (s : State) (i : Nat) (c : Crew) : (s.setCrew i c).agenda = s.agenda := rfl
@[simp] theorem State.setCrew_focus (s : State) (i : Nat) (c : Crew) : (s.setCrew i c).focus = s.focus := rfl
@[simp] theorem State.setCrew_free (s : State) (i : Nat) (c : Crew) : (s.setCrew i c).free = s.free := rfl
@[simp] theorem State.setCrew_opSeq (s : State) (i : Nat) (c : Crew) : (s.setCrew i c).opSeq = s.opSeq := rfl
@[simp] theorem State.setCrew_outbox (s : State) (i : Nat) (c : Crew) : (s.setCrew i c).outbox = s.outbox := rfl
@[simp] theorem State.setCrew_clk (s : State) (i : Nat) (c : Crew) : (s.setCrew i c).clk = s.clk := rfl
@[simp] theorem State.setCrew_devnum (s : State) (i : Nat) (c : Crew) : (s.setCrew i c).devnum = s.devnum := rfl
@[simp] theorem State.setCrew_podsize (s : State) (i : Nat) (c : Crew) : (s.setCrew i c).podsize = s.podsize := rfl
@[simp] theorem State.setCrew_gzgen (s : State) (i : Nat) (c : Crew) : (s.setCrew i c).gzgen = s.gzgen := rfl
@[simp] theorem State.setCrew_gzcla (s : State) (i : Nat) (c : Crew) : (s.setCrew i c).gzcla = s.gzcla := rfl
@[simp] theorem State.setCrew_gzcore (s : State) (i : Nat) (c : Crew) : (s.setCrew i c).gzcore = s.gzcore := rfl
@[simp] theorem State.setCrew_gzslice (s : State) (i : Nat) (c : Crew) : (s.setCrew i c).gzslice = s.gzslice := rfl
@[simp] theorem State.setCrew_powerLimit (s : State) (i : Nat) (c : Crew) : (s.setCrew i c).powerLimit = s.powerLimit := rfl
@[simp] theorem State.setCrew_power (s : State) (i : Nat) (c : Crew) : (s.setCrew i c).power = s.power := rfl
@[simp] theorem State.setCrew_ualLanes (s : State) (i : Nat) (c : Crew) : (s.setCrew i c).ualLanes = s.ualLanes := rfl
@[simp] theorem State.setCrew_ualPeers (s : State) (i : Nat) (c : Crew) : (s.setCrew i c).ualPeers = s.ualPeers := rfl
@[simp] theorem State.setCrew_ueLanes (s : State) (i : Nat) (c : Crew) : (s.setCrew i c).ueLanes = s.ueLanes := rfl
@[simp] theorem State.setCrew_hostUp (s : State) (i : Nat) (c : Crew) : (s.setCrew i c).hostUp = s.hostUp := rfl
@[simp] theorem State.setCrew_d2dUp (s : State) (i : Nat) (c : Crew) : (s.setCrew i c).d2dUp = s.d2dUp := rfl
@[simp] theorem State.setCrew_crcFails (s : State) (i : Nat) (c : Crew) : (s.setCrew i c).crcFails = s.crcFails := rfl
@[simp] theorem State.setCrew_mem (s : State) (i : Nat) (c : Crew) : (s.setCrew i c).mem = s.mem := rfl
@[simp] theorem State.setCrew_keyGen (s : State) (i : Nat) (c : Crew) : (s.setCrew i c).keyGen = s.keyGen := rfl
@[simp] theorem State.setCrew_tlbs (s : State) (i : Nat) (c : Crew) : (s.setCrew i c).tlbs = s.tlbs := rfl
@[simp] theorem State.setCrew_walks (s : State) (i : Nat) (c : Crew) : (s.setCrew i c).walks = s.walks := rfl
@[simp] theorem State.setCrew_l1s (s : State) (i : Nat) (c : Crew) : (s.setCrew i c).l1s = s.l1s := rfl
@[simp] theorem State.setCrew_victims (s : State) (i : Nat) (c : Crew) : (s.setCrew i c).victims = s.victims := rfl
@[simp] theorem State.setCrew_lastIssue (s : State) (i : Nat) (c : Crew) : (s.setCrew i c).lastIssue = s.lastIssue := rfl
@[simp] theorem State.setCrew_lost (s : State) (i : Nat) (c : Crew) : (s.setCrew i c).lost = s.lost := rfl
@[simp] theorem State.setCrew_loadLim (s : State) (i : Nat) (c : Crew) : (s.setCrew i c).loadLim = s.loadLim := rfl
@[simp] theorem State.setCrew_ranges (s : State) (i : Nat) (c : Crew) : (s.setCrew i c).ranges = s.ranges := rfl
@[simp] theorem State.setCrew_spills (s : State) (i : Nat) (c : Crew) : (s.setCrew i c).spills = s.spills := rfl
@[simp] theorem State.setCrew_freezes (s : State) (i : Nat) (c : Crew) : (s.setCrew i c).freezes = s.freezes := rfl
@[simp] theorem State.setCrew_heaps (s : State) (i : Nat) (c : Crew) : (s.setCrew i c).heaps = s.heaps := rfl
@[simp] theorem State.setCrew_thawNext (s : State) (i : Nat) (c : Crew) : (s.setCrew i c).thawNext = s.thawNext := rfl
@[simp] theorem State.setCrew_thawOpen (s : State) (i : Nat) (c : Crew) : (s.setCrew i c).thawOpen = s.thawOpen := rfl
@[simp] theorem State.setCrew_thawDone (s : State) (i : Nat) (c : Crew) : (s.setCrew i c).thawDone = s.thawDone := rfl
@[simp] theorem State.setCrew_net (s : State) (i : Nat) (c : Crew) : (s.setCrew i c).net = s.net := rfl
@[simp] theorem State.setCrew_acks (s : State) (i : Nat) (c : Crew) : (s.setCrew i c).acks = s.acks := rfl
@[simp] theorem State.setCrew_peerReqs (s : State) (i : Nat) (c : Crew) : (s.setCrew i c).peerReqs = s.peerReqs := rfl
@[simp] theorem State.setCrew_hostReqs (s : State) (i : Nat) (c : Crew) : (s.setCrew i c).hostReqs = s.hostReqs := rfl
@[simp] theorem State.setCrew_atomHist (s : State) (i : Nat) (c : Crew) : (s.setCrew i c).atomHist = s.atomHist := rfl
@[simp] theorem State.setCrew_crews (s : State) (i : Nat) (c : Crew) : (s.setCrew i c).crews = mput s.crews i c := rfl
@[simp] theorem State.setCrew_fenceShots (s : State) (i : Nat) (c : Crew) : (s.setCrew i c).fenceShots = s.fenceShots := rfl
@[simp] theorem State.setCrew_teams (s : State) (i : Nat) (c : Crew) : (s.setCrew i c).teams = s.teams := rfl
@[simp] theorem State.setCrew_deques (s : State) (i : Nat) (c : Crew) : (s.setCrew i c).deques = s.deques := rfl
@[simp] theorem State.setCrew_queues (s : State) (i : Nat) (c : Crew) : (s.setCrew i c).queues = s.queues := rfl
@[simp] theorem State.setCrew_launches (s : State) (i : Nat) (c : Crew) : (s.setCrew i c).launches = s.launches := rfl
@[simp] theorem State.setCrew_rr (s : State) (i : Nat) (c : Crew) : (s.setCrew i c).rr = s.rr := rfl
@[simp] theorem State.setCrew_pools (s : State) (i : Nat) (c : Crew) : (s.setCrew i c).pools = s.pools := rfl
@[simp] theorem State.setCrew_nodes (s : State) (i : Nat) (c : Crew) : (s.setCrew i c).nodes = s.nodes := rfl
@[simp] theorem State.setCrew_sealedQ (s : State) (i : Nat) (c : Crew) : (s.setCrew i c).sealedQ = s.sealedQ := rfl
@[simp] theorem State.setCrew_chains (s : State) (i : Nat) (c : Crew) : (s.setCrew i c).chains = s.chains := rfl
@[simp] theorem State.setCrew_clusters (s : State) (i : Nat) (c : Crew) : (s.setCrew i c).clusters = s.clusters := rfl
@[simp] theorem State.setCrew_ctxs (s : State) (i : Nat) (c : Crew) : (s.setCrew i c).ctxs = s.ctxs := rfl
@[simp] theorem State.setCrew_colls (s : State) (i : Nat) (c : Crew) : (s.setCrew i c).colls = s.colls := rfl
@[simp] theorem State.setCrew_endpoints (s : State) (i : Nat) (c : Crew) : (s.setCrew i c).endpoints = s.endpoints := rfl
@[simp] theorem State.setCrew_linkKeys (s : State) (i : Nat) (c : Crew) : (s.setCrew i c).linkKeys = s.linkKeys := rfl
@[simp] theorem State.setCrew_sessions (s : State) (i : Nat) (c : Crew) : (s.setCrew i c).sessions = s.sessions := rfl
@[simp] theorem State.setCrew_admitted (s : State) (i : Nat) (c : Crew) : (s.setCrew i c).admitted = s.admitted := rfl
@[simp] theorem State.setCrew_tlbWait (s : State) (i : Nat) (c : Crew) : (s.setCrew i c).tlbWait = s.tlbWait := rfl
@[simp] theorem State.setCrew_ctxWait (s : State) (i : Nat) (c : Crew) : (s.setCrew i c).ctxWait = s.ctxWait := rfl
@[simp] theorem State.setCrew_cmds (s : State) (i : Nat) (c : Crew) : (s.setCrew i c).cmds = s.cmds := rfl
@[simp] theorem State.setCrew_logs (s : State) (i : Nat) (c : Crew) : (s.setCrew i c).logs = s.logs := rfl
@[simp] theorem State.setCrew_snap (s : State) (i : Nat) (c : Crew) : (s.setCrew i c).snap = s.snap := rfl
@[simp] theorem State.setCrew_rot (s : State) (i : Nat) (c : Crew) : (s.setCrew i c).rot = s.rot := rfl

@[simp] theorem State.modCrew_agenda (s : State) (i : Nat) (f : Crew → Crew) : (s.modCrew i f).agenda = s.agenda := rfl
@[simp] theorem State.modCrew_focus (s : State) (i : Nat) (f : Crew → Crew) : (s.modCrew i f).focus = s.focus := rfl
@[simp] theorem State.modCrew_free (s : State) (i : Nat) (f : Crew → Crew) : (s.modCrew i f).free = s.free := rfl
@[simp] theorem State.modCrew_opSeq (s : State) (i : Nat) (f : Crew → Crew) : (s.modCrew i f).opSeq = s.opSeq := rfl
@[simp] theorem State.modCrew_outbox (s : State) (i : Nat) (f : Crew → Crew) : (s.modCrew i f).outbox = s.outbox := rfl
@[simp] theorem State.modCrew_clk (s : State) (i : Nat) (f : Crew → Crew) : (s.modCrew i f).clk = s.clk := rfl
@[simp] theorem State.modCrew_devnum (s : State) (i : Nat) (f : Crew → Crew) : (s.modCrew i f).devnum = s.devnum := rfl
@[simp] theorem State.modCrew_podsize (s : State) (i : Nat) (f : Crew → Crew) : (s.modCrew i f).podsize = s.podsize := rfl
@[simp] theorem State.modCrew_gzgen (s : State) (i : Nat) (f : Crew → Crew) : (s.modCrew i f).gzgen = s.gzgen := rfl
@[simp] theorem State.modCrew_gzcla (s : State) (i : Nat) (f : Crew → Crew) : (s.modCrew i f).gzcla = s.gzcla := rfl
@[simp] theorem State.modCrew_gzcore (s : State) (i : Nat) (f : Crew → Crew) : (s.modCrew i f).gzcore = s.gzcore := rfl
@[simp] theorem State.modCrew_gzslice (s : State) (i : Nat) (f : Crew → Crew) : (s.modCrew i f).gzslice = s.gzslice := rfl
@[simp] theorem State.modCrew_powerLimit (s : State) (i : Nat) (f : Crew → Crew) : (s.modCrew i f).powerLimit = s.powerLimit := rfl
@[simp] theorem State.modCrew_power (s : State) (i : Nat) (f : Crew → Crew) : (s.modCrew i f).power = s.power := rfl
@[simp] theorem State.modCrew_ualLanes (s : State) (i : Nat) (f : Crew → Crew) : (s.modCrew i f).ualLanes = s.ualLanes := rfl
@[simp] theorem State.modCrew_ualPeers (s : State) (i : Nat) (f : Crew → Crew) : (s.modCrew i f).ualPeers = s.ualPeers := rfl
@[simp] theorem State.modCrew_ueLanes (s : State) (i : Nat) (f : Crew → Crew) : (s.modCrew i f).ueLanes = s.ueLanes := rfl
@[simp] theorem State.modCrew_hostUp (s : State) (i : Nat) (f : Crew → Crew) : (s.modCrew i f).hostUp = s.hostUp := rfl
@[simp] theorem State.modCrew_d2dUp (s : State) (i : Nat) (f : Crew → Crew) : (s.modCrew i f).d2dUp = s.d2dUp := rfl
@[simp] theorem State.modCrew_crcFails (s : State) (i : Nat) (f : Crew → Crew) : (s.modCrew i f).crcFails = s.crcFails := rfl
@[simp] theorem State.modCrew_mem (s : State) (i : Nat) (f : Crew → Crew) : (s.modCrew i f).mem = s.mem := rfl
@[simp] theorem State.modCrew_keyGen (s : State) (i : Nat) (f : Crew → Crew) : (s.modCrew i f).keyGen = s.keyGen := rfl
@[simp] theorem State.modCrew_tlbs (s : State) (i : Nat) (f : Crew → Crew) : (s.modCrew i f).tlbs = s.tlbs := rfl
@[simp] theorem State.modCrew_walks (s : State) (i : Nat) (f : Crew → Crew) : (s.modCrew i f).walks = s.walks := rfl
@[simp] theorem State.modCrew_l1s (s : State) (i : Nat) (f : Crew → Crew) : (s.modCrew i f).l1s = s.l1s := rfl
@[simp] theorem State.modCrew_victims (s : State) (i : Nat) (f : Crew → Crew) : (s.modCrew i f).victims = s.victims := rfl
@[simp] theorem State.modCrew_lastIssue (s : State) (i : Nat) (f : Crew → Crew) : (s.modCrew i f).lastIssue = s.lastIssue := rfl
@[simp] theorem State.modCrew_lost (s : State) (i : Nat) (f : Crew → Crew) : (s.modCrew i f).lost = s.lost := rfl
@[simp] theorem State.modCrew_loadLim (s : State) (i : Nat) (f : Crew → Crew) : (s.modCrew i f).loadLim = s.loadLim := rfl
@[simp] theorem State.modCrew_ranges (s : State) (i : Nat) (f : Crew → Crew) : (s.modCrew i f).ranges = s.ranges := rfl
@[simp] theorem State.modCrew_spills (s : State) (i : Nat) (f : Crew → Crew) : (s.modCrew i f).spills = s.spills := rfl
@[simp] theorem State.modCrew_freezes (s : State) (i : Nat) (f : Crew → Crew) : (s.modCrew i f).freezes = s.freezes := rfl
@[simp] theorem State.modCrew_heaps (s : State) (i : Nat) (f : Crew → Crew) : (s.modCrew i f).heaps = s.heaps := rfl
@[simp] theorem State.modCrew_thawNext (s : State) (i : Nat) (f : Crew → Crew) : (s.modCrew i f).thawNext = s.thawNext := rfl
@[simp] theorem State.modCrew_thawOpen (s : State) (i : Nat) (f : Crew → Crew) : (s.modCrew i f).thawOpen = s.thawOpen := rfl
@[simp] theorem State.modCrew_thawDone (s : State) (i : Nat) (f : Crew → Crew) : (s.modCrew i f).thawDone = s.thawDone := rfl
@[simp] theorem State.modCrew_net (s : State) (i : Nat) (f : Crew → Crew) : (s.modCrew i f).net = s.net := rfl
@[simp] theorem State.modCrew_acks (s : State) (i : Nat) (f : Crew → Crew) : (s.modCrew i f).acks = s.acks := rfl
@[simp] theorem State.modCrew_peerReqs (s : State) (i : Nat) (f : Crew → Crew) : (s.modCrew i f).peerReqs = s.peerReqs := rfl
@[simp] theorem State.modCrew_hostReqs (s : State) (i : Nat) (f : Crew → Crew) : (s.modCrew i f).hostReqs = s.hostReqs := rfl
@[simp] theorem State.modCrew_atomHist (s : State) (i : Nat) (f : Crew → Crew) : (s.modCrew i f).atomHist = s.atomHist := rfl
@[simp] theorem State.modCrew_crews (s : State) (i : Nat) (f : Crew → Crew) : (s.modCrew i f).crews = mmod s.crews i f := rfl
@[simp] theorem State.modCrew_fenceShots (s : State) (i : Nat) (f : Crew → Crew) : (s.modCrew i f).fenceShots = s.fenceShots := rfl
@[simp] theorem State.modCrew_teams (s : State) (i : Nat) (f : Crew → Crew) : (s.modCrew i f).teams = s.teams := rfl
@[simp] theorem State.modCrew_deques (s : State) (i : Nat) (f : Crew → Crew) : (s.modCrew i f).deques = s.deques := rfl
@[simp] theorem State.modCrew_queues (s : State) (i : Nat) (f : Crew → Crew) : (s.modCrew i f).queues = s.queues := rfl
@[simp] theorem State.modCrew_launches (s : State) (i : Nat) (f : Crew → Crew) : (s.modCrew i f).launches = s.launches := rfl
@[simp] theorem State.modCrew_rr (s : State) (i : Nat) (f : Crew → Crew) : (s.modCrew i f).rr = s.rr := rfl
@[simp] theorem State.modCrew_pools (s : State) (i : Nat) (f : Crew → Crew) : (s.modCrew i f).pools = s.pools := rfl
@[simp] theorem State.modCrew_nodes (s : State) (i : Nat) (f : Crew → Crew) : (s.modCrew i f).nodes = s.nodes := rfl
@[simp] theorem State.modCrew_sealedQ (s : State) (i : Nat) (f : Crew → Crew) : (s.modCrew i f).sealedQ = s.sealedQ := rfl
@[simp] theorem State.modCrew_chains (s : State) (i : Nat) (f : Crew → Crew) : (s.modCrew i f).chains = s.chains := rfl
@[simp] theorem State.modCrew_clusters (s : State) (i : Nat) (f : Crew → Crew) : (s.modCrew i f).clusters = s.clusters := rfl
@[simp] theorem State.modCrew_ctxs (s : State) (i : Nat) (f : Crew → Crew) : (s.modCrew i f).ctxs = s.ctxs := rfl
@[simp] theorem State.modCrew_colls (s : State) (i : Nat) (f : Crew → Crew) : (s.modCrew i f).colls = s.colls := rfl
@[simp] theorem State.modCrew_endpoints (s : State) (i : Nat) (f : Crew → Crew) : (s.modCrew i f).endpoints = s.endpoints := rfl
@[simp] theorem State.modCrew_linkKeys (s : State) (i : Nat) (f : Crew → Crew) : (s.modCrew i f).linkKeys = s.linkKeys := rfl
@[simp] theorem State.modCrew_sessions (s : State) (i : Nat) (f : Crew → Crew) : (s.modCrew i f).sessions = s.sessions := rfl
@[simp] theorem State.modCrew_admitted (s : State) (i : Nat) (f : Crew → Crew) : (s.modCrew i f).admitted = s.admitted := rfl
@[simp] theorem State.modCrew_tlbWait (s : State) (i : Nat) (f : Crew → Crew) : (s.modCrew i f).tlbWait = s.tlbWait := rfl
@[simp] theorem State.modCrew_ctxWait (s : State) (i : Nat) (f : Crew → Crew) : (s.modCrew i f).ctxWait = s.ctxWait := rfl
@[simp] theorem State.modCrew_cmds (s : State) (i : Nat) (f : Crew → Crew) : (s.modCrew i f).cmds = s.cmds := rfl
@[simp] theorem State.modCrew_logs (s : State) (i : Nat) (f : Crew → Crew) : (s.modCrew i f).logs = s.logs := rfl
@[simp] theorem State.modCrew_snap (s : State) (i : Nat) (f : Crew → Crew) : (s.modCrew i f).snap = s.snap := rfl
@[simp] theorem State.modCrew_rot (s : State) (i : Nat) (f : Crew → Crew) : (s.modCrew i f).rot = s.rot := rfl

@[simp] theorem State.send_agenda (s : State) (m : OutMsg) : (s.send m).agenda = s.agenda := rfl
@[simp] theorem State.send_focus (s : State) (m : OutMsg) : (s.send m).focus = s.focus := rfl
@[simp] theorem State.send_free (s : State) (m : OutMsg) : (s.send m).free = s.free := rfl
@[simp] theorem State.send_opSeq (s : State) (m : OutMsg) : (s.send m).opSeq = s.opSeq := rfl
@[simp] theorem State.send_outbox (s : State) (m : OutMsg) : (s.send m).outbox = s.outbox ++ [m] := rfl
@[simp] theorem State.send_clk (s : State) (m : OutMsg) : (s.send m).clk = s.clk := rfl
@[simp] theorem State.send_devnum (s : State) (m : OutMsg) : (s.send m).devnum = s.devnum := rfl
@[simp] theorem State.send_podsize (s : State) (m : OutMsg) : (s.send m).podsize = s.podsize := rfl
@[simp] theorem State.send_gzgen (s : State) (m : OutMsg) : (s.send m).gzgen = s.gzgen := rfl
@[simp] theorem State.send_gzcla (s : State) (m : OutMsg) : (s.send m).gzcla = s.gzcla := rfl
@[simp] theorem State.send_gzcore (s : State) (m : OutMsg) : (s.send m).gzcore = s.gzcore := rfl
@[simp] theorem State.send_gzslice (s : State) (m : OutMsg) : (s.send m).gzslice = s.gzslice := rfl
@[simp] theorem State.send_powerLimit (s : State) (m : OutMsg) : (s.send m).powerLimit = s.powerLimit := rfl
@[simp] theorem State.send_power (s : State) (m : OutMsg) : (s.send m).power = s.power := rfl
@[simp] theorem State.send_ualLanes (s : State) (m : OutMsg) : (s.send m).ualLanes = s.ualLanes := rfl
@[simp] theorem State.send_ualPeers (s : State) (m : OutMsg) : (s.send m).ualPeers = s.ualPeers := rfl
@[simp] theorem State.send_ueLanes (s : State) (m : OutMsg) : (s.send m).ueLanes = s.ueLanes := rfl
@[simp] theorem State.send_hostUp (s : State) (m : OutMsg) : (s.send m).hostUp = s.hostUp := rfl
@[simp] theorem State.send_d2dUp (s : State) (m : OutMsg) : (s.send m).d2dUp = s.d2dUp := rfl
@[simp] theorem State.send_crcFails (s : State) (m : OutMsg) : (s.send m).crcFails = s.crcFails := rfl
@[simp] theorem State.send_mem (s : State) (m : OutMsg) : (s.send m).mem = s.mem := rfl
@[simp] theorem State.send_keyGen (s : State) (m : OutMsg) : (s.send m).keyGen = s.keyGen := rfl
@[simp] theorem State.send_tlbs (s : State) (m : OutMsg) : (s.send m).tlbs = s.tlbs := rfl
@[simp] theorem State.send_walks (s : State) (m : OutMsg) : (s.send m).walks = s.walks := rfl
@[simp] theorem State.send_l1s (s : State) (m : OutMsg) : (s.send m).l1s = s.l1s := rfl
@[simp] theorem State.send_victims (s : State) (m : OutMsg) : (s.send m).victims = s.victims := rfl
@[simp] theorem State.send_lastIssue (s : State) (m : OutMsg) : (s.send m).lastIssue = s.lastIssue := rfl
@[simp] theorem State.send_lost (s : State) (m : OutMsg) : (s.send m).lost = s.lost := rfl
@[simp] theorem State.send_loadLim (s : State) (m : OutMsg) : (s.send m).loadLim = s.loadLim := rfl
@[simp] theorem State.send_ranges (s : State) (m : OutMsg) : (s.send m).ranges = s.ranges := rfl
@[simp] theorem State.send_spills (s : State) (m : OutMsg) : (s.send m).spills = s.spills := rfl
@[simp] theorem State.send_freezes (s : State) (m : OutMsg) : (s.send m).freezes = s.freezes := rfl
@[simp] theorem State.send_heaps (s : State) (m : OutMsg) : (s.send m).heaps = s.heaps := rfl
@[simp] theorem State.send_thawNext (s : State) (m : OutMsg) : (s.send m).thawNext = s.thawNext := rfl
@[simp] theorem State.send_thawOpen (s : State) (m : OutMsg) : (s.send m).thawOpen = s.thawOpen := rfl
@[simp] theorem State.send_thawDone (s : State) (m : OutMsg) : (s.send m).thawDone = s.thawDone := rfl
@[simp] theorem State.send_net (s : State) (m : OutMsg) : (s.send m).net = s.net := rfl
@[simp] theorem State.send_acks (s : State) (m : OutMsg) : (s.send m).acks = s.acks := rfl
@[simp] theorem State.send_peerReqs (s : State) (m : OutMsg) : (s.send m).peerReqs = s.peerReqs := rfl
@[simp] theorem State.send_hostReqs (s : State) (m : OutMsg) : (s.send m).hostReqs = s.hostReqs := rfl
@[simp] theorem State.send_atomHist (s : State) (m : OutMsg) : (s.send m).atomHist = s.atomHist := rfl
@[simp] theorem State.send_crews (s : State) (m : OutMsg) : (s.send m).crews = s.crews := rfl
@[simp] theorem State.send_fenceShots (s : State) (m : OutMsg) : (s.send m).fenceShots = s.fenceShots := rfl
@[simp] theorem State.send_teams (s : State) (m : OutMsg) : (s.send m).teams = s.teams := rfl
@[simp] theorem State.send_deques (s : State) (m : OutMsg) : (s.send m).deques = s.deques := rfl
@[simp] theorem State.send_queues (s : State) (m : OutMsg) : (s.send m).queues = s.queues := rfl
@[simp] theorem State.send_launches (s : State) (m : OutMsg) : (s.send m).launches = s.launches := rfl
@[simp] theorem State.send_rr (s : State) (m : OutMsg) : (s.send m).rr = s.rr := rfl
@[simp] theorem State.send_pools (s : State) (m : OutMsg) : (s.send m).pools = s.pools := rfl
@[simp] theorem State.send_nodes (s : State) (m : OutMsg) : (s.send m).nodes = s.nodes := rfl
@[simp] theorem State.send_sealedQ (s : State) (m : OutMsg) : (s.send m).sealedQ = s.sealedQ := rfl
@[simp] theorem State.send_chains (s : State) (m : OutMsg) : (s.send m).chains = s.chains := rfl
@[simp] theorem State.send_clusters (s : State) (m : OutMsg) : (s.send m).clusters = s.clusters := rfl
@[simp] theorem State.send_ctxs (s : State) (m : OutMsg) : (s.send m).ctxs = s.ctxs := rfl
@[simp] theorem State.send_colls (s : State) (m : OutMsg) : (s.send m).colls = s.colls := rfl
@[simp] theorem State.send_endpoints (s : State) (m : OutMsg) : (s.send m).endpoints = s.endpoints := rfl
@[simp] theorem State.send_linkKeys (s : State) (m : OutMsg) : (s.send m).linkKeys = s.linkKeys := rfl
@[simp] theorem State.send_sessions (s : State) (m : OutMsg) : (s.send m).sessions = s.sessions := rfl
@[simp] theorem State.send_admitted (s : State) (m : OutMsg) : (s.send m).admitted = s.admitted := rfl
@[simp] theorem State.send_tlbWait (s : State) (m : OutMsg) : (s.send m).tlbWait = s.tlbWait := rfl
@[simp] theorem State.send_ctxWait (s : State) (m : OutMsg) : (s.send m).ctxWait = s.ctxWait := rfl
@[simp] theorem State.send_cmds (s : State) (m : OutMsg) : (s.send m).cmds = s.cmds := rfl
@[simp] theorem State.send_logs (s : State) (m : OutMsg) : (s.send m).logs = s.logs := rfl
@[simp] theorem State.send_snap (s : State) (m : OutMsg) : (s.send m).snap = s.snap := rfl
@[simp] theorem State.send_rot (s : State) (m : OutMsg) : (s.send m).rot = s.rot := rfl

@[simp] theorem State.tick_agenda (s : State) : (s.tick).agenda = s.agenda := rfl
@[simp] theorem State.tick_focus (s : State) : (s.tick).focus = s.focus := rfl
@[simp] theorem State.tick_free (s : State) : (s.tick).free = s.free := rfl
@[simp] theorem State.tick_opSeq (s : State) : (s.tick).opSeq = s.opSeq := rfl
@[simp] theorem State.tick_outbox (s : State) : (s.tick).outbox = s.outbox := rfl
@[simp] theorem State.tick_clk (s : State) : (s.tick).clk = s.clk + 1 + Config.extraClk s.clk := rfl
@[simp] theorem State.tick_devnum (s : State) : (s.tick).devnum = s.devnum := rfl
@[simp] theorem State.tick_podsize (s : State) : (s.tick).podsize = s.podsize := rfl
@[simp] theorem State.tick_gzgen (s : State) : (s.tick).gzgen = s.gzgen := rfl
@[simp] theorem State.tick_gzcla (s : State) : (s.tick).gzcla = s.gzcla := rfl
@[simp] theorem State.tick_gzcore (s : State) : (s.tick).gzcore = s.gzcore := rfl
@[simp] theorem State.tick_gzslice (s : State) : (s.tick).gzslice = s.gzslice := rfl
@[simp] theorem State.tick_powerLimit (s : State) : (s.tick).powerLimit = s.powerLimit := rfl
@[simp] theorem State.tick_power (s : State) : (s.tick).power = s.power := rfl
@[simp] theorem State.tick_ualLanes (s : State) : (s.tick).ualLanes = s.ualLanes := rfl
@[simp] theorem State.tick_ualPeers (s : State) : (s.tick).ualPeers = s.ualPeers := rfl
@[simp] theorem State.tick_ueLanes (s : State) : (s.tick).ueLanes = s.ueLanes := rfl
@[simp] theorem State.tick_hostUp (s : State) : (s.tick).hostUp = s.hostUp := rfl
@[simp] theorem State.tick_d2dUp (s : State) : (s.tick).d2dUp = s.d2dUp := rfl
@[simp] theorem State.tick_crcFails (s : State) : (s.tick).crcFails = s.crcFails := rfl
@[simp] theorem State.tick_mem (s : State) : (s.tick).mem = s.mem := rfl
@[simp] theorem State.tick_keyGen (s : State) : (s.tick).keyGen = s.keyGen := rfl
@[simp] theorem State.tick_tlbs (s : State) : (s.tick).tlbs = s.tlbs := rfl
@[simp] theorem State.tick_walks (s : State) : (s.tick).walks = s.walks := rfl
@[simp] theorem State.tick_l1s (s : State) : (s.tick).l1s = s.l1s := rfl
@[simp] theorem State.tick_victims (s : State) : (s.tick).victims = s.victims := rfl
@[simp] theorem State.tick_lastIssue (s : State) : (s.tick).lastIssue = s.lastIssue := rfl
@[simp] theorem State.tick_lost (s : State) : (s.tick).lost = s.lost := rfl
@[simp] theorem State.tick_loadLim (s : State) : (s.tick).loadLim = s.loadLim := rfl
@[simp] theorem State.tick_ranges (s : State) : (s.tick).ranges = s.ranges := rfl
@[simp] theorem State.tick_spills (s : State) : (s.tick).spills = s.spills := rfl
@[simp] theorem State.tick_freezes (s : State) : (s.tick).freezes = s.freezes := rfl
@[simp] theorem State.tick_heaps (s : State) : (s.tick).heaps = s.heaps := rfl
@[simp] theorem State.tick_thawNext (s : State) : (s.tick).thawNext = s.thawNext := rfl
@[simp] theorem State.tick_thawOpen (s : State) : (s.tick).thawOpen = s.thawOpen := rfl
@[simp] theorem State.tick_thawDone (s : State) : (s.tick).thawDone = s.thawDone := rfl
@[simp] theorem State.tick_net (s : State) : (s.tick).net = s.net := rfl
@[simp] theorem State.tick_acks (s : State) : (s.tick).acks = s.acks := rfl
@[simp] theorem State.tick_peerReqs (s : State) : (s.tick).peerReqs = s.peerReqs := rfl
@[simp] theorem State.tick_hostReqs (s : State) : (s.tick).hostReqs = s.hostReqs := rfl
@[simp] theorem State.tick_atomHist (s : State) : (s.tick).atomHist = s.atomHist := rfl
@[simp] theorem State.tick_crews (s : State) : (s.tick).crews = s.crews := rfl
@[simp] theorem State.tick_fenceShots (s : State) : (s.tick).fenceShots = s.fenceShots := rfl
@[simp] theorem State.tick_teams (s : State) : (s.tick).teams = s.teams := rfl
@[simp] theorem State.tick_deques (s : State) : (s.tick).deques = s.deques := rfl
@[simp] theorem State.tick_queues (s : State) : (s.tick).queues = s.queues := rfl
@[simp] theorem State.tick_launches (s : State) : (s.tick).launches = s.launches := rfl
@[simp] theorem State.tick_rr (s : State) : (s.tick).rr = s.rr := rfl
@[simp] theorem State.tick_pools (s : State) : (s.tick).pools = s.pools := rfl
@[simp] theorem State.tick_nodes (s : State) : (s.tick).nodes = s.nodes := rfl
@[simp] theorem State.tick_sealedQ (s : State) : (s.tick).sealedQ = s.sealedQ := rfl
@[simp] theorem State.tick_chains (s : State) : (s.tick).chains = s.chains := rfl
@[simp] theorem State.tick_clusters (s : State) : (s.tick).clusters = s.clusters := rfl
@[simp] theorem State.tick_ctxs (s : State) : (s.tick).ctxs = s.ctxs := rfl
@[simp] theorem State.tick_colls (s : State) : (s.tick).colls = s.colls := rfl
@[simp] theorem State.tick_endpoints (s : State) : (s.tick).endpoints = s.endpoints := rfl
@[simp] theorem State.tick_linkKeys (s : State) : (s.tick).linkKeys = s.linkKeys := rfl
@[simp] theorem State.tick_sessions (s : State) : (s.tick).sessions = s.sessions := rfl
@[simp] theorem State.tick_admitted (s : State) : (s.tick).admitted = s.admitted := rfl
@[simp] theorem State.tick_tlbWait (s : State) : (s.tick).tlbWait = s.tlbWait := rfl
@[simp] theorem State.tick_ctxWait (s : State) : (s.tick).ctxWait = s.ctxWait := rfl
@[simp] theorem State.tick_cmds (s : State) : (s.tick).cmds = s.cmds := rfl
@[simp] theorem State.tick_logs (s : State) : (s.tick).logs = s.logs := rfl
@[simp] theorem State.tick_snap (s : State) : (s.tick).snap = s.snap := rfl
@[simp] theorem State.tick_rot (s : State) : (s.tick).rot = s.rot := rfl

@[simp] theorem State.modCtx_agenda (s : State) (i : Nat) (f : Ctx → Ctx) : (s.modCtx i f).agenda = s.agenda := rfl
@[simp] theorem State.modCtx_focus (s : State) (i : Nat) (f : Ctx → Ctx) : (s.modCtx i f).focus = s.focus := rfl
@[simp] theorem State.modCtx_free (s : State) (i : Nat) (f : Ctx → Ctx) : (s.modCtx i f).free = s.free := rfl
@[simp] theorem State.modCtx_opSeq (s : State) (i : Nat) (f : Ctx → Ctx) : (s.modCtx i f).opSeq = s.opSeq := rfl
@[simp] theorem State.modCtx_outbox (s : State) (i : Nat) (f : Ctx → Ctx) : (s.modCtx i f).outbox = s.outbox := rfl
@[simp] theorem State.modCtx_clk (s : State) (i : Nat) (f : Ctx → Ctx) : (s.modCtx i f).clk = s.clk := rfl
@[simp] theorem State.modCtx_devnum (s : State) (i : Nat) (f : Ctx → Ctx) : (s.modCtx i f).devnum = s.devnum := rfl
@[simp] theorem State.modCtx_podsize (s : State) (i : Nat) (f : Ctx → Ctx) : (s.modCtx i f).podsize = s.podsize := rfl
@[simp] theorem State.modCtx_gzgen (s : State) (i : Nat) (f : Ctx → Ctx) : (s.modCtx i f).gzgen = s.gzgen := rfl
@[simp] theorem State.modCtx_gzcla (s : State) (i : Nat) (f : Ctx → Ctx) : (s.modCtx i f).gzcla = s.gzcla := rfl
@[simp] theorem State.modCtx_gzcore (s : State) (i : Nat) (f : Ctx → Ctx) : (s.modCtx i f).gzcore = s.gzcore := rfl
@[simp] theorem State.modCtx_gzslice (s : State) (i : Nat) (f : Ctx → Ctx) : (s.modCtx i f).gzslice = s.gzslice := rfl
@[simp] theorem State.modCtx_powerLimit (s : State) (i : Nat) (f : Ctx → Ctx) : (s.modCtx i f).powerLimit = s.powerLimit := rfl
@[simp] theorem State.modCtx_power (s : State) (i : Nat) (f : Ctx → Ctx) : (s.modCtx i f).power = s.power := rfl
@[simp] theorem State.modCtx_ualLanes (s : State) (i : Nat) (f : Ctx → Ctx) : (s.modCtx i f).ualLanes = s.ualLanes := rfl
@[simp] theorem State.modCtx_ualPeers (s : State) (i : Nat) (f : Ctx → Ctx) : (s.modCtx i f).ualPeers = s.ualPeers := rfl
@[simp] theorem State.modCtx_ueLanes (s : State) (i : Nat) (f : Ctx → Ctx) : (s.modCtx i f).ueLanes = s.ueLanes := rfl
@[simp] theorem State.modCtx_hostUp (s : State) (i : Nat) (f : Ctx → Ctx) : (s.modCtx i f).hostUp = s.hostUp := rfl
@[simp] theorem State.modCtx_d2dUp (s : State) (i : Nat) (f : Ctx → Ctx) : (s.modCtx i f).d2dUp = s.d2dUp := rfl
@[simp] theorem State.modCtx_crcFails (s : State) (i : Nat) (f : Ctx → Ctx) : (s.modCtx i f).crcFails = s.crcFails := rfl
@[simp] theorem State.modCtx_mem (s : State) (i : Nat) (f : Ctx → Ctx) : (s.modCtx i f).mem = s.mem := rfl
@[simp] theorem State.modCtx_keyGen (s : State) (i : Nat) (f : Ctx → Ctx) : (s.modCtx i f).keyGen = s.keyGen := rfl
@[simp] theorem State.modCtx_tlbs (s : State) (i : Nat) (f : Ctx → Ctx) : (s.modCtx i f).tlbs = s.tlbs := rfl
@[simp] theorem State.modCtx_walks (s : State) (i : Nat) (f : Ctx → Ctx) : (s.modCtx i f).walks = s.walks := rfl
@[simp] theorem State.modCtx_l1s (s : State) (i : Nat) (f : Ctx → Ctx) : (s.modCtx i f).l1s = s.l1s := rfl
@[simp] theorem State.modCtx_victims (s : State) (i : Nat) (f : Ctx → Ctx) : (s.modCtx i f).victims = s.victims := rfl
@[simp] theorem State.modCtx_lastIssue (s : State) (i : Nat) (f : Ctx → Ctx) : (s.modCtx i f).lastIssue = s.lastIssue := rfl
@[simp] theorem State.modCtx_lost (s : State) (i : Nat) (f : Ctx → Ctx) : (s.modCtx i f).lost = s.lost := rfl
@[simp] theorem State.modCtx_loadLim (s : State) (i : Nat) (f : Ctx → Ctx) : (s.modCtx i f).loadLim = s.loadLim := rfl
@[simp] theorem State.modCtx_ranges (s : State) (i : Nat) (f : Ctx → Ctx) : (s.modCtx i f).ranges = s.ranges := rfl
@[simp] theorem State.modCtx_spills (s : State) (i : Nat) (f : Ctx → Ctx) : (s.modCtx i f).spills = s.spills := rfl
@[simp] theorem State.modCtx_freezes (s : State) (i : Nat) (f : Ctx → Ctx) : (s.modCtx i f).freezes = s.freezes := rfl
@[simp] theorem State.modCtx_heaps (s : State) (i : Nat) (f : Ctx → Ctx) : (s.modCtx i f).heaps = s.heaps := rfl
@[simp] theorem State.modCtx_thawNext (s : State) (i : Nat) (f : Ctx → Ctx) : (s.modCtx i f).thawNext = s.thawNext := rfl
@[simp] theorem State.modCtx_thawOpen (s : State) (i : Nat) (f : Ctx → Ctx) : (s.modCtx i f).thawOpen = s.thawOpen := rfl
@[simp] theorem State.modCtx_thawDone (s : State) (i : Nat) (f : Ctx → Ctx) : (s.modCtx i f).thawDone = s.thawDone := rfl
@[simp] theorem State.modCtx_net (s : State) (i : Nat) (f : Ctx → Ctx) : (s.modCtx i f).net = s.net := rfl
@[simp] theorem State.modCtx_acks (s : State) (i : Nat) (f : Ctx → Ctx) : (s.modCtx i f).acks = s.acks := rfl
@[simp] theorem State.modCtx_peerReqs (s : State) (i : Nat) (f : Ctx → Ctx) : (s.modCtx i f).peerReqs = s.peerReqs := rfl
@[simp] theorem State.modCtx_hostReqs (s : State) (i : Nat) (f : Ctx → Ctx) : (s.modCtx i f).hostReqs = s.hostReqs := rfl
@[simp] theorem State.modCtx_atomHist (s : State) (i : Nat) (f : Ctx → Ctx) : (s.modCtx i f).atomHist = s.atomHist := rfl
@[simp] theorem State.modCtx_crews (s : State) (i : Nat) (f : Ctx → Ctx) : (s.modCtx i f).crews = s.crews := rfl
@[simp] theorem State.modCtx_fenceShots (s : State) (i : Nat) (f : Ctx → Ctx) : (s.modCtx i f).fenceShots = s.fenceShots := rfl
@[simp] theorem State.modCtx_teams (s : State) (i : Nat) (f : Ctx → Ctx) : (s.modCtx i f).teams = s.teams := rfl
@[simp] theorem State.modCtx_deques (s : State) (i : Nat) (f : Ctx → Ctx) : (s.modCtx i f).deques = s.deques := rfl
@[simp] theorem State.modCtx_queues (s : State) (i : Nat) (f : Ctx → Ctx) : (s.modCtx i f).queues = s.queues := rfl
@[simp] theorem State.modCtx_launches (s : State) (i : Nat) (f : Ctx → Ctx) : (s.modCtx i f).launches = s.launches := rfl
@[simp] theorem State.modCtx_rr (s : State) (i : Nat) (f : Ctx → Ctx) : (s.modCtx i f).rr = s.rr := rfl
@[simp] theorem State.modCtx_pools (s : State) (i : Nat) (f : Ctx → Ctx) : (s.modCtx i f).pools = s.pools := rfl
@[simp] theorem State.modCtx_nodes (s : State) (i : Nat) (f : Ctx → Ctx) : (s.modCtx i f).nodes = s.nodes := rfl
@[simp] theorem State.modCtx_sealedQ (s : State) (i : Nat) (f : Ctx → Ctx) : (s.modCtx i f).sealedQ = s.sealedQ := rfl
@[simp] theorem State.modCtx_chains (s : State) (i : Nat) (f : Ctx → Ctx) : (s.modCtx i f).chains = s.chains := rfl
@[simp] theorem State.modCtx_clusters (s : State) (i : Nat) (f : Ctx → Ctx) : (s.modCtx i f).clusters = s.clusters := rfl
@[simp] theorem State.modCtx_ctxs (s : State) (i : Nat) (f : Ctx → Ctx) : (s.modCtx i f).ctxs = mmod s.ctxs i f := rfl
@[simp] theorem State.modCtx_colls (s : State) (i : Nat) (f : Ctx → Ctx) : (s.modCtx i f).colls = s.colls := rfl
@[simp] theorem State.modCtx_endpoints (s : State) (i : Nat) (f : Ctx → Ctx) : (s.modCtx i f).endpoints = s.endpoints := rfl
@[simp] theorem State.modCtx_linkKeys (s : State) (i : Nat) (f : Ctx → Ctx) : (s.modCtx i f).linkKeys = s.linkKeys := rfl
@[simp] theorem State.modCtx_sessions (s : State) (i : Nat) (f : Ctx → Ctx) : (s.modCtx i f).sessions = s.sessions := rfl
@[simp] theorem State.modCtx_admitted (s : State) (i : Nat) (f : Ctx → Ctx) : (s.modCtx i f).admitted = s.admitted := rfl
@[simp] theorem State.modCtx_tlbWait (s : State) (i : Nat) (f : Ctx → Ctx) : (s.modCtx i f).tlbWait = s.tlbWait := rfl
@[simp] theorem State.modCtx_ctxWait (s : State) (i : Nat) (f : Ctx → Ctx) : (s.modCtx i f).ctxWait = s.ctxWait := rfl
@[simp] theorem State.modCtx_cmds (s : State) (i : Nat) (f : Ctx → Ctx) : (s.modCtx i f).cmds = s.cmds := rfl
@[simp] theorem State.modCtx_logs (s : State) (i : Nat) (f : Ctx → Ctx) : (s.modCtx i f).logs = s.logs := rfl
@[simp] theorem State.modCtx_snap (s : State) (i : Nat) (f : Ctx → Ctx) : (s.modCtx i f).snap = s.snap := rfl
@[simp] theorem State.modCtx_rot (s : State) (i : Nat) (f : Ctx → Ctx) : (s.modCtx i f).rot = s.rot := rfl

@[simp] theorem State.freshFree_agenda (s : State) : (s.freshFree.1).agenda = s.agenda := rfl
@[simp] theorem State.freshFree_focus (s : State) : (s.freshFree.1).focus = s.focus := rfl
@[simp] theorem State.freshFree_free (s : State) : (s.freshFree.1).free = s.free + 1 := rfl
@[simp] theorem State.freshFree_opSeq (s : State) : (s.freshFree.1).opSeq = s.opSeq := rfl
@[simp] theorem State.freshFree_outbox (s : State) : (s.freshFree.1).outbox = s.outbox := rfl
@[simp] theorem State.freshFree_clk (s : State) : (s.freshFree.1).clk = s.clk := rfl
@[simp] theorem State.freshFree_devnum (s : State) : (s.freshFree.1).devnum = s.devnum := rfl
@[simp] theorem State.freshFree_podsize (s : State) : (s.freshFree.1).podsize = s.podsize := rfl
@[simp] theorem State.freshFree_gzgen (s : State) : (s.freshFree.1).gzgen = s.gzgen := rfl
@[simp] theorem State.freshFree_gzcla (s : State) : (s.freshFree.1).gzcla = s.gzcla := rfl
@[simp] theorem State.freshFree_gzcore (s : State) : (s.freshFree.1).gzcore = s.gzcore := rfl
@[simp] theorem State.freshFree_gzslice (s : State) : (s.freshFree.1).gzslice = s.gzslice := rfl
@[simp] theorem State.freshFree_powerLimit (s : State) : (s.freshFree.1).powerLimit = s.powerLimit := rfl
@[simp] theorem State.freshFree_power (s : State) : (s.freshFree.1).power = s.power := rfl
@[simp] theorem State.freshFree_ualLanes (s : State) : (s.freshFree.1).ualLanes = s.ualLanes := rfl
@[simp] theorem State.freshFree_ualPeers (s : State) : (s.freshFree.1).ualPeers = s.ualPeers := rfl
@[simp] theorem State.freshFree_ueLanes (s : State) : (s.freshFree.1).ueLanes = s.ueLanes := rfl
@[simp] theorem State.freshFree_hostUp (s : State) : (s.freshFree.1).hostUp = s.hostUp := rfl
@[simp] theorem State.freshFree_d2dUp (s : State) : (s.freshFree.1).d2dUp = s.d2dUp := rfl
@[simp] theorem State.freshFree_crcFails (s : State) : (s.freshFree.1).crcFails = s.crcFails := rfl
@[simp] theorem State.freshFree_mem (s : State) : (s.freshFree.1).mem = s.mem := rfl
@[simp] theorem State.freshFree_keyGen (s : State) : (s.freshFree.1).keyGen = s.keyGen := rfl
@[simp] theorem State.freshFree_tlbs (s : State) : (s.freshFree.1).tlbs = s.tlbs := rfl
@[simp] theorem State.freshFree_walks (s : State) : (s.freshFree.1).walks = s.walks := rfl
@[simp] theorem State.freshFree_l1s (s : State) : (s.freshFree.1).l1s = s.l1s := rfl
@[simp] theorem State.freshFree_victims (s : State) : (s.freshFree.1).victims = s.victims := rfl
@[simp] theorem State.freshFree_lastIssue (s : State) : (s.freshFree.1).lastIssue = s.lastIssue := rfl
@[simp] theorem State.freshFree_lost (s : State) : (s.freshFree.1).lost = s.lost := rfl
@[simp] theorem State.freshFree_loadLim (s : State) : (s.freshFree.1).loadLim = s.loadLim := rfl
@[simp] theorem State.freshFree_ranges (s : State) : (s.freshFree.1).ranges = s.ranges := rfl
@[simp] theorem State.freshFree_spills (s : State) : (s.freshFree.1).spills = s.spills := rfl
@[simp] theorem State.freshFree_freezes (s : State) : (s.freshFree.1).freezes = s.freezes := rfl
@[simp] theorem State.freshFree_heaps (s : State) : (s.freshFree.1).heaps = s.heaps := rfl
@[simp] theorem State.freshFree_thawNext (s : State) : (s.freshFree.1).thawNext = s.thawNext := rfl
@[simp] theorem State.freshFree_thawOpen (s : State) : (s.freshFree.1).thawOpen = s.thawOpen := rfl
@[simp] theorem State.freshFree_thawDone (s : State) : (s.freshFree.1).thawDone = s.thawDone := rfl
@[simp] theorem State.freshFree_net (s : State) : (s.freshFree.1).net = s.net := rfl
@[simp] theorem State.freshFree_acks (s : State) : (s.freshFree.1).acks = s.acks := rfl
@[simp] theorem State.freshFree_peerReqs (s : State) : (s.freshFree.1).peerReqs = s.peerReqs := rfl
@[simp] theorem State.freshFree_hostReqs (s : State) : (s.freshFree.1).hostReqs = s.hostReqs := rfl
@[simp] theorem State.freshFree_atomHist (s : State) : (s.freshFree.1).atomHist = s.atomHist := rfl
@[simp] theorem State.freshFree_crews (s : State) : (s.freshFree.1).crews = s.crews := rfl
@[simp] theorem State.freshFree_fenceShots (s : State) : (s.freshFree.1).fenceShots = s.fenceShots := rfl
@[simp] theorem State.freshFree_teams (s : State) : (s.freshFree.1).teams = s.teams := rfl
@[simp] theorem State.freshFree_deques (s : State) : (s.freshFree.1).deques = s.deques := rfl
@[simp] theorem State.freshFree_queues (s : State) : (s.freshFree.1).queues = s.queues := rfl
@[simp] theorem State.freshFree_launches (s : State) : (s.freshFree.1).launches = s.launches := rfl
@[simp] theorem State.freshFree_rr (s : State) : (s.freshFree.1).rr = s.rr := rfl
@[simp] theorem State.freshFree_pools (s : State) : (s.freshFree.1).pools = s.pools := rfl
@[simp] theorem State.freshFree_nodes (s : State) : (s.freshFree.1).nodes = s.nodes := rfl
@[simp] theorem State.freshFree_sealedQ (s : State) : (s.freshFree.1).sealedQ = s.sealedQ := rfl
@[simp] theorem State.freshFree_chains (s : State) : (s.freshFree.1).chains = s.chains := rfl
@[simp] theorem State.freshFree_clusters (s : State) : (s.freshFree.1).clusters = s.clusters := rfl
@[simp] theorem State.freshFree_ctxs (s : State) : (s.freshFree.1).ctxs = s.ctxs := rfl
@[simp] theorem State.freshFree_colls (s : State) : (s.freshFree.1).colls = s.colls := rfl
@[simp] theorem State.freshFree_endpoints (s : State) : (s.freshFree.1).endpoints = s.endpoints := rfl
@[simp] theorem State.freshFree_linkKeys (s : State) : (s.freshFree.1).linkKeys = s.linkKeys := rfl
@[simp] theorem State.freshFree_sessions (s : State) : (s.freshFree.1).sessions = s.sessions := rfl
@[simp] theorem State.freshFree_admitted (s : State) : (s.freshFree.1).admitted = s.admitted := rfl
@[simp] theorem State.freshFree_tlbWait (s : State) : (s.freshFree.1).tlbWait = s.tlbWait := rfl
@[simp] theorem State.freshFree_ctxWait (s : State) : (s.freshFree.1).ctxWait = s.ctxWait := rfl
@[simp] theorem State.freshFree_cmds (s : State) : (s.freshFree.1).cmds = s.cmds := rfl
@[simp] theorem State.freshFree_logs (s : State) : (s.freshFree.1).logs = s.logs := rfl
@[simp] theorem State.freshFree_snap (s : State) : (s.freshFree.1).snap = s.snap := rfl
@[simp] theorem State.freshFree_rot (s : State) : (s.freshFree.1).rot = s.rot := rfl

@[simp] theorem Crew.writeReg_core (c : Crew) (n : Nat) (act : Lanes) (sh : Shape) (p : Lanes) : (c.writeReg n act sh p).core = c.core := rfl
@[simp] theorem Crew.writeReg_crewid (c : Crew) (n : Nat) (act : Lanes) (sh : Shape) (p : Lanes) : (c.writeReg n act sh p).crewid = c.crewid := rfl
@[simp] theorem Crew.writeReg_ctx (c : Crew) (n : Nat) (act : Lanes) (sh : Shape) (p : Lanes) : (c.writeReg n act sh p).ctx = c.ctx := rfl
@[simp] theorem Crew.writeReg_w (c : Crew) (n : Nat) (act : Lanes) (sh : Shape) (p : Lanes) : (c.writeReg n act sh p).w = c.w := rfl
@[simp] theorem Crew.writeReg_nregs (c : Crew) (n : Nat) (act : Lanes) (sh : Shape) (p : Lanes) : (c.writeReg n act sh p).nregs = c.nregs := rfl
@[simp] theorem Crew.writeReg_surv (c : Crew) (n : Nat) (act : Lanes) (sh : Shape) (p : Lanes) : (c.writeReg n act sh p).surv = c.surv := rfl
@[simp] theorem Crew.writeReg_entry (c : Crew) (n : Nat) (act : Lanes) (sh : Shape) (p : Lanes) : (c.writeReg n act sh p).entry = c.entry := rfl
@[simp] theorem Crew.writeReg_launched (c : Crew) (n : Nat) (act : Lanes) (sh : Shape) (p : Lanes) : (c.writeReg n act sh p).launched = c.launched := rfl
@[simp] theorem Crew.writeReg_exited (c : Crew) (n : Nat) (act : Lanes) (sh : Shape) (p : Lanes) : (c.writeReg n act sh p).exited = c.exited := rfl
@[simp] theorem Crew.writeReg_regs (c : Crew) (n : Nat) (act : Lanes) (sh : Shape) (p : Lanes) : (c.writeReg n act sh p).regs = putReg c.regs n (writeShape c.w (mget c.regs n) c.live act sh p) := rfl
@[simp] theorem Crew.writeReg_preds (c : Crew) (n : Nat) (act : Lanes) (sh : Shape) (p : Lanes) : (c.writeReg n act sh p).preds = c.preds := rfl
@[simp] theorem Crew.writeReg_ix (c : Crew) (n : Nat) (act : Lanes) (sh : Shape) (p : Lanes) : (c.writeReg n act sh p).ix = c.ix := rfl
@[simp] theorem Crew.writeReg_latches (c : Crew) (n : Nat) (act : Lanes) (sh : Shape) (p : Lanes) : (c.writeReg n act sh p).latches = c.latches := rfl
@[simp] theorem Crew.writeReg_oc (c : Crew) (n : Nat) (act : Lanes) (sh : Shape) (p : Lanes) : (c.writeReg n act sh p).oc = c.oc := rfl
@[simp] theorem Crew.writeReg_xdist (c : Crew) (n : Nat) (act : Lanes) (sh : Shape) (p : Lanes) : (c.writeReg n act sh p).xdist = c.xdist := rfl
@[simp] theorem Crew.writeReg_xsel (c : Crew) (n : Nat) (act : Lanes) (sh : Shape) (p : Lanes) : (c.writeReg n act sh p).xsel = c.xsel := rfl
@[simp] theorem Crew.writeReg_fpctl (c : Crew) (n : Nat) (act : Lanes) (sh : Shape) (p : Lanes) : (c.writeReg n act sh p).fpctl = c.fpctl := rfl
@[simp] theorem Crew.writeReg_fpflags (c : Crew) (n : Nat) (act : Lanes) (sh : Shape) (p : Lanes) : (c.writeReg n act sh p).fpflags = c.fpflags := rfl
@[simp] theorem Crew.writeReg_hcount (c : Crew) (n : Nat) (act : Lanes) (sh : Shape) (p : Lanes) : (c.writeReg n act sh p).hcount = c.hcount := rfl
@[simp] theorem Crew.writeReg_origin (c : Crew) (n : Nat) (act : Lanes) (sh : Shape) (p : Lanes) : (c.writeReg n act sh p).origin = c.origin := rfl
@[simp] theorem Crew.writeReg_teamid (c : Crew) (n : Nat) (act : Lanes) (sh : Shape) (p : Lanes) : (c.writeReg n act sh p).teamid = c.teamid := rfl
@[simp] theorem Crew.writeReg_teampos (c : Crew) (n : Nat) (act : Lanes) (sh : Shape) (p : Lanes) : (c.writeReg n act sh p).teampos = c.teampos := rfl
@[simp] theorem Crew.writeReg_grid (c : Crew) (n : Nat) (act : Lanes) (sh : Shape) (p : Lanes) : (c.writeReg n act sh p).grid = c.grid := rfl
@[simp] theorem Crew.writeReg_team (c : Crew) (n : Nat) (act : Lanes) (sh : Shape) (p : Lanes) : (c.writeReg n act sh p).team = c.team := rfl
@[simp] theorem Crew.writeReg_dre (c : Crew) (n : Nat) (act : Lanes) (sh : Shape) (p : Lanes) : (c.writeReg n act sh p).dre = c.dre := rfl
@[simp] theorem Crew.writeReg_yreq (c : Crew) (n : Nat) (act : Lanes) (sh : Shape) (p : Lanes) : (c.writeReg n act sh p).yreq = c.yreq := rfl
@[simp] theorem Crew.writeReg_frames (c : Crew) (n : Nat) (act : Lanes) (sh : Shape) (p : Lanes) : (c.writeReg n act sh p).frames = c.frames := rfl
@[simp] theorem Crew.writeReg_paths (c : Crew) (n : Nat) (act : Lanes) (sh : Shape) (p : Lanes) : (c.writeReg n act sh p).paths = c.paths := rfl
@[simp] theorem Crew.writeReg_lc (c : Crew) (n : Nat) (act : Lanes) (sh : Shape) (p : Lanes) : (c.writeReg n act sh p).lc = c.lc := rfl
@[simp] theorem Crew.writeReg_cnts (c : Crew) (n : Nat) (act : Lanes) (sh : Shape) (p : Lanes) : (c.writeReg n act sh p).cnts = c.cnts := rfl
@[simp] theorem Crew.writeReg_cnts2 (c : Crew) (n : Nat) (act : Lanes) (sh : Shape) (p : Lanes) : (c.writeReg n act sh p).cnts2 = c.cnts2 := rfl
@[simp] theorem Crew.writeReg_sq (c : Crew) (n : Nat) (act : Lanes) (sh : Shape) (p : Lanes) : (c.writeReg n act sh p).sq = c.sq := rfl
@[simp] theorem Crew.writeReg_loads (c : Crew) (n : Nat) (act : Lanes) (sh : Shape) (p : Lanes) : (c.writeReg n act sh p).loads = c.loads := rfl
@[simp] theorem Crew.writeReg_pends (c : Crew) (n : Nat) (act : Lanes) (sh : Shape) (p : Lanes) : (c.writeReg n act sh p).pends = c.pends := rfl
@[simp] theorem Crew.writeReg_unacked (c : Crew) (n : Nat) (act : Lanes) (sh : Shape) (p : Lanes) : (c.writeReg n act sh p).unacked = c.unacked := rfl
@[simp] theorem Crew.writeReg_rwOps (c : Crew) (n : Nat) (act : Lanes) (sh : Shape) (p : Lanes) : (c.writeReg n act sh p).rwOps = c.rwOps := rfl
@[simp] theorem Crew.writeReg_hold (c : Crew) (n : Nat) (act : Lanes) (sh : Shape) (p : Lanes) : (c.writeReg n act sh p).hold = c.hold := rfl
@[simp] theorem Crew.writeReg_fence (c : Crew) (n : Nat) (act : Lanes) (sh : Shape) (p : Lanes) : (c.writeReg n act sh p).fence = c.fence := rfl
@[simp] theorem Crew.writeReg_wait (c : Crew) (n : Nat) (act : Lanes) (sh : Shape) (p : Lanes) : (c.writeReg n act sh p).wait = c.wait := rfl
@[simp] theorem Crew.writeReg_out (c : Crew) (n : Nat) (act : Lanes) (sh : Shape) (p : Lanes) : (c.writeReg n act sh p).out = c.out := rfl
@[simp] theorem Crew.writeReg_parent (c : Crew) (n : Nat) (act : Lanes) (sh : Shape) (p : Lanes) : (c.writeReg n act sh p).parent = c.parent := rfl
@[simp] theorem Crew.writeReg_recruit (c : Crew) (n : Nat) (act : Lanes) (sh : Shape) (p : Lanes) : (c.writeReg n act sh p).recruit = c.recruit := rfl
@[simp] theorem Crew.writeReg_hgroup (c : Crew) (n : Nat) (act : Lanes) (sh : Shape) (p : Lanes) : (c.writeReg n act sh p).hgroup = c.hgroup := rfl
@[simp] theorem Crew.writeReg_active (c : Crew) (n : Nat) (act : Lanes) (sh : Shape) (p : Lanes) : (c.writeReg n act sh p).active = c.active := rfl
@[simp] theorem Crew.writeReg_slotNo (c : Crew) (n : Nat) (act : Lanes) (sh : Shape) (p : Lanes) : (c.writeReg n act sh p).slotNo = c.slotNo := rfl
@[simp] theorem Crew.writeReg_issuedAt (c : Crew) (n : Nat) (act : Lanes) (sh : Shape) (p : Lanes) : (c.writeReg n act sh p).issuedAt = c.issuedAt := rfl
@[simp] theorem Crew.writeReg_readyAt (c : Crew) (n : Nat) (act : Lanes) (sh : Shape) (p : Lanes) : (c.writeReg n act sh p).readyAt = c.readyAt := rfl
@[simp] theorem Crew.writeReg_loadSet (c : Crew) (n : Nat) (act : Lanes) (sh : Shape) (p : Lanes) : (c.writeReg n act sh p).loadSet = c.loadSet := rfl
@[simp] theorem Crew.writeReg_loadSlots (c : Crew) (n : Nat) (act : Lanes) (sh : Shape) (p : Lanes) : (c.writeReg n act sh p).loadSlots = c.loadSlots := rfl
@[simp] theorem Crew.writeReg_loadHeld (c : Crew) (n : Nat) (act : Lanes) (sh : Shape) (p : Lanes) : (c.writeReg n act sh p).loadHeld = c.loadHeld := rfl
@[simp] theorem Crew.writeReg_evicted (c : Crew) (n : Nat) (act : Lanes) (sh : Shape) (p : Lanes) : (c.writeReg n act sh p).evicted = c.evicted := rfl
@[simp] theorem Crew.writeReg_kept (c : Crew) (n : Nat) (act : Lanes) (sh : Shape) (p : Lanes) : (c.writeReg n act sh p).kept = c.kept := rfl
@[simp] theorem Crew.writeReg_done (c : Crew) (n : Nat) (act : Lanes) (sh : Shape) (p : Lanes) : (c.writeReg n act sh p).done = c.done := rfl
@[simp] theorem Crew.writeReg_cause (c : Crew) (n : Nat) (act : Lanes) (sh : Shape) (p : Lanes) : (c.writeReg n act sh p).cause = c.cause := rfl
@[simp] theorem Crew.writeReg_frec (c : Crew) (n : Nat) (act : Lanes) (sh : Shape) (p : Lanes) : (c.writeReg n act sh p).frec = c.frec := rfl
@[simp] theorem Crew.writeReg_helperFault (c : Crew) (n : Nat) (act : Lanes) (sh : Shape) (p : Lanes) : (c.writeReg n act sh p).helperFault = c.helperFault := rfl
@[simp] theorem Crew.writeReg_accReads (c : Crew) (n : Nat) (act : Lanes) (sh : Shape) (p : Lanes) : (c.writeReg n act sh p).accReads = c.accReads := rfl
@[simp] theorem Crew.writeReg_fbuf (c : Crew) (n : Nat) (act : Lanes) (sh : Shape) (p : Lanes) : (c.writeReg n act sh p).fbuf = c.fbuf := rfl
@[simp] theorem Crew.writeReg_iword (c : Crew) (n : Nat) (act : Lanes) (sh : Shape) (p : Lanes) : (c.writeReg n act sh p).iword = c.iword := rfl

@[simp] theorem Crew.writeOc_core (c : Crew) (n : Nat) (act : Lanes) (sh : Shape) (p : Lanes) : (c.writeOc n act sh p).core = c.core := rfl
@[simp] theorem Crew.writeOc_crewid (c : Crew) (n : Nat) (act : Lanes) (sh : Shape) (p : Lanes) : (c.writeOc n act sh p).crewid = c.crewid := rfl
@[simp] theorem Crew.writeOc_ctx (c : Crew) (n : Nat) (act : Lanes) (sh : Shape) (p : Lanes) : (c.writeOc n act sh p).ctx = c.ctx := rfl
@[simp] theorem Crew.writeOc_w (c : Crew) (n : Nat) (act : Lanes) (sh : Shape) (p : Lanes) : (c.writeOc n act sh p).w = c.w := rfl
@[simp] theorem Crew.writeOc_nregs (c : Crew) (n : Nat) (act : Lanes) (sh : Shape) (p : Lanes) : (c.writeOc n act sh p).nregs = c.nregs := rfl
@[simp] theorem Crew.writeOc_surv (c : Crew) (n : Nat) (act : Lanes) (sh : Shape) (p : Lanes) : (c.writeOc n act sh p).surv = c.surv := rfl
@[simp] theorem Crew.writeOc_entry (c : Crew) (n : Nat) (act : Lanes) (sh : Shape) (p : Lanes) : (c.writeOc n act sh p).entry = c.entry := rfl
@[simp] theorem Crew.writeOc_launched (c : Crew) (n : Nat) (act : Lanes) (sh : Shape) (p : Lanes) : (c.writeOc n act sh p).launched = c.launched := rfl
@[simp] theorem Crew.writeOc_exited (c : Crew) (n : Nat) (act : Lanes) (sh : Shape) (p : Lanes) : (c.writeOc n act sh p).exited = c.exited := rfl
@[simp] theorem Crew.writeOc_regs (c : Crew) (n : Nat) (act : Lanes) (sh : Shape) (p : Lanes) : (c.writeOc n act sh p).regs = c.regs := rfl
@[simp] theorem Crew.writeOc_preds (c : Crew) (n : Nat) (act : Lanes) (sh : Shape) (p : Lanes) : (c.writeOc n act sh p).preds = c.preds := rfl
@[simp] theorem Crew.writeOc_ix (c : Crew) (n : Nat) (act : Lanes) (sh : Shape) (p : Lanes) : (c.writeOc n act sh p).ix = c.ix := rfl
@[simp] theorem Crew.writeOc_latches (c : Crew) (n : Nat) (act : Lanes) (sh : Shape) (p : Lanes) : (c.writeOc n act sh p).latches = c.latches := rfl
@[simp] theorem Crew.writeOc_oc (c : Crew) (n : Nat) (act : Lanes) (sh : Shape) (p : Lanes) : (c.writeOc n act sh p).oc = putReg c.oc n (writeShape c.w (mget c.oc n) c.live act sh p) := rfl
@[simp] theorem Crew.writeOc_xdist (c : Crew) (n : Nat) (act : Lanes) (sh : Shape) (p : Lanes) : (c.writeOc n act sh p).xdist = c.xdist := rfl
@[simp] theorem Crew.writeOc_xsel (c : Crew) (n : Nat) (act : Lanes) (sh : Shape) (p : Lanes) : (c.writeOc n act sh p).xsel = c.xsel := rfl
@[simp] theorem Crew.writeOc_fpctl (c : Crew) (n : Nat) (act : Lanes) (sh : Shape) (p : Lanes) : (c.writeOc n act sh p).fpctl = c.fpctl := rfl
@[simp] theorem Crew.writeOc_fpflags (c : Crew) (n : Nat) (act : Lanes) (sh : Shape) (p : Lanes) : (c.writeOc n act sh p).fpflags = c.fpflags := rfl
@[simp] theorem Crew.writeOc_hcount (c : Crew) (n : Nat) (act : Lanes) (sh : Shape) (p : Lanes) : (c.writeOc n act sh p).hcount = c.hcount := rfl
@[simp] theorem Crew.writeOc_origin (c : Crew) (n : Nat) (act : Lanes) (sh : Shape) (p : Lanes) : (c.writeOc n act sh p).origin = c.origin := rfl
@[simp] theorem Crew.writeOc_teamid (c : Crew) (n : Nat) (act : Lanes) (sh : Shape) (p : Lanes) : (c.writeOc n act sh p).teamid = c.teamid := rfl
@[simp] theorem Crew.writeOc_teampos (c : Crew) (n : Nat) (act : Lanes) (sh : Shape) (p : Lanes) : (c.writeOc n act sh p).teampos = c.teampos := rfl
@[simp] theorem Crew.writeOc_grid (c : Crew) (n : Nat) (act : Lanes) (sh : Shape) (p : Lanes) : (c.writeOc n act sh p).grid = c.grid := rfl
@[simp] theorem Crew.writeOc_team (c : Crew) (n : Nat) (act : Lanes) (sh : Shape) (p : Lanes) : (c.writeOc n act sh p).team = c.team := rfl
@[simp] theorem Crew.writeOc_dre (c : Crew) (n : Nat) (act : Lanes) (sh : Shape) (p : Lanes) : (c.writeOc n act sh p).dre = c.dre := rfl
@[simp] theorem Crew.writeOc_yreq (c : Crew) (n : Nat) (act : Lanes) (sh : Shape) (p : Lanes) : (c.writeOc n act sh p).yreq = c.yreq := rfl
@[simp] theorem Crew.writeOc_frames (c : Crew) (n : Nat) (act : Lanes) (sh : Shape) (p : Lanes) : (c.writeOc n act sh p).frames = c.frames := rfl
@[simp] theorem Crew.writeOc_paths (c : Crew) (n : Nat) (act : Lanes) (sh : Shape) (p : Lanes) : (c.writeOc n act sh p).paths = c.paths := rfl
@[simp] theorem Crew.writeOc_lc (c : Crew) (n : Nat) (act : Lanes) (sh : Shape) (p : Lanes) : (c.writeOc n act sh p).lc = c.lc := rfl
@[simp] theorem Crew.writeOc_cnts (c : Crew) (n : Nat) (act : Lanes) (sh : Shape) (p : Lanes) : (c.writeOc n act sh p).cnts = c.cnts := rfl
@[simp] theorem Crew.writeOc_cnts2 (c : Crew) (n : Nat) (act : Lanes) (sh : Shape) (p : Lanes) : (c.writeOc n act sh p).cnts2 = c.cnts2 := rfl
@[simp] theorem Crew.writeOc_sq (c : Crew) (n : Nat) (act : Lanes) (sh : Shape) (p : Lanes) : (c.writeOc n act sh p).sq = c.sq := rfl
@[simp] theorem Crew.writeOc_loads (c : Crew) (n : Nat) (act : Lanes) (sh : Shape) (p : Lanes) : (c.writeOc n act sh p).loads = c.loads := rfl
@[simp] theorem Crew.writeOc_pends (c : Crew) (n : Nat) (act : Lanes) (sh : Shape) (p : Lanes) : (c.writeOc n act sh p).pends = c.pends := rfl
@[simp] theorem Crew.writeOc_unacked (c : Crew) (n : Nat) (act : Lanes) (sh : Shape) (p : Lanes) : (c.writeOc n act sh p).unacked = c.unacked := rfl
@[simp] theorem Crew.writeOc_rwOps (c : Crew) (n : Nat) (act : Lanes) (sh : Shape) (p : Lanes) : (c.writeOc n act sh p).rwOps = c.rwOps := rfl
@[simp] theorem Crew.writeOc_hold (c : Crew) (n : Nat) (act : Lanes) (sh : Shape) (p : Lanes) : (c.writeOc n act sh p).hold = c.hold := rfl
@[simp] theorem Crew.writeOc_fence (c : Crew) (n : Nat) (act : Lanes) (sh : Shape) (p : Lanes) : (c.writeOc n act sh p).fence = c.fence := rfl
@[simp] theorem Crew.writeOc_wait (c : Crew) (n : Nat) (act : Lanes) (sh : Shape) (p : Lanes) : (c.writeOc n act sh p).wait = c.wait := rfl
@[simp] theorem Crew.writeOc_out (c : Crew) (n : Nat) (act : Lanes) (sh : Shape) (p : Lanes) : (c.writeOc n act sh p).out = c.out := rfl
@[simp] theorem Crew.writeOc_parent (c : Crew) (n : Nat) (act : Lanes) (sh : Shape) (p : Lanes) : (c.writeOc n act sh p).parent = c.parent := rfl
@[simp] theorem Crew.writeOc_recruit (c : Crew) (n : Nat) (act : Lanes) (sh : Shape) (p : Lanes) : (c.writeOc n act sh p).recruit = c.recruit := rfl
@[simp] theorem Crew.writeOc_hgroup (c : Crew) (n : Nat) (act : Lanes) (sh : Shape) (p : Lanes) : (c.writeOc n act sh p).hgroup = c.hgroup := rfl
@[simp] theorem Crew.writeOc_active (c : Crew) (n : Nat) (act : Lanes) (sh : Shape) (p : Lanes) : (c.writeOc n act sh p).active = c.active := rfl
@[simp] theorem Crew.writeOc_slotNo (c : Crew) (n : Nat) (act : Lanes) (sh : Shape) (p : Lanes) : (c.writeOc n act sh p).slotNo = c.slotNo := rfl
@[simp] theorem Crew.writeOc_issuedAt (c : Crew) (n : Nat) (act : Lanes) (sh : Shape) (p : Lanes) : (c.writeOc n act sh p).issuedAt = c.issuedAt := rfl
@[simp] theorem Crew.writeOc_readyAt (c : Crew) (n : Nat) (act : Lanes) (sh : Shape) (p : Lanes) : (c.writeOc n act sh p).readyAt = c.readyAt := rfl
@[simp] theorem Crew.writeOc_loadSet (c : Crew) (n : Nat) (act : Lanes) (sh : Shape) (p : Lanes) : (c.writeOc n act sh p).loadSet = c.loadSet := rfl
@[simp] theorem Crew.writeOc_loadSlots (c : Crew) (n : Nat) (act : Lanes) (sh : Shape) (p : Lanes) : (c.writeOc n act sh p).loadSlots = c.loadSlots := rfl
@[simp] theorem Crew.writeOc_loadHeld (c : Crew) (n : Nat) (act : Lanes) (sh : Shape) (p : Lanes) : (c.writeOc n act sh p).loadHeld = c.loadHeld := rfl
@[simp] theorem Crew.writeOc_evicted (c : Crew) (n : Nat) (act : Lanes) (sh : Shape) (p : Lanes) : (c.writeOc n act sh p).evicted = c.evicted := rfl
@[simp] theorem Crew.writeOc_kept (c : Crew) (n : Nat) (act : Lanes) (sh : Shape) (p : Lanes) : (c.writeOc n act sh p).kept = c.kept := rfl
@[simp] theorem Crew.writeOc_done (c : Crew) (n : Nat) (act : Lanes) (sh : Shape) (p : Lanes) : (c.writeOc n act sh p).done = c.done := rfl
@[simp] theorem Crew.writeOc_cause (c : Crew) (n : Nat) (act : Lanes) (sh : Shape) (p : Lanes) : (c.writeOc n act sh p).cause = c.cause := rfl
@[simp] theorem Crew.writeOc_frec (c : Crew) (n : Nat) (act : Lanes) (sh : Shape) (p : Lanes) : (c.writeOc n act sh p).frec = c.frec := rfl
@[simp] theorem Crew.writeOc_helperFault (c : Crew) (n : Nat) (act : Lanes) (sh : Shape) (p : Lanes) : (c.writeOc n act sh p).helperFault = c.helperFault := rfl
@[simp] theorem Crew.writeOc_accReads (c : Crew) (n : Nat) (act : Lanes) (sh : Shape) (p : Lanes) : (c.writeOc n act sh p).accReads = c.accReads := rfl
@[simp] theorem Crew.writeOc_fbuf (c : Crew) (n : Nat) (act : Lanes) (sh : Shape) (p : Lanes) : (c.writeOc n act sh p).fbuf = c.fbuf := rfl
@[simp] theorem Crew.writeOc_iword (c : Crew) (n : Nat) (act : Lanes) (sh : Shape) (p : Lanes) : (c.writeOc n act sh p).iword = c.iword := rfl

@[simp] theorem Crew.writePred_core (c : Crew) (n : Nat) (act v : Lanes) : (c.writePred n act v).core = c.core := rfl
@[simp] theorem Crew.writePred_crewid (c : Crew) (n : Nat) (act v : Lanes) : (c.writePred n act v).crewid = c.crewid := rfl
@[simp] theorem Crew.writePred_ctx (c : Crew) (n : Nat) (act v : Lanes) : (c.writePred n act v).ctx = c.ctx := rfl
@[simp] theorem Crew.writePred_w (c : Crew) (n : Nat) (act v : Lanes) : (c.writePred n act v).w = c.w := rfl
@[simp] theorem Crew.writePred_nregs (c : Crew) (n : Nat) (act v : Lanes) : (c.writePred n act v).nregs = c.nregs := rfl
@[simp] theorem Crew.writePred_surv (c : Crew) (n : Nat) (act v : Lanes) : (c.writePred n act v).surv = c.surv := rfl
@[simp] theorem Crew.writePred_entry (c : Crew) (n : Nat) (act v : Lanes) : (c.writePred n act v).entry = c.entry := rfl
@[simp] theorem Crew.writePred_launched (c : Crew) (n : Nat) (act v : Lanes) : (c.writePred n act v).launched = c.launched := rfl
@[simp] theorem Crew.writePred_exited (c : Crew) (n : Nat) (act v : Lanes) : (c.writePred n act v).exited = c.exited := rfl
@[simp] theorem Crew.writePred_regs (c : Crew) (n : Nat) (act v : Lanes) : (c.writePred n act v).regs = c.regs := rfl
@[simp] theorem Crew.writePred_preds (c : Crew) (n : Nat) (act v : Lanes) : (c.writePred n act v).preds = mput c.preds n ((c.pred n &&& ~~~act) ||| (v &&& act)) := rfl
@[simp] theorem Crew.writePred_ix (c : Crew) (n : Nat) (act v : Lanes) : (c.writePred n act v).ix = c.ix := rfl
@[simp] theorem Crew.writePred_latches (c : Crew) (n : Nat) (act v : Lanes) : (c.writePred n act v).latches = c.latches := rfl
@[simp] theorem Crew.writePred_oc (c : Crew) (n : Nat) (act v : Lanes) : (c.writePred n act v).oc = c.oc := rfl
@[simp] theorem Crew.writePred_xdist (c : Crew) (n : Nat) (act v : Lanes) : (c.writePred n act v).xdist = c.xdist := rfl
@[simp] theorem Crew.writePred_xsel (c : Crew) (n : Nat) (act v : Lanes) : (c.writePred n act v).xsel = c.xsel := rfl
@[simp] theorem Crew.writePred_fpctl (c : Crew) (n : Nat) (act v : Lanes) : (c.writePred n act v).fpctl = c.fpctl := rfl
@[simp] theorem Crew.writePred_fpflags (c : Crew) (n : Nat) (act v : Lanes) : (c.writePred n act v).fpflags = c.fpflags := rfl
@[simp] theorem Crew.writePred_hcount (c : Crew) (n : Nat) (act v : Lanes) : (c.writePred n act v).hcount = c.hcount := rfl
@[simp] theorem Crew.writePred_origin (c : Crew) (n : Nat) (act v : Lanes) : (c.writePred n act v).origin = c.origin := rfl
@[simp] theorem Crew.writePred_teamid (c : Crew) (n : Nat) (act v : Lanes) : (c.writePred n act v).teamid = c.teamid := rfl
@[simp] theorem Crew.writePred_teampos (c : Crew) (n : Nat) (act v : Lanes) : (c.writePred n act v).teampos = c.teampos := rfl
@[simp] theorem Crew.writePred_grid (c : Crew) (n : Nat) (act v : Lanes) : (c.writePred n act v).grid = c.grid := rfl
@[simp] theorem Crew.writePred_team (c : Crew) (n : Nat) (act v : Lanes) : (c.writePred n act v).team = c.team := rfl
@[simp] theorem Crew.writePred_dre (c : Crew) (n : Nat) (act v : Lanes) : (c.writePred n act v).dre = c.dre := rfl
@[simp] theorem Crew.writePred_yreq (c : Crew) (n : Nat) (act v : Lanes) : (c.writePred n act v).yreq = c.yreq := rfl
@[simp] theorem Crew.writePred_frames (c : Crew) (n : Nat) (act v : Lanes) : (c.writePred n act v).frames = c.frames := rfl
@[simp] theorem Crew.writePred_paths (c : Crew) (n : Nat) (act v : Lanes) : (c.writePred n act v).paths = c.paths := rfl
@[simp] theorem Crew.writePred_lc (c : Crew) (n : Nat) (act v : Lanes) : (c.writePred n act v).lc = c.lc := rfl
@[simp] theorem Crew.writePred_cnts (c : Crew) (n : Nat) (act v : Lanes) : (c.writePred n act v).cnts = c.cnts := rfl
@[simp] theorem Crew.writePred_cnts2 (c : Crew) (n : Nat) (act v : Lanes) : (c.writePred n act v).cnts2 = c.cnts2 := rfl
@[simp] theorem Crew.writePred_sq (c : Crew) (n : Nat) (act v : Lanes) : (c.writePred n act v).sq = c.sq := rfl
@[simp] theorem Crew.writePred_loads (c : Crew) (n : Nat) (act v : Lanes) : (c.writePred n act v).loads = c.loads := rfl
@[simp] theorem Crew.writePred_pends (c : Crew) (n : Nat) (act v : Lanes) : (c.writePred n act v).pends = c.pends := rfl
@[simp] theorem Crew.writePred_unacked (c : Crew) (n : Nat) (act v : Lanes) : (c.writePred n act v).unacked = c.unacked := rfl
@[simp] theorem Crew.writePred_rwOps (c : Crew) (n : Nat) (act v : Lanes) : (c.writePred n act v).rwOps = c.rwOps := rfl
@[simp] theorem Crew.writePred_hold (c : Crew) (n : Nat) (act v : Lanes) : (c.writePred n act v).hold = c.hold := rfl
@[simp] theorem Crew.writePred_fence (c : Crew) (n : Nat) (act v : Lanes) : (c.writePred n act v).fence = c.fence := rfl
@[simp] theorem Crew.writePred_wait (c : Crew) (n : Nat) (act v : Lanes) : (c.writePred n act v).wait = c.wait := rfl
@[simp] theorem Crew.writePred_out (c : Crew) (n : Nat) (act v : Lanes) : (c.writePred n act v).out = c.out := rfl
@[simp] theorem Crew.writePred_parent (c : Crew) (n : Nat) (act v : Lanes) : (c.writePred n act v).parent = c.parent := rfl
@[simp] theorem Crew.writePred_recruit (c : Crew) (n : Nat) (act v : Lanes) : (c.writePred n act v).recruit = c.recruit := rfl
@[simp] theorem Crew.writePred_hgroup (c : Crew) (n : Nat) (act v : Lanes) : (c.writePred n act v).hgroup = c.hgroup := rfl
@[simp] theorem Crew.writePred_active (c : Crew) (n : Nat) (act v : Lanes) : (c.writePred n act v).active = c.active := rfl
@[simp] theorem Crew.writePred_slotNo (c : Crew) (n : Nat) (act v : Lanes) : (c.writePred n act v).slotNo = c.slotNo := rfl
@[simp] theorem Crew.writePred_issuedAt (c : Crew) (n : Nat) (act v : Lanes) : (c.writePred n act v).issuedAt = c.issuedAt := rfl
@[simp] theorem Crew.writePred_readyAt (c : Crew) (n : Nat) (act v : Lanes) : (c.writePred n act v).readyAt = c.readyAt := rfl
@[simp] theorem Crew.writePred_loadSet (c : Crew) (n : Nat) (act v : Lanes) : (c.writePred n act v).loadSet = c.loadSet := rfl
@[simp] theorem Crew.writePred_loadSlots (c : Crew) (n : Nat) (act v : Lanes) : (c.writePred n act v).loadSlots = c.loadSlots := rfl
@[simp] theorem Crew.writePred_loadHeld (c : Crew) (n : Nat) (act v : Lanes) : (c.writePred n act v).loadHeld = c.loadHeld := rfl
@[simp] theorem Crew.writePred_evicted (c : Crew) (n : Nat) (act v : Lanes) : (c.writePred n act v).evicted = c.evicted := rfl
@[simp] theorem Crew.writePred_kept (c : Crew) (n : Nat) (act v : Lanes) : (c.writePred n act v).kept = c.kept := rfl
@[simp] theorem Crew.writePred_done (c : Crew) (n : Nat) (act v : Lanes) : (c.writePred n act v).done = c.done := rfl
@[simp] theorem Crew.writePred_cause (c : Crew) (n : Nat) (act v : Lanes) : (c.writePred n act v).cause = c.cause := rfl
@[simp] theorem Crew.writePred_frec (c : Crew) (n : Nat) (act v : Lanes) : (c.writePred n act v).frec = c.frec := rfl
@[simp] theorem Crew.writePred_helperFault (c : Crew) (n : Nat) (act v : Lanes) : (c.writePred n act v).helperFault = c.helperFault := rfl
@[simp] theorem Crew.writePred_accReads (c : Crew) (n : Nat) (act v : Lanes) : (c.writePred n act v).accReads = c.accReads := rfl
@[simp] theorem Crew.writePred_fbuf (c : Crew) (n : Nat) (act v : Lanes) : (c.writePred n act v).fbuf = c.fbuf := rfl
@[simp] theorem Crew.writePred_iword (c : Crew) (n : Nat) (act v : Lanes) : (c.writePred n act v).iword = c.iword := rfl

@[simp] theorem Crew.supersede_core (c : Crew) (d : Dst) (m : Lanes) : (c.supersede d m).core = c.core := rfl
@[simp] theorem Crew.supersede_crewid (c : Crew) (d : Dst) (m : Lanes) : (c.supersede d m).crewid = c.crewid := rfl
@[simp] theorem Crew.supersede_ctx (c : Crew) (d : Dst) (m : Lanes) : (c.supersede d m).ctx = c.ctx := rfl
@[simp] theorem Crew.supersede_w (c : Crew) (d : Dst) (m : Lanes) : (c.supersede d m).w = c.w := rfl
@[simp] theorem Crew.supersede_nregs (c : Crew) (d : Dst) (m : Lanes) : (c.supersede d m).nregs = c.nregs := rfl
@[simp] theorem Crew.supersede_surv (c : Crew) (d : Dst) (m : Lanes) : (c.supersede d m).surv = c.surv := rfl
@[simp] theorem Crew.supersede_entry (c : Crew) (d : Dst) (m : Lanes) : (c.supersede d m).entry = c.entry := rfl
@[simp] theorem Crew.supersede_launched (c : Crew) (d : Dst) (m : Lanes) : (c.supersede d m).launched = c.launched := rfl
@[simp] theorem Crew.supersede_exited (c : Crew) (d : Dst) (m : Lanes) : (c.supersede d m).exited = c.exited := rfl
@[simp] theorem Crew.supersede_regs (c : Crew) (d : Dst) (m : Lanes) : (c.supersede d m).regs = c.regs := rfl
@[simp] theorem Crew.supersede_preds (c : Crew) (d : Dst) (m : Lanes) : (c.supersede d m).preds = c.preds := rfl
@[simp] theorem Crew.supersede_ix (c : Crew) (d : Dst) (m : Lanes) : (c.supersede d m).ix = c.ix := rfl
@[simp] theorem Crew.supersede_latches (c : Crew) (d : Dst) (m : Lanes) : (c.supersede d m).latches = c.latches := rfl
@[simp] theorem Crew.supersede_oc (c : Crew) (d : Dst) (m : Lanes) : (c.supersede d m).oc = c.oc := rfl
@[simp] theorem Crew.supersede_xdist (c : Crew) (d : Dst) (m : Lanes) : (c.supersede d m).xdist = c.xdist := rfl
@[simp] theorem Crew.supersede_xsel (c : Crew) (d : Dst) (m : Lanes) : (c.supersede d m).xsel = c.xsel := rfl
@[simp] theorem Crew.supersede_fpctl (c : Crew) (d : Dst) (m : Lanes) : (c.supersede d m).fpctl = c.fpctl := rfl
@[simp] theorem Crew.supersede_fpflags (c : Crew) (d : Dst) (m : Lanes) : (c.supersede d m).fpflags = c.fpflags := rfl
@[simp] theorem Crew.supersede_hcount (c : Crew) (d : Dst) (m : Lanes) : (c.supersede d m).hcount = c.hcount := rfl
@[simp] theorem Crew.supersede_origin (c : Crew) (d : Dst) (m : Lanes) : (c.supersede d m).origin = c.origin := rfl
@[simp] theorem Crew.supersede_teamid (c : Crew) (d : Dst) (m : Lanes) : (c.supersede d m).teamid = c.teamid := rfl
@[simp] theorem Crew.supersede_teampos (c : Crew) (d : Dst) (m : Lanes) : (c.supersede d m).teampos = c.teampos := rfl
@[simp] theorem Crew.supersede_grid (c : Crew) (d : Dst) (m : Lanes) : (c.supersede d m).grid = c.grid := rfl
@[simp] theorem Crew.supersede_team (c : Crew) (d : Dst) (m : Lanes) : (c.supersede d m).team = c.team := rfl
@[simp] theorem Crew.supersede_dre (c : Crew) (d : Dst) (m : Lanes) : (c.supersede d m).dre = c.dre := rfl
@[simp] theorem Crew.supersede_yreq (c : Crew) (d : Dst) (m : Lanes) : (c.supersede d m).yreq = c.yreq := rfl
@[simp] theorem Crew.supersede_frames (c : Crew) (d : Dst) (m : Lanes) : (c.supersede d m).frames = c.frames := rfl
@[simp] theorem Crew.supersede_paths (c : Crew) (d : Dst) (m : Lanes) : (c.supersede d m).paths = c.paths := rfl
@[simp] theorem Crew.supersede_lc (c : Crew) (d : Dst) (m : Lanes) : (c.supersede d m).lc = c.lc := rfl
@[simp] theorem Crew.supersede_cnts (c : Crew) (d : Dst) (m : Lanes) : (c.supersede d m).cnts = c.cnts := rfl
@[simp] theorem Crew.supersede_cnts2 (c : Crew) (d : Dst) (m : Lanes) : (c.supersede d m).cnts2 = c.cnts2 := rfl
@[simp] theorem Crew.supersede_sq (c : Crew) (d : Dst) (m : Lanes) : (c.supersede d m).sq = c.sq := rfl
@[simp] theorem Crew.supersede_loads (c : Crew) (d : Dst) (m : Lanes) : (c.supersede d m).loads = c.loads := rfl
@[simp] theorem Crew.supersede_unacked (c : Crew) (d : Dst) (m : Lanes) : (c.supersede d m).unacked = c.unacked := rfl
@[simp] theorem Crew.supersede_rwOps (c : Crew) (d : Dst) (m : Lanes) : (c.supersede d m).rwOps = c.rwOps := rfl
@[simp] theorem Crew.supersede_hold (c : Crew) (d : Dst) (m : Lanes) : (c.supersede d m).hold = c.hold := rfl
@[simp] theorem Crew.supersede_fence (c : Crew) (d : Dst) (m : Lanes) : (c.supersede d m).fence = c.fence := rfl
@[simp] theorem Crew.supersede_wait (c : Crew) (d : Dst) (m : Lanes) : (c.supersede d m).wait = c.wait := rfl
@[simp] theorem Crew.supersede_out (c : Crew) (d : Dst) (m : Lanes) : (c.supersede d m).out = c.out := rfl
@[simp] theorem Crew.supersede_parent (c : Crew) (d : Dst) (m : Lanes) : (c.supersede d m).parent = c.parent := rfl
@[simp] theorem Crew.supersede_recruit (c : Crew) (d : Dst) (m : Lanes) : (c.supersede d m).recruit = c.recruit := rfl
@[simp] theorem Crew.supersede_hgroup (c : Crew) (d : Dst) (m : Lanes) : (c.supersede d m).hgroup = c.hgroup := rfl
@[simp] theorem Crew.supersede_active (c : Crew) (d : Dst) (m : Lanes) : (c.supersede d m).active = c.active := rfl
@[simp] theorem Crew.supersede_slotNo (c : Crew) (d : Dst) (m : Lanes) : (c.supersede d m).slotNo = c.slotNo := rfl
@[simp] theorem Crew.supersede_issuedAt (c : Crew) (d : Dst) (m : Lanes) : (c.supersede d m).issuedAt = c.issuedAt := rfl
@[simp] theorem Crew.supersede_readyAt (c : Crew) (d : Dst) (m : Lanes) : (c.supersede d m).readyAt = c.readyAt := rfl
@[simp] theorem Crew.supersede_loadSet (c : Crew) (d : Dst) (m : Lanes) : (c.supersede d m).loadSet = c.loadSet := rfl
@[simp] theorem Crew.supersede_loadSlots (c : Crew) (d : Dst) (m : Lanes) : (c.supersede d m).loadSlots = c.loadSlots := rfl
@[simp] theorem Crew.supersede_loadHeld (c : Crew) (d : Dst) (m : Lanes) : (c.supersede d m).loadHeld = c.loadHeld := rfl
@[simp] theorem Crew.supersede_evicted (c : Crew) (d : Dst) (m : Lanes) : (c.supersede d m).evicted = c.evicted := rfl
@[simp] theorem Crew.supersede_kept (c : Crew) (d : Dst) (m : Lanes) : (c.supersede d m).kept = c.kept := rfl
@[simp] theorem Crew.supersede_done (c : Crew) (d : Dst) (m : Lanes) : (c.supersede d m).done = c.done := rfl
@[simp] theorem Crew.supersede_cause (c : Crew) (d : Dst) (m : Lanes) : (c.supersede d m).cause = c.cause := rfl
@[simp] theorem Crew.supersede_frec (c : Crew) (d : Dst) (m : Lanes) : (c.supersede d m).frec = c.frec := rfl
@[simp] theorem Crew.supersede_helperFault (c : Crew) (d : Dst) (m : Lanes) : (c.supersede d m).helperFault = c.helperFault := rfl
@[simp] theorem Crew.supersede_accReads (c : Crew) (d : Dst) (m : Lanes) : (c.supersede d m).accReads = c.accReads := rfl
@[simp] theorem Crew.supersede_fbuf (c : Crew) (d : Dst) (m : Lanes) : (c.supersede d m).fbuf = c.fbuf := rfl
@[simp] theorem Crew.supersede_iword (c : Crew) (d : Dst) (m : Lanes) : (c.supersede d m).iword = c.iword := rfl

@[simp] theorem Crew.agePaths_core (c : Crew) : (c.agePaths).core = c.core := rfl
@[simp] theorem Crew.agePaths_crewid (c : Crew) : (c.agePaths).crewid = c.crewid := rfl
@[simp] theorem Crew.agePaths_ctx (c : Crew) : (c.agePaths).ctx = c.ctx := rfl
@[simp] theorem Crew.agePaths_w (c : Crew) : (c.agePaths).w = c.w := rfl
@[simp] theorem Crew.agePaths_nregs (c : Crew) : (c.agePaths).nregs = c.nregs := rfl
@[simp] theorem Crew.agePaths_surv (c : Crew) : (c.agePaths).surv = c.surv := rfl
@[simp] theorem Crew.agePaths_entry (c : Crew) : (c.agePaths).entry = c.entry := rfl
@[simp] theorem Crew.agePaths_launched (c : Crew) : (c.agePaths).launched = c.launched := rfl
@[simp] theorem Crew.agePaths_exited (c : Crew) : (c.agePaths).exited = c.exited := rfl
@[simp] theorem Crew.agePaths_regs (c : Crew) : (c.agePaths).regs = c.regs := rfl
@[simp] theorem Crew.agePaths_preds (c : Crew) : (c.agePaths).preds = c.preds := rfl
@[simp] theorem Crew.agePaths_ix (c : Crew) : (c.agePaths).ix = c.ix := rfl
@[simp] theorem Crew.agePaths_latches (c : Crew) : (c.agePaths).latches = c.latches := rfl
@[simp] theorem Crew.agePaths_oc (c : Crew) : (c.agePaths).oc = c.oc := rfl
@[simp] theorem Crew.agePaths_xdist (c : Crew) : (c.agePaths).xdist = c.xdist := rfl
@[simp] theorem Crew.agePaths_xsel (c : Crew) : (c.agePaths).xsel = c.xsel := rfl
@[simp] theorem Crew.agePaths_fpctl (c : Crew) : (c.agePaths).fpctl = c.fpctl := rfl
@[simp] theorem Crew.agePaths_fpflags (c : Crew) : (c.agePaths).fpflags = c.fpflags := rfl
@[simp] theorem Crew.agePaths_hcount (c : Crew) : (c.agePaths).hcount = c.hcount := rfl
@[simp] theorem Crew.agePaths_origin (c : Crew) : (c.agePaths).origin = c.origin := rfl
@[simp] theorem Crew.agePaths_teamid (c : Crew) : (c.agePaths).teamid = c.teamid := rfl
@[simp] theorem Crew.agePaths_teampos (c : Crew) : (c.agePaths).teampos = c.teampos := rfl
@[simp] theorem Crew.agePaths_grid (c : Crew) : (c.agePaths).grid = c.grid := rfl
@[simp] theorem Crew.agePaths_team (c : Crew) : (c.agePaths).team = c.team := rfl
@[simp] theorem Crew.agePaths_dre (c : Crew) : (c.agePaths).dre = c.dre := rfl
@[simp] theorem Crew.agePaths_yreq (c : Crew) : (c.agePaths).yreq = c.yreq := rfl
@[simp] theorem Crew.agePaths_frames (c : Crew) : (c.agePaths).frames = c.frames := rfl
@[simp] theorem Crew.agePaths_lc (c : Crew) : (c.agePaths).lc = c.lc := rfl
@[simp] theorem Crew.agePaths_cnts (c : Crew) : (c.agePaths).cnts = c.cnts := rfl
@[simp] theorem Crew.agePaths_cnts2 (c : Crew) : (c.agePaths).cnts2 = c.cnts2 := rfl
@[simp] theorem Crew.agePaths_sq (c : Crew) : (c.agePaths).sq = c.sq := rfl
@[simp] theorem Crew.agePaths_loads (c : Crew) : (c.agePaths).loads = c.loads := rfl
@[simp] theorem Crew.agePaths_pends (c : Crew) : (c.agePaths).pends = c.pends := rfl
@[simp] theorem Crew.agePaths_unacked (c : Crew) : (c.agePaths).unacked = c.unacked := rfl
@[simp] theorem Crew.agePaths_rwOps (c : Crew) : (c.agePaths).rwOps = c.rwOps := rfl
@[simp] theorem Crew.agePaths_hold (c : Crew) : (c.agePaths).hold = c.hold := rfl
@[simp] theorem Crew.agePaths_fence (c : Crew) : (c.agePaths).fence = c.fence := rfl
@[simp] theorem Crew.agePaths_wait (c : Crew) : (c.agePaths).wait = c.wait := rfl
@[simp] theorem Crew.agePaths_out (c : Crew) : (c.agePaths).out = c.out := rfl
@[simp] theorem Crew.agePaths_parent (c : Crew) : (c.agePaths).parent = c.parent := rfl
@[simp] theorem Crew.agePaths_recruit (c : Crew) : (c.agePaths).recruit = c.recruit := rfl
@[simp] theorem Crew.agePaths_hgroup (c : Crew) : (c.agePaths).hgroup = c.hgroup := rfl
@[simp] theorem Crew.agePaths_active (c : Crew) : (c.agePaths).active = c.active := rfl
@[simp] theorem Crew.agePaths_slotNo (c : Crew) : (c.agePaths).slotNo = c.slotNo := rfl
@[simp] theorem Crew.agePaths_issuedAt (c : Crew) : (c.agePaths).issuedAt = c.issuedAt := rfl
@[simp] theorem Crew.agePaths_readyAt (c : Crew) : (c.agePaths).readyAt = c.readyAt := rfl
@[simp] theorem Crew.agePaths_loadSet (c : Crew) : (c.agePaths).loadSet = c.loadSet := rfl
@[simp] theorem Crew.agePaths_loadSlots (c : Crew) : (c.agePaths).loadSlots = c.loadSlots := rfl
@[simp] theorem Crew.agePaths_loadHeld (c : Crew) : (c.agePaths).loadHeld = c.loadHeld := rfl
@[simp] theorem Crew.agePaths_evicted (c : Crew) : (c.agePaths).evicted = c.evicted := rfl
@[simp] theorem Crew.agePaths_kept (c : Crew) : (c.agePaths).kept = c.kept := rfl
@[simp] theorem Crew.agePaths_done (c : Crew) : (c.agePaths).done = c.done := rfl
@[simp] theorem Crew.agePaths_cause (c : Crew) : (c.agePaths).cause = c.cause := rfl
@[simp] theorem Crew.agePaths_frec (c : Crew) : (c.agePaths).frec = c.frec := rfl
@[simp] theorem Crew.agePaths_helperFault (c : Crew) : (c.agePaths).helperFault = c.helperFault := rfl
@[simp] theorem Crew.agePaths_accReads (c : Crew) : (c.agePaths).accReads = c.accReads := rfl
@[simp] theorem Crew.agePaths_fbuf (c : Crew) : (c.agePaths).fbuf = c.fbuf := rfl
@[simp] theorem Crew.agePaths_iword (c : Crew) : (c.agePaths).iword = c.iword := rfl

@[simp] theorem Crew.setPc_core (c : Crew) (pc : Dword) : (c.setPc pc).core = c.core := rfl
@[simp] theorem Crew.setPc_crewid (c : Crew) (pc : Dword) : (c.setPc pc).crewid = c.crewid := rfl
@[simp] theorem Crew.setPc_ctx (c : Crew) (pc : Dword) : (c.setPc pc).ctx = c.ctx := rfl
@[simp] theorem Crew.setPc_w (c : Crew) (pc : Dword) : (c.setPc pc).w = c.w := rfl
@[simp] theorem Crew.setPc_nregs (c : Crew) (pc : Dword) : (c.setPc pc).nregs = c.nregs := rfl
@[simp] theorem Crew.setPc_surv (c : Crew) (pc : Dword) : (c.setPc pc).surv = c.surv := rfl
@[simp] theorem Crew.setPc_entry (c : Crew) (pc : Dword) : (c.setPc pc).entry = c.entry := rfl
@[simp] theorem Crew.setPc_launched (c : Crew) (pc : Dword) : (c.setPc pc).launched = c.launched := rfl
@[simp] theorem Crew.setPc_exited (c : Crew) (pc : Dword) : (c.setPc pc).exited = c.exited := rfl
@[simp] theorem Crew.setPc_regs (c : Crew) (pc : Dword) : (c.setPc pc).regs = c.regs := rfl
@[simp] theorem Crew.setPc_preds (c : Crew) (pc : Dword) : (c.setPc pc).preds = c.preds := rfl
@[simp] theorem Crew.setPc_ix (c : Crew) (pc : Dword) : (c.setPc pc).ix = c.ix := rfl
@[simp] theorem Crew.setPc_latches (c : Crew) (pc : Dword) : (c.setPc pc).latches = c.latches := rfl
@[simp] theorem Crew.setPc_oc (c : Crew) (pc : Dword) : (c.setPc pc).oc = c.oc := rfl
@[simp] theorem Crew.setPc_xdist (c : Crew) (pc : Dword) : (c.setPc pc).xdist = c.xdist := rfl
@[simp] theorem Crew.setPc_xsel (c : Crew) (pc : Dword) : (c.setPc pc).xsel = c.xsel := rfl
@[simp] theorem Crew.setPc_fpctl (c : Crew) (pc : Dword) : (c.setPc pc).fpctl = c.fpctl := rfl
@[simp] theorem Crew.setPc_fpflags (c : Crew) (pc : Dword) : (c.setPc pc).fpflags = c.fpflags := rfl
@[simp] theorem Crew.setPc_hcount (c : Crew) (pc : Dword) : (c.setPc pc).hcount = c.hcount := rfl
@[simp] theorem Crew.setPc_origin (c : Crew) (pc : Dword) : (c.setPc pc).origin = c.origin := rfl
@[simp] theorem Crew.setPc_teamid (c : Crew) (pc : Dword) : (c.setPc pc).teamid = c.teamid := rfl
@[simp] theorem Crew.setPc_teampos (c : Crew) (pc : Dword) : (c.setPc pc).teampos = c.teampos := rfl
@[simp] theorem Crew.setPc_grid (c : Crew) (pc : Dword) : (c.setPc pc).grid = c.grid := rfl
@[simp] theorem Crew.setPc_team (c : Crew) (pc : Dword) : (c.setPc pc).team = c.team := rfl
@[simp] theorem Crew.setPc_dre (c : Crew) (pc : Dword) : (c.setPc pc).dre = c.dre := rfl
@[simp] theorem Crew.setPc_yreq (c : Crew) (pc : Dword) : (c.setPc pc).yreq = c.yreq := rfl
@[simp] theorem Crew.setPc_frames (c : Crew) (pc : Dword) : (c.setPc pc).frames = c.frames := rfl
@[simp] theorem Crew.setPc_lc (c : Crew) (pc : Dword) : (c.setPc pc).lc = c.lc := rfl
@[simp] theorem Crew.setPc_cnts (c : Crew) (pc : Dword) : (c.setPc pc).cnts = c.cnts := rfl
@[simp] theorem Crew.setPc_cnts2 (c : Crew) (pc : Dword) : (c.setPc pc).cnts2 = c.cnts2 := rfl
@[simp] theorem Crew.setPc_sq (c : Crew) (pc : Dword) : (c.setPc pc).sq = c.sq := rfl
@[simp] theorem Crew.setPc_loads (c : Crew) (pc : Dword) : (c.setPc pc).loads = c.loads := rfl
@[simp] theorem Crew.setPc_pends (c : Crew) (pc : Dword) : (c.setPc pc).pends = c.pends := rfl
@[simp] theorem Crew.setPc_unacked (c : Crew) (pc : Dword) : (c.setPc pc).unacked = c.unacked := rfl
@[simp] theorem Crew.setPc_rwOps (c : Crew) (pc : Dword) : (c.setPc pc).rwOps = c.rwOps := rfl
@[simp] theorem Crew.setPc_hold (c : Crew) (pc : Dword) : (c.setPc pc).hold = c.hold := rfl
@[simp] theorem Crew.setPc_fence (c : Crew) (pc : Dword) : (c.setPc pc).fence = c.fence := rfl
@[simp] theorem Crew.setPc_wait (c : Crew) (pc : Dword) : (c.setPc pc).wait = c.wait := rfl
@[simp] theorem Crew.setPc_out (c : Crew) (pc : Dword) : (c.setPc pc).out = c.out := rfl
@[simp] theorem Crew.setPc_parent (c : Crew) (pc : Dword) : (c.setPc pc).parent = c.parent := rfl
@[simp] theorem Crew.setPc_recruit (c : Crew) (pc : Dword) : (c.setPc pc).recruit = c.recruit := rfl
@[simp] theorem Crew.setPc_hgroup (c : Crew) (pc : Dword) : (c.setPc pc).hgroup = c.hgroup := rfl
@[simp] theorem Crew.setPc_active (c : Crew) (pc : Dword) : (c.setPc pc).active = c.active := rfl
@[simp] theorem Crew.setPc_slotNo (c : Crew) (pc : Dword) : (c.setPc pc).slotNo = c.slotNo := rfl
@[simp] theorem Crew.setPc_issuedAt (c : Crew) (pc : Dword) : (c.setPc pc).issuedAt = c.issuedAt := rfl
@[simp] theorem Crew.setPc_readyAt (c : Crew) (pc : Dword) : (c.setPc pc).readyAt = c.readyAt := rfl
@[simp] theorem Crew.setPc_loadSet (c : Crew) (pc : Dword) : (c.setPc pc).loadSet = c.loadSet := rfl
@[simp] theorem Crew.setPc_loadSlots (c : Crew) (pc : Dword) : (c.setPc pc).loadSlots = c.loadSlots := rfl
@[simp] theorem Crew.setPc_loadHeld (c : Crew) (pc : Dword) : (c.setPc pc).loadHeld = c.loadHeld := rfl
@[simp] theorem Crew.setPc_evicted (c : Crew) (pc : Dword) : (c.setPc pc).evicted = c.evicted := rfl
@[simp] theorem Crew.setPc_kept (c : Crew) (pc : Dword) : (c.setPc pc).kept = c.kept := rfl
@[simp] theorem Crew.setPc_done (c : Crew) (pc : Dword) : (c.setPc pc).done = c.done := rfl
@[simp] theorem Crew.setPc_cause (c : Crew) (pc : Dword) : (c.setPc pc).cause = c.cause := rfl
@[simp] theorem Crew.setPc_frec (c : Crew) (pc : Dword) : (c.setPc pc).frec = c.frec := rfl
@[simp] theorem Crew.setPc_helperFault (c : Crew) (pc : Dword) : (c.setPc pc).helperFault = c.helperFault := rfl
@[simp] theorem Crew.setPc_accReads (c : Crew) (pc : Dword) : (c.setPc pc).accReads = c.accReads := rfl
@[simp] theorem Crew.setPc_fbuf (c : Crew) (pc : Dword) : (c.setPc pc).fbuf = c.fbuf := rfl
@[simp] theorem Crew.setPc_iword (c : Crew) (pc : Dword) : (c.setPc pc).iword = c.iword := rfl

@[simp] theorem Crew.dropUpper_core (c : Crew) : (c.dropUpper).core = c.core := rfl
@[simp] theorem Crew.dropUpper_crewid (c : Crew) : (c.dropUpper).crewid = c.crewid := rfl
@[simp] theorem Crew.dropUpper_ctx (c : Crew) : (c.dropUpper).ctx = c.ctx := rfl
@[simp] theorem Crew.dropUpper_w (c : Crew) : (c.dropUpper).w = c.w := rfl
@[simp] theorem Crew.dropUpper_nregs (c : Crew) : (c.dropUpper).nregs = c.nregs := rfl
@[simp] theorem Crew.dropUpper_surv (c : Crew) : (c.dropUpper).surv = c.surv := rfl
@[simp] theorem Crew.dropUpper_entry (c : Crew) : (c.dropUpper).entry = c.entry := rfl
@[simp] theorem Crew.dropUpper_launched (c : Crew) : (c.dropUpper).launched = c.launched := rfl
@[simp] theorem Crew.dropUpper_exited (c : Crew) : (c.dropUpper).exited = c.exited := rfl
@[simp] theorem Crew.dropUpper_regs (c : Crew) : (c.dropUpper).regs = c.regs := rfl
@[simp] theorem Crew.dropUpper_preds (c : Crew) : (c.dropUpper).preds = c.preds := rfl
@[simp] theorem Crew.dropUpper_ix (c : Crew) : (c.dropUpper).ix = c.ix := rfl
@[simp] theorem Crew.dropUpper_latches (c : Crew) : (c.dropUpper).latches = [] := rfl
@[simp] theorem Crew.dropUpper_oc (c : Crew) : (c.dropUpper).oc = [] := rfl
@[simp] theorem Crew.dropUpper_xdist (c : Crew) : (c.dropUpper).xdist = c.xdist := rfl
@[simp] theorem Crew.dropUpper_xsel (c : Crew) : (c.dropUpper).xsel = c.xsel := rfl
@[simp] theorem Crew.dropUpper_fpctl (c : Crew) : (c.dropUpper).fpctl = c.fpctl := rfl
@[simp] theorem Crew.dropUpper_fpflags (c : Crew) : (c.dropUpper).fpflags = c.fpflags := rfl
@[simp] theorem Crew.dropUpper_hcount (c : Crew) : (c.dropUpper).hcount = c.hcount := rfl
@[simp] theorem Crew.dropUpper_origin (c : Crew) : (c.dropUpper).origin = c.origin := rfl
@[simp] theorem Crew.dropUpper_teamid (c : Crew) : (c.dropUpper).teamid = c.teamid := rfl
@[simp] theorem Crew.dropUpper_teampos (c : Crew) : (c.dropUpper).teampos = c.teampos := rfl
@[simp] theorem Crew.dropUpper_grid (c : Crew) : (c.dropUpper).grid = c.grid := rfl
@[simp] theorem Crew.dropUpper_team (c : Crew) : (c.dropUpper).team = c.team := rfl
@[simp] theorem Crew.dropUpper_dre (c : Crew) : (c.dropUpper).dre = c.dre := rfl
@[simp] theorem Crew.dropUpper_yreq (c : Crew) : (c.dropUpper).yreq = c.yreq := rfl
@[simp] theorem Crew.dropUpper_frames (c : Crew) : (c.dropUpper).frames = c.frames := rfl
@[simp] theorem Crew.dropUpper_paths (c : Crew) : (c.dropUpper).paths = c.paths := rfl
@[simp] theorem Crew.dropUpper_lc (c : Crew) : (c.dropUpper).lc = c.lc := rfl
@[simp] theorem Crew.dropUpper_cnts (c : Crew) : (c.dropUpper).cnts = c.cnts := rfl
@[simp] theorem Crew.dropUpper_cnts2 (c : Crew) : (c.dropUpper).cnts2 = c.cnts2 := rfl
@[simp] theorem Crew.dropUpper_sq (c : Crew) : (c.dropUpper).sq = c.sq := rfl
@[simp] theorem Crew.dropUpper_loads (c : Crew) : (c.dropUpper).loads = c.loads := rfl
@[simp] theorem Crew.dropUpper_pends (c : Crew) : (c.dropUpper).pends = c.pends := rfl
@[simp] theorem Crew.dropUpper_unacked (c : Crew) : (c.dropUpper).unacked = c.unacked := rfl
@[simp] theorem Crew.dropUpper_rwOps (c : Crew) : (c.dropUpper).rwOps = c.rwOps := rfl
@[simp] theorem Crew.dropUpper_hold (c : Crew) : (c.dropUpper).hold = c.hold := rfl
@[simp] theorem Crew.dropUpper_fence (c : Crew) : (c.dropUpper).fence = c.fence := rfl
@[simp] theorem Crew.dropUpper_wait (c : Crew) : (c.dropUpper).wait = c.wait := rfl
@[simp] theorem Crew.dropUpper_out (c : Crew) : (c.dropUpper).out = c.out := rfl
@[simp] theorem Crew.dropUpper_parent (c : Crew) : (c.dropUpper).parent = c.parent := rfl
@[simp] theorem Crew.dropUpper_recruit (c : Crew) : (c.dropUpper).recruit = c.recruit := rfl
@[simp] theorem Crew.dropUpper_hgroup (c : Crew) : (c.dropUpper).hgroup = c.hgroup := rfl
@[simp] theorem Crew.dropUpper_active (c : Crew) : (c.dropUpper).active = c.active := rfl
@[simp] theorem Crew.dropUpper_slotNo (c : Crew) : (c.dropUpper).slotNo = c.slotNo := rfl
@[simp] theorem Crew.dropUpper_issuedAt (c : Crew) : (c.dropUpper).issuedAt = c.issuedAt := rfl
@[simp] theorem Crew.dropUpper_readyAt (c : Crew) : (c.dropUpper).readyAt = c.readyAt := rfl
@[simp] theorem Crew.dropUpper_loadSet (c : Crew) : (c.dropUpper).loadSet = c.loadSet := rfl
@[simp] theorem Crew.dropUpper_loadSlots (c : Crew) : (c.dropUpper).loadSlots = c.loadSlots := rfl
@[simp] theorem Crew.dropUpper_loadHeld (c : Crew) : (c.dropUpper).loadHeld = c.loadHeld := rfl
@[simp] theorem Crew.dropUpper_evicted (c : Crew) : (c.dropUpper).evicted = c.evicted := rfl
@[simp] theorem Crew.dropUpper_kept (c : Crew) : (c.dropUpper).kept = c.kept := rfl
@[simp] theorem Crew.dropUpper_done (c : Crew) : (c.dropUpper).done = c.done := rfl
@[simp] theorem Crew.dropUpper_cause (c : Crew) : (c.dropUpper).cause = c.cause := rfl
@[simp] theorem Crew.dropUpper_frec (c : Crew) : (c.dropUpper).frec = c.frec := rfl
@[simp] theorem Crew.dropUpper_helperFault (c : Crew) : (c.dropUpper).helperFault = c.helperFault := rfl
@[simp] theorem Crew.dropUpper_accReads (c : Crew) : (c.dropUpper).accReads = c.accReads := rfl
@[simp] theorem Crew.dropUpper_fbuf (c : Crew) : (c.dropUpper).fbuf = c.fbuf := rfl
@[simp] theorem Crew.dropUpper_iword (c : Crew) : (c.dropUpper).iword = c.iword := rfl

@[simp] theorem Crew.leaveLoadSet_core (c : Crew) : (c.leaveLoadSet).core = c.core := rfl
@[simp] theorem Crew.leaveLoadSet_crewid (c : Crew) : (c.leaveLoadSet).crewid = c.crewid := rfl
@[simp] theorem Crew.leaveLoadSet_ctx (c : Crew) : (c.leaveLoadSet).ctx = c.ctx := rfl
@[simp] theorem Crew.leaveLoadSet_w (c : Crew) : (c.leaveLoadSet).w = c.w := rfl
@[simp] theorem Crew.leaveLoadSet_nregs (c : Crew) : (c.leaveLoadSet).nregs = c.nregs := rfl
@[simp] theorem Crew.leaveLoadSet_surv (c : Crew) : (c.leaveLoadSet).surv = c.surv := rfl
@[simp] theorem Crew.leaveLoadSet_entry (c : Crew) : (c.leaveLoadSet).entry = c.entry := rfl
@[simp] theorem Crew.leaveLoadSet_launched (c : Crew) : (c.leaveLoadSet).launched = c.launched := rfl
@[simp] theorem Crew.leaveLoadSet_exited (c : Crew) : (c.leaveLoadSet).exited = c.exited := rfl
@[simp] theorem Crew.leaveLoadSet_regs (c : Crew) : (c.leaveLoadSet).regs = c.regs := rfl
@[simp] theorem Crew.leaveLoadSet_preds (c : Crew) : (c.leaveLoadSet).preds = c.preds := rfl
@[simp] theorem Crew.leaveLoadSet_ix (c : Crew) : (c.leaveLoadSet).ix = c.ix := rfl
@[simp] theorem Crew.leaveLoadSet_latches (c : Crew) : (c.leaveLoadSet).latches = c.latches := rfl
@[simp] theorem Crew.leaveLoadSet_oc (c : Crew) : (c.leaveLoadSet).oc = c.oc := rfl
@[simp] theorem Crew.leaveLoadSet_xdist (c : Crew) : (c.leaveLoadSet).xdist = c.xdist := rfl
@[simp] theorem Crew.leaveLoadSet_xsel (c : Crew) : (c.leaveLoadSet).xsel = c.xsel := rfl
@[simp] theorem Crew.leaveLoadSet_fpctl (c : Crew) : (c.leaveLoadSet).fpctl = c.fpctl := rfl
@[simp] theorem Crew.leaveLoadSet_fpflags (c : Crew) : (c.leaveLoadSet).fpflags = c.fpflags := rfl
@[simp] theorem Crew.leaveLoadSet_hcount (c : Crew) : (c.leaveLoadSet).hcount = c.hcount := rfl
@[simp] theorem Crew.leaveLoadSet_origin (c : Crew) : (c.leaveLoadSet).origin = c.origin := rfl
@[simp] theorem Crew.leaveLoadSet_teamid (c : Crew) : (c.leaveLoadSet).teamid = c.teamid := rfl
@[simp] theorem Crew.leaveLoadSet_teampos (c : Crew) : (c.leaveLoadSet).teampos = c.teampos := rfl
@[simp] theorem Crew.leaveLoadSet_grid (c : Crew) : (c.leaveLoadSet).grid = c.grid := rfl
@[simp] theorem Crew.leaveLoadSet_team (c : Crew) : (c.leaveLoadSet).team = c.team := rfl
@[simp] theorem Crew.leaveLoadSet_dre (c : Crew) : (c.leaveLoadSet).dre = c.dre := rfl
@[simp] theorem Crew.leaveLoadSet_yreq (c : Crew) : (c.leaveLoadSet).yreq = c.yreq := rfl
@[simp] theorem Crew.leaveLoadSet_frames (c : Crew) : (c.leaveLoadSet).frames = c.frames := rfl
@[simp] theorem Crew.leaveLoadSet_paths (c : Crew) : (c.leaveLoadSet).paths = c.paths := rfl
@[simp] theorem Crew.leaveLoadSet_lc (c : Crew) : (c.leaveLoadSet).lc = c.lc := rfl
@[simp] theorem Crew.leaveLoadSet_cnts (c : Crew) : (c.leaveLoadSet).cnts = c.cnts := rfl
@[simp] theorem Crew.leaveLoadSet_cnts2 (c : Crew) : (c.leaveLoadSet).cnts2 = c.cnts2 := rfl
@[simp] theorem Crew.leaveLoadSet_sq (c : Crew) : (c.leaveLoadSet).sq = c.sq := rfl
@[simp] theorem Crew.leaveLoadSet_loads (c : Crew) : (c.leaveLoadSet).loads = c.loads := rfl
@[simp] theorem Crew.leaveLoadSet_pends (c : Crew) : (c.leaveLoadSet).pends = c.pends := rfl
@[simp] theorem Crew.leaveLoadSet_unacked (c : Crew) : (c.leaveLoadSet).unacked = c.unacked := rfl
@[simp] theorem Crew.leaveLoadSet_rwOps (c : Crew) : (c.leaveLoadSet).rwOps = c.rwOps := rfl
@[simp] theorem Crew.leaveLoadSet_hold (c : Crew) : (c.leaveLoadSet).hold = c.hold := rfl
@[simp] theorem Crew.leaveLoadSet_fence (c : Crew) : (c.leaveLoadSet).fence = c.fence := rfl
@[simp] theorem Crew.leaveLoadSet_wait (c : Crew) : (c.leaveLoadSet).wait = c.wait := rfl
@[simp] theorem Crew.leaveLoadSet_out (c : Crew) : (c.leaveLoadSet).out = c.out := rfl
@[simp] theorem Crew.leaveLoadSet_parent (c : Crew) : (c.leaveLoadSet).parent = c.parent := rfl
@[simp] theorem Crew.leaveLoadSet_recruit (c : Crew) : (c.leaveLoadSet).recruit = c.recruit := rfl
@[simp] theorem Crew.leaveLoadSet_hgroup (c : Crew) : (c.leaveLoadSet).hgroup = c.hgroup := rfl
@[simp] theorem Crew.leaveLoadSet_active (c : Crew) : (c.leaveLoadSet).active = c.active := rfl
@[simp] theorem Crew.leaveLoadSet_slotNo (c : Crew) : (c.leaveLoadSet).slotNo = c.slotNo := rfl
@[simp] theorem Crew.leaveLoadSet_issuedAt (c : Crew) : (c.leaveLoadSet).issuedAt = c.issuedAt := rfl
@[simp] theorem Crew.leaveLoadSet_readyAt (c : Crew) : (c.leaveLoadSet).readyAt = c.readyAt := rfl
@[simp] theorem Crew.leaveLoadSet_loadSet (c : Crew) : (c.leaveLoadSet).loadSet = false := rfl
@[simp] theorem Crew.leaveLoadSet_loadSlots (c : Crew) : (c.leaveLoadSet).loadSlots = 0 := rfl
@[simp] theorem Crew.leaveLoadSet_loadHeld (c : Crew) : (c.leaveLoadSet).loadHeld = c.loadHeld := rfl
@[simp] theorem Crew.leaveLoadSet_evicted (c : Crew) : (c.leaveLoadSet).evicted = c.evicted := rfl
@[simp] theorem Crew.leaveLoadSet_kept (c : Crew) : (c.leaveLoadSet).kept = c.kept := rfl
@[simp] theorem Crew.leaveLoadSet_done (c : Crew) : (c.leaveLoadSet).done = c.done := rfl
@[simp] theorem Crew.leaveLoadSet_cause (c : Crew) : (c.leaveLoadSet).cause = c.cause := rfl
@[simp] theorem Crew.leaveLoadSet_frec (c : Crew) : (c.leaveLoadSet).frec = c.frec := rfl
@[simp] theorem Crew.leaveLoadSet_helperFault (c : Crew) : (c.leaveLoadSet).helperFault = c.helperFault := rfl
@[simp] theorem Crew.leaveLoadSet_accReads (c : Crew) : (c.leaveLoadSet).accReads = c.accReads := rfl
@[simp] theorem Crew.leaveLoadSet_fbuf (c : Crew) : (c.leaveLoadSet).fbuf = c.fbuf := rfl
@[simp] theorem Crew.leaveLoadSet_iword (c : Crew) : (c.leaveLoadSet).iword = c.iword := rfl

end Sys2Proof.Machine
end

