-- ==== Sys2Proof/Laws/Frame.lean ====
section
/-!
SUPPORT. Everything that one issue slot can answer, said once for every instruction; and that a path table with room spills
nothing.
-/

namespace Sys2Proof.Machine

/-- The context in which issue runs a body, before the guard's lanes are filled in. -/
def slotCx (s : State) (c1 : Crew) (p : Path) (len : Nat) : Cx :=
  { s := { s with opSeq := s.opSeq + 1 }, id := s.focus, c := c1.agePaths, p := p, len := len, act := 0, op := s.opSeq }

/-- What an issue slot answers where it answers a next state: the state as it was, the instruction's result, a device that
went on first, a trap or a fault past no speculative fence, or a crew noted as held at a load (R433). -/
theorem issue_next {s t : State} {opc len : Nat} {g : Guard} {body : Cx → Iss Rsl} (h : issue s opc len g body = .next t) :
    ∃ c, s.viewCrew s.focus = some c ∧
      (t = s ∨
       (∃ p c1, c.running = some p ∧ s.loadSetCrew opc c = some c1 ∧ s.canIssue c = true ∧
         ((∃ r, issueBody (slotCx s c1 p len) opc g body = .ok r ∧ t = r.finish (slotCx s c1 p len)) ∨
          issueBody (slotCx s c1 p len) opc g body = .error (.again t) ∨
          (∃ e, issueBody (slotCx s c1 p len) opc g body = .error (.trap e) ∧ c.fence = none ∧
            t = ((slotCx s c1 p len).s.trapSlot s.focus).raiseTrap s.focus len e) ∨
          (∃ e, issueBody (slotCx s c1 p len) opc g body = .error (.fault e) ∧ c.fence = none ∧
            t = (slotCx s c1 p len).s.crewFault s.focus e))) ∨
       (s.loadSetCrew opc c = none ∧ c.loadHeld.isSome = false ∧
         t = ({ s with opSeq := s.opSeq + 1 } : State).modCrew s.focus (fun d => { d with loadHeld := some s.opSeq }))) := by
  unfold issue at h
  split at h
  · cases h
  · rename_i c hc
    refine ⟨c, hc, ?_⟩
    split at h
    · rename_i p c1 hp hl
      split at h
      · cases h
        exact .inl rfl
      · rename_i hg
        have hcan : s.canIssue c = true := by
          cases hb : s.canIssue c
          · simp [hb] at hg
          · rfl
        change (match issueBody (slotCx s c1 p len) opc g body with
          | .ok r => _ | .error .stall => _ | .error (.again t) => _ | .error (.trap t) => _ | .error (.fault f) => _) = _ at h
        split at h
        · rename_i r hr
          cases h
          exact .inr (.inl ⟨p, c1, hp, hl, hcan, .inl ⟨r, hr, rfl⟩⟩)
        · cases h
          exact .inl rfl
        · rename_i t' hr
          cases h
          exact .inr (.inl ⟨p, c1, hp, hl, hcan, .inr (.inl hr)⟩)
        · rename_i e hr
          split at h
          · cases h
            exact .inl rfl
          · rename_i hf
            cases h
            exact .inr (.inl ⟨p, c1, hp, hl, hcan, .inr (.inr (.inl ⟨e, hr, by simpa using hf, rfl⟩))⟩)
        · rename_i e hr
          split at h
          · cases h
            exact .inl rfl
          · rename_i hf
            cases h
            exact .inr (.inl ⟨p, c1, hp, hl, hcan, .inr (.inr (.inr ⟨e, hr, by simpa using hf, rfl⟩))⟩)
    · rename_i hl
      split at h
      · cases h
        exact .inl rfl
      · split at h
        · cases h
          exact .inl rfl
        · rename_i hh
          cases h
          exact .inr (.inr ⟨hl, by simpa using hh, rfl⟩)
    · cases h
      exact .inl rfl

/-- A path table of at most eight entries, none of which is or was spilled, stays as it is. -/
theorem spillFix_fits {s : State} {id : Nat} {old : List Path} {c : Crew} (hc : mget s.crews id = some c) (h8 : c.paths.length ≤ 8)
    (hs : ∀ p ∈ c.paths ++ old, p.spilled = false) : s.spillFix id old = s := by
  have h : (c.paths ++ old).all (fun p => !p.spilled) = true := by
    rw [List.all_eq_true]
    intro p hp
    simp [hs p hp]
  simp only [State.spillFix, hc]
  rw [if_pos ⟨h8, h⟩]

/-- A table of at most eight paths, none of which is or was spilled, has no record to write or to read. -/
theorem spillWork_fits {c : Crew} {old : List Path} (h8 : c.paths.length ≤ 8) (hs : ∀ p ∈ c.paths ++ old, p.spilled = false) :
    c.spillWork old = false := by
  have ho : old.filter (·.spilled) = [] := by
    rw [List.filter_eq_nil_iff]
    intro p hp
    simp [hs p (by simp [hp])]
  have hn : c.paths.filter (·.spilled) = [] := by
    rw [List.filter_eq_nil_iff]
    intro p hp
    simp [hs p (by simp [hp])]
  have hl : (c.paths.filter (fun p => !p.spilled)).length ≤ 8 := Nat.le_trans (List.length_filter_le ..) h8
  simp only [Crew.spillWork, ho, hn]
  simpa using hl

end Sys2Proof.Machine
end

