-- ==== Sys2Proof/Laws/Issue.lean ====
section
/-!
SUPPORT. What an issue slot does, once for every instruction: in the context that State.issueCx names, an instruction whose
body answers a result completes with it; one whose body traps takes its trap; one that may not issue leaves the state.
-/

namespace Sys2Proof.Machine

/-- The guard and the crew's role pass the checks of an issue slot in the context it executes in. -/
theorem issueCx_unfold {s : State} {opc len : Nat} {g : Guard} {x : Cx} (h : s.issueCx opc len g = some x) :
    ∃ c c1, s.viewCrew s.focus = some c ∧ c.running = some x.p ∧ s.loadSetCrew opc c = some c1 ∧
      s.canIssue c = true ∧ c.fenceHolds opc = false ∧ c.holdHolds opc = false ∧
      c1.agePaths.roleOk opc = true ∧ g.ok = true ∧ c1.agePaths.guardOwed g = false ∧
      x = { s := { s with opSeq := s.opSeq + 1 }, id := s.focus, c := c1.agePaths, p := x.p, len := len,
            act := c1.agePaths.guardLanes g x.p.mask, op := s.opSeq } := by
  unfold State.issueCx at h
  split at h
  · cases h
  · rename_i c hc
    split at h
    · rename_i p c1 hp hl
      split at h
      · rename_i hg
        simp only [Bool.and_eq_true, Bool.not_eq_true'] at hg
        cases h
        exact ⟨c, c1, hc, hp, hl, hg.1.1.1.1.1, hg.1.1.1.1.2, hg.1.1.1.2, hg.1.1.2, hg.1.2, hg.2, rfl⟩
      · cases h
    · cases h

/-- An instruction that executes and whose body answers a result completes with it. -/
theorem issue_ok {s : State} {opc len : Nat} {g : Guard} {x : Cx} {body : Cx → Iss Rsl} {r : Rsl}
    (h : s.issueCx opc len g = some x) (hb : body x = .ok r) : issue s opc len g body = .next (r.finish x) := by
  obtain ⟨c, c1, hc, hp, hl, h1, h2, h3, h4, h5, h6, hx⟩ := issueCx_unfold h
  have hb' : issueBody ⟨{ s with opSeq := s.opSeq + 1 }, s.focus, c1.agePaths, x.p, len, 0, s.opSeq⟩ opc g body = .ok r := by
    rw [hx] at hb
    simp only [issueBody, h4, h5, h6, needInsn, needIssue]
    exact hb
  unfold issue
  simp only [hc, hp, hl, h1, h2, h3, hb']
  rw [hx]
  rfl

/-- An instruction that executes and whose body takes a trap enters its handler (R437), but past a speculative fence, where
the crew waits (R202). -/
theorem issue_trap {s : State} {opc len : Nat} {g : Guard} {x : Cx} {body : Cx → Iss Rsl} {t : Trap}
    (h : s.issueCx opc len g = some x) (hb : body x = .error (.trap t)) (hf : x.c.fence = none) :
    issue s opc len g body = .next ((x.s.trapSlot s.focus).raiseTrap s.focus len t) := by
  obtain ⟨c, c1, hc, hp, hl, h1, h2, h3, h4, h5, h6, hx⟩ := issueCx_unfold h
  have hb' : issueBody ⟨{ s with opSeq := s.opSeq + 1 }, s.focus, c1.agePaths, x.p, len, 0, s.opSeq⟩ opc g body = .error (.trap t) := by
    rw [hx] at hb
    simp only [issueBody, h4, h5, h6, needInsn, needIssue]
    exact hb
  have hcf : c.fence = none := by
    rw [hx] at hf
    revert hl
    unfold State.loadSetCrew
    split
    · intro e; cases e; exact hf
    · split
      · intro e; cases e; exact hf
      · intro e; cases e
  unfold issue
  simp only [hc, hp, hl, h1, h2, h3, hb', hcf]
  rw [hx]
  rfl

end Sys2Proof.Machine
end

