-- ==== Sys2Proof/Laws/Result.lean ====
section
/-!
SUPPORT. The words of lane-wise results: what laneShapes and natShape hold in each lane of the crew, and what a body of the
shared shape answers.
-/

namespace Sys2Proof.Machine

theorem getD_map_range {α : Type} (f : Nat → α) (w l : Nat) (d : α) (h : l < w) :
    ((List.range w).map f).getD l d = f l := by
  simp [List.getD, h]

theorem normShape_gen_at (w l : Nat) (f : Nat → Word) (h : l < w) : (normShape w (gen w f)).at l = f l := by
  unfold normShape
  split
  · have : l = 0 := by omega
    subst this
    simp only [Shape.at, gen]
    exact getD_map_range f w 0 0 h
  · simp only [Shape.at, gen]
    exact getD_map_range f w l 0 h

/-- A lane-wise result holds its function in each lane, where the function is the same in every lane if every source is U. -/
theorem natShape_at (x : Cx) (os : List Opd) (f : Nat → Word) (l : Nat) (h : l < x.c.w)
    (hu : os.all (·.isU) = true → f l = f x.lane) : (natShape x os f).at l = f l := by
  unfold natShape
  split
  · rename_i hall
    exact (hu hall).symm
  · exact normShape_gen_at _ _ _ h

theorem natShape_isU (x : Cx) (os : List Opd) (f : Nat → Word) (hall : os.all (·.isU) = true) : (natShape x os f).IsU := by
  unfold natShape
  rw [if_pos hall]
  exact ⟨_, rfl⟩

theorem wordsAt_one (sh : Shape) (l : Nat) : wordsAt [sh] l = (sh.at l).toNat := by simp [wordsAt]

theorem wordsAt_two (a b : Shape) (l : Nat) : wordsAt [a, b] l = (a.at l).toNat + 2 ^ 32 * (b.at l).toNat := by
  simp [wordsAt]

theorem split64 (v : Nat) : v % 2 ^ 32 + 2 ^ 32 * (v / 2 ^ 32 % 2 ^ 32) = v % 2 ^ 64 := by omega

/-- The words of a lane-wise result of one or two registers. -/
theorem laneShapes_result (x : Cx) (os : List Opd) (k : Nat) (fn : Nat → Nat) (hk : k = 1 ∨ k = 2)
    (hu : os.all (·.isU) = true → ∀ l l', fn l = fn l') :
    (laneShapes x os k fn).length = k ∧
    (∀ l < x.c.w, wordsAt (laneShapes x os k fn) l = fn l % 2 ^ (32 * k)) ∧
    (os.all (·.isU) = true → ∀ sh ∈ laneShapes x os k fn, sh.IsU) := by
  refine ⟨by simp [laneShapes], ?_, ?_⟩
  · intro l hl
    have at_ : ∀ i, (natShape x os (fun l => BitVec.ofNat 32 (fn l >>> (32 * i)))).at l =
        BitVec.ofNat 32 (fn l >>> (32 * i)) := fun i =>
      natShape_at x os _ l hl (fun h => by simp only [hu h l x.lane])
    rcases hk with rfl | rfl
    · show wordsAt [_] l = _
      rw [wordsAt_one, at_]
      simp
    · show wordsAt [_, _] l = _
      rw [wordsAt_two, at_, at_]
      simp only [BitVec.toNat_ofNat, Nat.shiftRight_eq_div_pow, Nat.mul_zero, Nat.pow_zero, Nat.div_one, Nat.mul_one]
      exact split64 _
  · intro h sh hsh
    simp only [laneShapes, List.mem_map] at hsh
    obtain ⟨i, -, rfl⟩ := hsh
    exact natShape_isU x os _ h

theorem isU_at {o : Opd} (h : o.isU = true) (l l' : Nat) : o.at l = o.at l' := by
  unfold Opd.isU at h
  cases hs : o.sh with
  | u w => simp [Opd.at, hs, Shape.at]
  | a b s => simp [hs] at h
  | g ws => simp [hs] at h

theorem getD_isU {os : List Opd} (h : os.all (·.isU) = true) (i l l' : Nat) :
    (os.getD i ⟨.u 0, 0⟩).at l = (os.getD i ⟨.u 0, 0⟩).at l' := by
  apply isU_at
  rw [List.all_eq_true] at h
  rw [List.getD_eq_getElem?_getD]
  cases hi : os[i]? with
  | none => rfl
  | some o => exact h o (List.mem_of_getElem? hi)

/-- The value of an operand that is U is the same in every lane. -/
theorem laneVal_isU {os : List Opd} (h : os.all (·.isU) = true) (w l l' : Nat) : laneVal os w l = laneVal os w l' := by
  unfold laneVal pairAt
  rw [getD_isU h 0 l l', getD_isU h 1 l l']

theorem nthRun_isU {r : List (List Opd)} (h : r.flatten.all (·.isU) = true) (i : Nat) :
    (nthRun r i).all (·.isU) = true := by
  unfold nthRun
  rw [List.getD_eq_getElem?_getD]
  cases hi : r[i]? with
  | none => rfl
  | some os =>
    rw [List.all_eq_true] at h ⊢
    exact fun o ho => h o (List.mem_flatten.mpr ⟨os, List.mem_of_getElem? hi, ho⟩)

/-- A register instruction's body answers its result. -/
theorem aluBody_ok {legal : Bool} {dst : Desig} {kd : Nat} {ocw : BitVec 4} {latch : Nat} {srcs : List Src}
    {res : Cx → List (List Opd) → List Shape} {x : Cx} {r : List (List Opd)} (hl : legal = true)
    (hd : dstCheck x.c dst kd true = .ok ()) (hr : x.fetch srcs = .ok r) :
    aluBody legal dst kd ocw latch srcs res x = .ok (x.writeResult dst ocw (some latch) srcs (res x r)) := by
  simp only [aluBody, hl, needInsn, hd, hr]
  rfl

/-- A register instruction whose words are those of its rule completes. -/
theorem completes_of {m : RegForm} {i : Instr} {val : Cx → List (List Opd) → Nat → Nat} {body : Cx → Iss Rsl}
    {res : Cx → List (List Opd) → List Shape}
    (he : ∀ s, exec i s = issue s m.opc m.len m.g body)
    (hb : ∀ x r, m.legal = true → dstCheck x.c m.dst m.k true = .ok () → x.fetch m.srcs = .ok r →
      body x = .ok (x.writeResult m.dst m.ocw (some m.latch) m.srcs (res x r)))
    (hv : ∀ x r, m.Result x r (val x r) (res x r)) : m.Completes i val := by
  intro s x r hx hl hd hr
  exact ⟨res x r, by rw [he, issue_ok hx (hb x r hl hd hr)], hv x r⟩

end Sys2Proof.Machine
end

