-- ==== Sys2Proof/Laws/Integer.lean ====
section
/-!
SUPPORT. The integer instructions' bodies complete, and the affine cases of R248 hold the lane-wise value in every lane.
-/

namespace Sys2Proof.Machine

theorem tyWide_cases (m6 : BitVec 6) : tyWide m6 = 32 ∨ tyWide m6 = 64 := by
  unfold tyWide; split <;> simp

theorem tyWide_regs (m6 : BitVec 6) : tyWide m6 / 32 = 1 ∨ tyWide m6 / 32 = 2 := by
  rcases tyWide_cases m6 with h | h <;> simp [h]

theorem mkAff_at (b st : Word) (l : Nat) : (mkAff b st).at l = b + BitVec.ofNat 32 l * st := by
  unfold mkAff
  split
  · rename_i h; simp [Shape.at, h]
  · rfl

theorem affOf_at {sh : Shape} {p : Word × Word} (h : affOf sh = some p) (l : Nat) :
    sh.at l = p.1 + BitVec.ofNat 32 l * p.2 := by
  cases sh <;> simp [affOf] at h
  · subst h; simp [Shape.at]
  · subst h; rfl

/-- What an affine case must satisfy: it holds the lane-wise value, and U sources give U. -/
def AffOk (aff : Shape → Shape → Option Shape) (fn : Nat → Nat → Nat) : Prop :=
  ∀ a b sh, aff a b = some sh → (∀ l, (sh.at l).toNat = fn (a.at l).toNat (b.at l).toNat % 2 ^ 32) ∧
    (a.IsU → b.IsU → sh.IsU)

theorem noAff_ok (fn : Nat → Nat → Nat) : AffOk noAff fn := by intro a b sh h; cases h

theorem isU_iff {o : Opd} (h : o.isU = true) : o.sh.IsU := by
  unfold Opd.isU at h
  cases hs : o.sh with
  | u w => exact ⟨w, rfl⟩
  | a b s => simp [hs] at h
  | g ws => simp [hs] at h

theorem ab_isU {r : List (List Opd)} {imm : Option Word} (h : r.flatten.all (·.isU) = true) :
    ((ab r imm).1 ++ (ab r imm).2).all (·.isU) = true := by
  rw [List.all_append, Bool.and_eq_true]
  refine ⟨nthRun_isU h 0, ?_⟩
  unfold ab
  cases imm with
  | none => exact nthRun_isU h 1
  | some w => rfl

/-- A two-source integer instruction completes with its lane-wise value. -/
theorem int2_completes {i : Instr} {opc len : Nat} {f : L3} {imm : Option Word}
    {fn : Nat → Bool → Bool → Nat → Nat → Nat} {aff : Shape → Shape → Option Shape}
    (he : ∀ s, exec i s = issue s opc len f.g (int2 opc f imm fn aff))
    (ha : AffOk aff (fn 32 (tySigned f.mod6) false)) : Int2 i opc len f imm fn := by
  refine completes_of (res := int2Res f imm fn aff) he (fun x r hl hd hr => aluBody_ok hl hd hr) (fun x r => ?_)
  have plain_ok : RegForm.Result (L3Form opc len 0 (intLegal opc f.mod6) f (tyWide f.mod6 / 32) (tyWide f.mod6 / 32)
        (tyWide f.mod6 / 32) imm) x r (fun l => fn (tyWide f.mod6) (tySigned f.mod6) (tySat f.mod6)
          (laneVal (ab r imm).1 (tyWide f.mod6) l) (laneVal (ab r imm).2 (tyWide f.mod6) l))
        (laneShapes x ((ab r imm).1 ++ (ab r imm).2) (tyWide f.mod6 / 32) (fun l =>
          fn (tyWide f.mod6) (tySigned f.mod6) (tySat f.mod6) (laneVal (ab r imm).1 (tyWide f.mod6) l)
            (laneVal (ab r imm).2 (tyWide f.mod6) l))) := by
      obtain ⟨h1, h2, h3⟩ := laneShapes_result x ((ab r imm).1 ++ (ab r imm).2) (tyWide f.mod6 / 32) (fun l =>
          fn (tyWide f.mod6) (tySigned f.mod6) (tySat f.mod6) (laneVal (ab r imm).1 (tyWide f.mod6) l)
            (laneVal (ab r imm).2 (tyWide f.mod6) l)) (tyWide_regs _) (fun hu l l' => by
          rw [List.all_append, Bool.and_eq_true] at hu
          simp only [laneVal_isU hu.1 _ l l', laneVal_isU hu.2 _ l l'])
      exact ⟨h1, h2, fun hu => h3 (ab_isU hu)⟩
  unfold int2Res
  dsimp only
  split
  · rename_i w sat a t b t' hw hs ho1 ho2
    split
    · rename_i sh hsh
      obtain ⟨hv, hU⟩ := ha _ _ _ hsh
      refine ⟨by simp [L3Form, hw], fun l _ => ?_, fun hu sh' hm => ?_⟩
      · rw [wordsAt_one, hv l]
        simp [L3Form, hw, hs, ho1, ho2, laneVal, Opd.at]
      · rw [List.mem_singleton] at hm
        subst hm
        have hab := ab_isU (imm := imm) hu
        rw [ho1, ho2] at hab
        simp only [List.all_append, List.all_cons, Bool.and_eq_true] at hab
        exact hU (isU_iff hab.1.1) (isU_iff hab.2.1)
    · exact plain_ok
  · exact plain_ok

theorem shl_affine (p q m : Word) (k : Nat) : p <<< k + m * q <<< k = (p + m * q) <<< k := by
  simp only [BitVec.shiftLeft_eq_mul_twoPow, BitVec.add_mul, BitVec.mul_assoc]

/-- A shift completes with its lane-wise value. -/
theorem shift_completes {i : Instr} {op opc len : Nat} {f : L3} {imm : Option Word}
    (he : ∀ s, exec i s = issue s opc len f.g (shiftBody op opc f imm)) : Shift2 i opc len f imm (shiftVal op) := by
  refine completes_of (res := shiftRes op f imm) he (fun x r hl hd hr => aluBody_ok hl hd hr) (fun x r => ?_)
  have plain_ok : RegForm.Result (L3Form opc len 0 (intLegal opc f.mod6) f (tyWide f.mod6 / 32) (tyWide f.mod6 / 32)
      1 imm) x r (fun l => shiftVal op (tyWide f.mod6) (laneVal (ab r imm).1 (tyWide f.mod6) l)
        (laneVal (ab r imm).2 32 l))
      (laneShapes x ((ab r imm).1 ++ (ab r imm).2) (tyWide f.mod6 / 32) (fun l =>
        shiftVal op (tyWide f.mod6) (laneVal (ab r imm).1 (tyWide f.mod6) l) (laneVal (ab r imm).2 32 l))) := by
    obtain ⟨h1, h2, h3⟩ := laneShapes_result x ((ab r imm).1 ++ (ab r imm).2) (tyWide f.mod6 / 32) (fun l =>
        shiftVal op (tyWide f.mod6) (laneVal (ab r imm).1 (tyWide f.mod6) l) (laneVal (ab r imm).2 32 l))
        (tyWide_regs _) (fun hu l l' => by
      rw [List.all_append, Bool.and_eq_true] at hu
      simp only [laneVal_isU hu.1 _ l l', laneVal_isU hu.2 _ l l'])
    exact ⟨h1, h2, fun hu => h3 (ab_isU hu)⟩
  unfold shiftRes
  dsimp only
  split
  · rename_i a ta b tb hw ho1 ho2
    split
    · rename_i p q k hp hq
      split
      · rename_i hk
        refine ⟨by simp [L3Form, hw], fun l _ => ?_, fun hu sh' hm => ?_⟩
        · rw [wordsAt_one, mkAff_at]
          simp only [L3Form, hw, ho1, ho2, laneVal, Opd.at, List.getD_cons_zero, hp, hq, Shape.at, shiftVal]
          rw [shl_affine, BitVec.toNat_shiftLeft]
          simp [hk]
        · have hab := ab_isU (imm := imm) hu
          rw [ho1, ho2] at hab
          simp only [List.all_append, List.all_cons, Bool.and_eq_true] at hab
          obtain ⟨w, hw'⟩ := isU_iff hab.1.1
          rw [hp] at hw'
          cases hw'
      · exact plain_ok
    · exact plain_ok
  · exact plain_ok

/-- A one-source integer instruction completes with its lane-wise value. -/
theorem int1_completes {i : Instr} {opc len : Nat} {f : L3} {one : Bool} {fn : Nat → Bool → Nat → Nat}
    {aff : Shape → Option Shape}
    (he : ∀ s, exec i s = issue s opc len f.g (int1 opc f one fn aff))
    (ha : ∀ a sh, aff a = some sh → (∀ l, (sh.at l).toNat = fn 32 false (a.at l).toNat % 2 ^ 32) ∧ (a.IsU → sh.IsU)) :
    Int1 i opc len f one fn := by
  unfold Int1
  have hk : (if one then 1 else tyWide f.mod6 / 32) = 1 ∨ (if one then 1 else tyWide f.mod6 / 32) = 2 := by
    split
    · exact .inl rfl
    · exact tyWide_regs _
  have hk1 : tyWide f.mod6 = 32 → (if one then 1 else tyWide f.mod6 / 32) = 1 := by intro h; simp [h]
  unfold int1 at he
  dsimp only at he
  generalize (if one then 1 else tyWide f.mod6 / 32) = kd at hk hk1 he ⊢
  refine completes_of (res := int1Res f kd fn aff) he (fun x r hl hd hr => aluBody_ok hl hd hr) (fun x r => ?_)
  have plain_ok : RegForm.Result (L3Form1 opc len 0 (intLegal opc f.mod6) f kd
      (tyWide f.mod6 / 32)) x r (fun l => fn (tyWide f.mod6) (tySat f.mod6) (laneVal (nthRun r 0) (tyWide f.mod6) l))
      (laneShapes x (nthRun r 0) kd (fun l =>
        fn (tyWide f.mod6) (tySat f.mod6) (laneVal (nthRun r 0) (tyWide f.mod6) l))) := by
    obtain ⟨h1, h2, h3⟩ := laneShapes_result x (nthRun r 0) kd (fun l =>
        fn (tyWide f.mod6) (tySat f.mod6) (laneVal (nthRun r 0) (tyWide f.mod6) l)) hk
        (fun hu l l' => by simp only [laneVal_isU hu _ l l'])
    exact ⟨h1, h2, fun hu => h3 (nthRun_isU hu 0)⟩
  unfold int1Res
  dsimp only
  split
  · rename_i o t hw hs ho
    split
    · rename_i sh hsh
      obtain ⟨hv, hU⟩ := ha _ _ hsh
      have h1 := hk1 hw
      refine ⟨by simp [L3Form1, h1], fun l _ => ?_, fun hu sh' hm => ?_⟩
      · rw [wordsAt_one, hv l]
        simp only [L3Form1, h1, Nat.mul_one]
        simp [hw, hs, ho, laneVal, Opd.at]
      · rw [List.mem_singleton] at hm
        subst hm
        have hab := nthRun_isU hu 0
        rw [ho] at hab
        simp only [List.all_cons, Bool.and_eq_true] at hab
        exact hU (isU_iff hab.1)
    · exact plain_ok
  · exact plain_ok

/-- The body of a three-source instruction answers its result. -/
theorem three_ok {f : L3} {kab kc : Nat} {res : Cx → List (List Opd) → List Shape} {opc len latch kd : Nat} {legal : Bool}
    {x : Cx} {r : List (List Opd)} (hl : (L3Form3 opc len latch legal f kd kab kc).legal = true)
    (hab : kab = 1)
    (hd : dstCheck x.c f.dst kd true = .ok ()) (hr : x.fetch (L3Form3 opc len latch legal f kd kab kc).srcs = .ok r) :
    three f kc res legal kd latch x =
      .ok (x.writeResult f.dst f.ocw (some latch) (L3Form3 opc len latch legal f kd kab kc).srcs (res x r)) := by
  subst hab
  simp only [L3Form3, Bool.and_eq_true, Option.isSome_iff_exists] at hl
  obtain ⟨⟨hl, c, hc⟩, hk⟩ := hl
  simp only [L3Form3, hc] at hr ⊢
  have hr' : x.fetch [f.srcA, f.srcB, { c with k := kc }] = .ok r := hr
  simp only [three, hl, needInsn, hd, hc, needOpnd, hk, hr']
  rfl

end Sys2Proof.Machine
end

