-- ==== Sys2Proof/Laws/Maps.lean ====
section
/-!
SUPPORT. The laws of sparse maps: what a read gives after a write, and that every write keeps a rising map rising.
-/

namespace Sys2Proof

variable {α : Type}

@[simp] theorem mget_mput_same (m : NatMap α) (k : Nat) (v : α) : mget (mput m k v) k = some v := by
  induction m with
  | nil => simp [mput, mget]
  | cons e r ih =>
    simp only [mput]
    split
    · simp [mget]
    · split
      · simp [mget]
      · rename_i h1 h2
        simp only [mget]
        rw [if_neg (fun h => h2 h.symm), ih]

theorem mget_mput_ne (m : NatMap α) (k j : Nat) (v : α) (h : j ≠ k) : mget (mput m k v) j = mget m j := by
  induction m with
  | nil => simp [mput, mget, Ne.symm h]
  | cons e r ih =>
    simp only [mput]
    split
    · simp only [mget]
      rw [if_neg (Ne.symm h)]
    · split
      · rename_i h1 h2
        subst h2
        simp only [mget]
        rw [if_neg (Ne.symm h), if_neg (Ne.symm h)]
      · simp only [mget]
        split
        · rfl
        · exact ih

theorem mget_mdel_ne (m : NatMap α) (k j : Nat) (h : j ≠ k) : mget (mdel m k) j = mget m j := by
  induction m with
  | nil => rfl
  | cons e r ih =>
    simp only [mdel]
    split
    · rename_i h1
      subst h1
      simp only [mget]
      rw [if_neg (Ne.symm h)]
    · simp only [mget]
      split
      · rfl
      · exact ih

theorem mget_mmod_same (m : NatMap α) (k : Nat) (f : α → α) : mget (mmod m k f) k = (mget m k).map f := by
  induction m with
  | nil => rfl
  | cons e r ih =>
    simp only [mmod]
    split
    · rename_i h
      simp [mget, h]
    · rename_i h
      simp only [mget]
      rw [if_neg h, if_neg h, ih]

theorem mget_mmod_ne (m : NatMap α) (k j : Nat) (f : α → α) (h : j ≠ k) : mget (mmod m k f) j = mget m j := by
  induction m with
  | nil => rfl
  | cons e r ih =>
    simp only [mmod]
    split
    · rename_i h1
      subst h1
      simp only [mget]
      rw [if_neg (Ne.symm h), if_neg (Ne.symm h)]
    · simp only [mget]
      split
      · rfl
      · exact ih

/-- Every key of a map is at least n. -/
def mAbove (n : Nat) (m : NatMap α) : Prop := ∀ e ∈ m, n ≤ e.1

theorem msorted_cons (e : Nat × α) (r : NatMap α) : msorted (e :: r) = true ↔ mAbove (e.1 + 1) r ∧ msorted r = true := by
  induction r generalizing e with
  | nil => simp [msorted, mAbove]
  | cons a r ih =>
    simp only [msorted, Bool.and_eq_true, decide_eq_true_eq]
    constructor
    · rintro ⟨h1, h2⟩
      have h3 := ((ih a).mp (by simpa [msorted] using h2)).1
      refine ⟨?_, h2⟩
      intro x hx
      rcases List.mem_cons.mp hx with rfl | hx
      · omega
      · have := h3 x hx
        omega
    · rintro ⟨h1, h2⟩
      exact ⟨h1 a (by simp), h2⟩

theorem mAbove_mput {m : NatMap α} {n k : Nat} {v : α} (h : mAbove n m) (hk : n ≤ k) : mAbove n (mput m k v) := by
  induction m with
  | nil => simpa [mput, mAbove] using hk
  | cons a r ih =>
    have hr : mAbove n r := fun e he => h e (List.mem_cons_of_mem _ he)
    have ha : n ≤ a.1 := h a (by simp)
    simp only [mput]
    split
    · intro e he
      rcases List.mem_cons.mp he with rfl | he
      · exact hk
      · exact h e he
    · split
      · intro e he
        rcases List.mem_cons.mp he with rfl | he
        · exact hk
        · exact hr e he
      · intro e he
        rcases List.mem_cons.mp he with rfl | he
        · exact ha
        · exact ih hr e he

/-- A write keeps a rising map rising. -/
theorem msorted_mput {m : NatMap α} (k : Nat) (v : α) (h : msorted m = true) : msorted (mput m k v) = true := by
  induction m with
  | nil => rfl
  | cons a r ih =>
    obtain ⟨h1, h2⟩ := (msorted_cons a r).mp h
    simp only [mput]
    split
    · rename_i hk
      refine (msorted_cons _ _).mpr ⟨?_, h⟩
      intro e he
      rcases List.mem_cons.mp he with rfl | he
      · exact hk
      · have := h1 e he
        simp only at *
        omega
    · split
      · rename_i hk
        subst hk
        exact (msorted_cons _ _).mpr ⟨h1, h2⟩
      · rename_i hk1 hk2
        refine (msorted_cons _ _).mpr ⟨mAbove_mput h1 ?_, ih h2⟩
        simp only at *
        omega

theorem mem_mdel {m : NatMap α} {k : Nat} {e : Nat × α} (h : e ∈ mdel m k) : e ∈ m := by
  induction m with
  | nil => exact h
  | cons a r ih =>
    simp only [mdel] at h
    split at h
    · exact List.mem_cons_of_mem _ h
    · rcases List.mem_cons.mp h with rfl | h
      · simp
      · exact List.mem_cons_of_mem _ (ih h)

/-- Taking an entry out keeps a rising map rising. -/
theorem msorted_mdel {m : NatMap α} (k : Nat) (h : msorted m = true) : msorted (mdel m k) = true := by
  induction m with
  | nil => rfl
  | cons a r ih =>
    obtain ⟨h1, h2⟩ := (msorted_cons a r).mp h
    simp only [mdel]
    split
    · exact h2
    · exact (msorted_cons _ _).mpr ⟨fun e he => h1 e (mem_mdel he), ih h2⟩

/-- An entry of a map after a write is the one written or was there before. -/
theorem mem_mput {m : NatMap α} {k : Nat} {v : α} {e : Nat × α} (h : e ∈ mput m k v) : e = (k, v) ∨ e ∈ m := by
  induction m with
  | nil => simpa [mput] using h
  | cons a r ih =>
    simp only [mput] at h
    split at h
    · rcases List.mem_cons.mp h with rfl | h
      · exact .inl rfl
      · exact .inr h
    · split at h
      · rcases List.mem_cons.mp h with rfl | h
        · exact .inl rfl
        · exact .inr (List.mem_cons_of_mem _ h)
      · rcases List.mem_cons.mp h with rfl | h
        · exact .inr (by simp)
        · rcases ih h with h | h
          · exact .inl h
          · exact .inr (List.mem_cons_of_mem _ h)

end Sys2Proof
end

