-- ==== Sys2Proof/Laws/Memory.lean ====
section
/-!
SUPPORT. Every operation on main memory keeps its canonical form: making a block a key's, putting a byte, a write at the homes
and the reset of a page pool.
-/

namespace Sys2Proof.Machine

theorem Memory.wf_iff (m : Memory) : m.wf = true ↔
    msorted m.cells = true ∧ msorted m.keys = true ∧ msorted m.poison = true ∧
      ∀ c ∈ m.cells, (mget m.keys (c.1 / 16)).isSome = true := by
  simp [Memory.wf, Bool.and_eq_true, and_assoc]

theorem Memory.keys_mput {m : Memory} {ln : Nat} {k : Nat × Nat} {j : Nat} (h : (mget m.keys j).isSome = true) :
    (mget (mput m.keys ln k) j).isSome = true := by
  by_cases e : j = ln
  · subst e
    simp
  · rw [mget_mput_ne _ _ _ _ e]
    exact h

/-- Cells of one block put one after another stay rising, and are old cells or cells of that block. -/
theorem foldl_mput_cells (ln : Nat) (g : Nat → Byte) (l : List Nat) (hl : ∀ i ∈ l, i < 16) (c : NatMap Byte)
    (hc : msorted c = true) :
    msorted (l.foldl (fun c i => mput c (16 * ln + i) (g i)) c) = true ∧
    ∀ e ∈ l.foldl (fun c i => mput c (16 * ln + i) (g i)) c, e ∈ c ∨ e.1 / 16 = ln := by
  induction l generalizing c with
  | nil => exact ⟨hc, fun e he => .inl he⟩
  | cons a r ih =>
    have ha : a < 16 := hl a (by simp)
    obtain ⟨h1, h2⟩ := ih (fun i hi => hl i (List.mem_cons_of_mem _ hi)) (mput c (16 * ln + a) (g a)) (msorted_mput _ _ hc)
    refine ⟨h1, fun e he => ?_⟩
    rcases h2 e he with h | h
    · rcases mem_mput h with rfl | h
      · right
        show (16 * ln + a) / 16 = ln
        omega
      · exact .inl h
    · exact .inr h

theorem Memory.claim_wf (m : Memory) (k : Nat × Nat) (ln : Nat) (h : m.wf = true) :
    (m.claim k ln).wf = true ∧ (mget (m.claim k ln).keys ln).isSome = true := by
  obtain ⟨h1, h2, h3, h4⟩ := (Memory.wf_iff m).mp h
  unfold Memory.claim
  split
  · refine ⟨(Memory.wf_iff _).mpr ⟨h1, msorted_mput _ _ h2, h3, fun c hc => Memory.keys_mput (h4 c hc)⟩, by simp⟩
  · rename_i t ht
    split
    · exact ⟨h, by rw [ht]; rfl⟩
    · have hl : ∀ i ∈ List.range 16, i < 16 := fun i hi => List.mem_range.mp hi
      revert hl
      generalize List.range 16 = l
      intro hl
      obtain ⟨g1, g2⟩ := foldl_mput_cells ln (fun i => m.byte k (16 * ln + i)) l hl m.cells h1
      refine ⟨(Memory.wf_iff _).mpr ⟨g1, msorted_mput _ _ h2, h3, fun c hc => ?_⟩, by simp⟩
      rcases g2 c hc with hc | hc
      · exact Memory.keys_mput (h4 c hc)
      · simp [hc]

theorem Memory.put_wf (m : Memory) (k : Nat × Nat) (pa : Nat) (b : Byte) (h : m.wf = true) : (m.put k pa b).wf = true := by
  obtain ⟨h1, h2⟩ := m.claim_wf k (pa / 16) h
  obtain ⟨g1, g2, g3, g4⟩ := (Memory.wf_iff _).mp h1
  refine (Memory.wf_iff _).mpr ⟨msorted_mput _ _ g1, g2, g3, fun c hc => ?_⟩
  rcases mem_mput hc with rfl | hc
  · exact h2
  · exact g4 c hc

theorem Memory.puts_wf (k : Nat × Nat) (cs : List Host.Cell) (m : Memory) (h : m.wf = true) :
    (cs.foldl (fun m c => m.put k c.1 c.2) m).wf = true := by
  induction cs generalizing m with
  | nil => exact h
  | cons c r ih => exact ih _ (m.put_wf k c.1 c.2 h)

theorem State.poolStores_inv (owner : Nat) (cs : List Host.Cell) (s : State) (h : s.Inv) : (s.poolStores owner cs).Inv := by
  unfold State.poolStores
  generalize s.pools = ps
  induction ps generalizing s with
  | nil => exact h
  | cons e r ih =>
    refine ih _ ?_
    dsimp only
    split
    · exact Memory.puts_wf _ _ _ h
    · exact h

/-- A write at the homes keeps memory in its canonical form. -/
theorem State.homeWrite_inv (s : State) (owner : Nat) (cs : List Host.Cell) (poisoned : Bool) (h : s.Inv) :
    (s.homeWrite owner cs poisoned).Inv := by
  unfold State.homeWrite
  refine State.poolStores_inv _ _ _ ?_
  have h1 := Memory.puts_wf (s.keyOf owner) cs s.mem h
  obtain ⟨g1, g2, g3, g4⟩ := (Memory.wf_iff _).mp h1
  refine (Memory.wf_iff _).mpr ⟨g1, g2, ?_, g4⟩
  clear h1 g1 g2 g4
  dsimp only
  generalize ((cs.map (fun c => c.1 / 32)).eraseDups) = secs
  generalize (cs.foldl (fun m c => m.put (s.keyOf owner) c.1 c.2) s.mem).poison = p at g3 ⊢
  induction secs generalizing p with
  | nil => exact g3
  | cons a r ih =>
    refine ih _ ?_
    dsimp only
    split
    · exact msorted_mput _ _ g3
    · split
      · exact msorted_mdel _ g3
      · exact g3

theorem reset_inv : State.reset.Inv := by
  show State.reset.mem.wf = true
  decide

end Sys2Proof.Machine
end

