-- ==== Sys2Proof/Laws/Once.lean ====
section
/-!
SUPPORT. Instructions that act in one lane (R101): what their reads give, and how an issue slot of an instruction that may
end in a wait completes.
-/

namespace Sys2Proof.Machine

theorem bind_ok {α β : Type} (a : α) (f : α → Iss β) : ((Except.ok a : Iss α) >>= f) = f a := rfl
theorem bind_err {α β : Type} (a : Ev) (f : α → Iss β) : ((Except.error a : Iss α) >>= f) = .error a := rfl

theorem needInsn_of {b : Bool} (h : b = true) : needInsn b = .ok () := by simp [needInsn, h]
theorem needOpnd_of {b : Bool} (h : b = true) (m n : Nat) : needOpnd b m n = .ok () := by simp [needOpnd, h]
theorem needIssue_of {b : Bool} (h : b = true) : needIssue b = .ok () := by simp [needIssue, h]
theorem counterRoom_of {x : Cx} {k : Nat} (h : x.c.cnt k < 63) : x.counterRoom k = .ok () := needIssue_of (by simpa using h)
theorem queueRoom_of {x : Cx} (h : x.c.sq.length < 64) : x.queueRoom = .ok () := needIssue_of (by simpa using h)

/-- What a bind that answers a result went through. -/
theorem bind_inv {α β : Type} {a : Iss α} {f : α → Iss β} {r : β} (h : (a >>= f) = .ok r) : ∃ v, a = .ok v ∧ f v = .ok r := by
  cases a with
  | ok v => exact ⟨v, rfl, h⟩
  | error e => cases h

/-- Sources that are read have passed each of the checks of R437. -/
theorem fetch_parts {x : Cx} {srcs : List Src} {r : List (List Opd)} (h : x.fetch srcs = .ok r) :
    x.peek srcs = .ok r ∧ x.deadReads srcs = .ok () ∧ x.poisonCheck r.flatten = .ok () := by
  obtain ⟨r', h1, h⟩ := bind_inv h
  obtain ⟨⟨⟩, h2, h⟩ := bind_inv h
  cases h
  obtain ⟨⟨⟩, h3, h1⟩ := bind_inv h1
  obtain ⟨⟨⟩, h4, h1⟩ := bind_inv h1
  obtain ⟨⟨⟩, h5, h1⟩ := bind_inv h1
  cases h1
  refine ⟨?_, ?_, h2⟩
  · unfold Cx.peek
    rw [h3, bind_ok, h4]
    rfl
  · unfold Cx.deadReads
    rw [h5]
    rfl

/-- What Cx.Reads gives the body of an instruction. -/
theorem reads_parts {x : Cx} {srcs : List Src} {r : List (List Opd)} (h : x.Reads srcs r) :
    x.act ≠ 0 ∧ x.once.fetch srcs = .ok r ∧ x.once.peek srcs = .ok r ∧ x.once.deadReads srcs = .ok () ∧
      x.once.poisonCheck r.flatten = .ok () := ⟨h.1, h.2, fetch_parts h.2⟩

/-- An instruction that executes and whose body lets the path go on completes. -/
theorem issue_ends {s : State} {opc len : Nat} {g : Guard} {x : Cx} {body : Cx → Iss Rsl} {t : State} {c : Crew}
    (h : s.issueCx opc len g = some x) (hb : body x = .ok ⟨t, c, true⟩) : issue s opc len g body = .next (x.ends t c) :=
  issue_ok h hb

/-- The same for an instruction that may end in a wait. -/
theorem issueW_ends {s : State} {opc len : Nat} {g : Guard} {x : Cx} {body : Cx → Iss Rsl} {wake : State → Nat → State}
    {t : State} {c : Crew} (h : s.issueCx opc len g = some x) (hb : body x = .ok ⟨t, c, true⟩) :
    issueW s opc len g body wake = .next (s.awake (x.ends t c) wake) := by
  unfold issueW
  rw [issue_ends h hb]
  rfl

end Sys2Proof.Machine
end

