-- ==== Sys2Proof/Tests/Slice0.lean ====
section
/-!
SUPPORT. The author's own tests: words of the spec's encodings decode as the spec works them out, each check of WellFormed
refuses an ill-formed term, one step of an instruction of each family gives the value that the spec works out or that its
rule gives by hand, and, for every statement with hypotheses, a concrete state and operands that meet them.
-/

namespace Sys2Proof.Tests

open Sys2Proof.Machine

/-- Whether an outcome of the checks is a value. -/
def okB {ε α : Type} (e : Except ε α) : Bool := match e with | .ok _ => true | .error _ => false

theorem okB_met {ε α : Type} {e : Except ε α} (h : okB e = true) : ∃ v, e = .ok v := by
  cases e with
  | ok v => exact ⟨v, rfl⟩
  | error _ => cases h

/-! A small state: context 0 runs, and its crew 0, of four lanes, stands at 0x10000 with some registers set. -/

/-- A register that is U. -/
def ru (v : Word) : Reg := { shape := .u v, poison := 0 }

def tCrew : Crew :=
  { hostCrew with w := 4, launched := 15, paths := [newPath 0x10000 15 0 true],
                  regs := [(0, ru 7), (1, ru 5), (2, ru 3), (3, { shape := .a 0 1, poison := 0 }), (4, { shape := .g [9, 8, 7, 6], poison := 0 })],
                  preds := [(0, 5), (1, 15)] }

def tState : State := { State.reset with crews := [(0, tCrew)], ctxs := [(0, hostCtx)] }

/-- Unguarded L3 of destination v8 and sources v0 and v4. -/
def f3 (m6 : BitVec 6) : L3 :=
  { g := Guard.always, la := 0, dst := 8, ocw := 0, sa := 0, xa := 0, ka := false, sb := 4, xb := 0, kb := false, mod6 := m6 }

def c3 : C3 := { g := Guard.always, d := 8, a := 0, b := 4 }
def ci : CI := { g := Guard.always, d := 8, imm := 0xFFF }
def s16 : S16 := { d := 8, a := 0 }

/-! Register forms. -/

/-- Whether a crew executes a form in a state and its hypotheses are met, no flag trapping. -/
def ready (m : RegForm) (s : State) : Bool :=
  match s.issueCx m.opc m.len m.g with
  | none => false
  | some x => m.legal && okB (dstCheck x.c m.dst m.k true) && okB (x.fetch m.srcs) && x.c.fpctl == 0 && x.c.hgroup.isNone &&
      decide (m.k ≤ x.c.nregs)

theorem ready_met {m : RegForm} {s : State} (h : ready m s = true) :
    ∃ x r, s.issueCx m.opc m.len m.g = some x ∧ m.legal = true ∧ dstCheck x.c m.dst m.k true = .ok () ∧ x.fetch m.srcs = .ok r ∧
      (∀ fl can, fl &&& x.enabled can = 0) ∧ x.c.hgroup = none ∧ m.k ≤ x.c.nregs := by
  unfold ready at h
  split at h
  · cases h
  · rename_i x hx
    simp only [Bool.and_eq_true, beq_iff_eq, decide_eq_true_eq] at h
    obtain ⟨v, hv⟩ := okB_met h.1.1.1.1.2
    obtain ⟨r, hr⟩ := okB_met h.1.1.1.2
    refine ⟨x, r, hx, h.1.1.1.1.1, hv, hr, fun fl can => ?_, by simpa using h.1.2, h.2⟩
    simp [Cx.enabled, h.1.1.2]

def int2 (o len : Nat) (f : L3) (imm : Option Word) : RegForm :=
  L3Form o len 0 (intLegal o f.mod6) f (tyWide f.mod6 / 32) (tyWide f.mod6 / 32) (tyWide f.mod6 / 32) imm
def shift2 (o len : Nat) (f : L3) (imm : Option Word) : RegForm :=
  L3Form o len 0 (intLegal o f.mod6) f (tyWide f.mod6 / 32) (tyWide f.mod6 / 32) 1 imm
def int1 (o len : Nat) (f : L3) (one : Bool) : RegForm :=
  L3Form1 o len 0 (intLegal o f.mod6) f (if one then 1 else tyWide f.mod6 / 32) (tyWide f.mod6 / 32)
def intAB (o len : Nat) (f : L3) (k ka kb : Nat) : RegForm := L3Form o len 0 (intLegal o f.mod6) f k ka kb none
def int3 (o : Nat) (f : L3) (k kc : Nat) : RegForm := L3Form3 o 8 0 (intLegal o f.mod6) f k 1 kc

/-- IntegerInstructionResult, the two stated integer statements and AffineResults: every form, in 32 and in 64 bits. -/
theorem met_IntegerInstructionResult :
    ([0x00, 0x01, 0x04, 0x05, 0x07, 0x08, 0x0B, 0x0C, 0x0D, 0x0E, 0x0F, 0x10].all (fun o =>
      ready (int2 o 8 (f3 0) none) tState && ready (int2 o 8 (f3 3) none) tState)) = true ∧
    ([0x12, 0x13, 0x14, 0x15].all (fun o => ready (shift2 o 8 (f3 0) none) tState && ready (shift2 o 8 (f3 3) none) tState)) = true ∧
    ([(0x09, false), (0x0A, false), (0x11, false), (0x17, true), (0x18, true), (0x19, true), (0x1A, false)].all (fun e =>
      ready (int1 e.1 8 (f3 0) e.2) tState && ready (int1 e.1 8 (f3 2) e.2) tState)) = true ∧
    ([(0, 1), (1, 2), (2, 2), (3, 1)].all (fun e => ready (int3 0x06 (f3 e.1) e.2 e.2) tState)) = true ∧
    ([0x16, 0x1C, 0x23].all (fun o => ready (int3 o (f3 0) 1 1) tState)) = true ∧
    (ready (intAB 0x1B 8 (f3 1) 1 1 1) tState && ready (intAB 0x1D 8 (f3 0) 1 2 1) tState &&
      ready (intAB 0x1D 8 (f3 16) 1 4 1) tState && ready (intAB 0x1E 8 (f3 0x31) 2 2 1) tState) = true := by decide

theorem met_CompactIntegerResult :
    ([0x00, 0x01, 0x04, 0x05, 0x07, 0x08, 0x0B, 0x0C, 0x0D, 0x0E, 0x0F, 0x10].all (fun o =>
      ready (int2 o 4 (c3.toL3 0) none) tState && ready (int2 o 4 (ci.toL3 0) (some (ci.imm.signExtend 32))) tState &&
      ready (int2 o 2 (s16.toC3.toL3 0) none) tState)) = true ∧
    ([0x05, 0x07, 0x08, 0x0B, 0x0C].all (fun o => ready (int2 o 4 (c3.toL3 1) none) tState)) = true ∧
    ([0x00, 0x01].all (fun o => ready (int2 o 4 (c3.toL3 4) none) tState)) = true ∧
    ([0x12, 0x13, 0x14, 0x15].all (fun o => ready (shift2 o 4 (c3.toL3 0) none) tState &&
      ready (shift2 o 4 (ci.toL3 0) (some (ci.imm.signExtend 32 &&& 31))) tState && ready (shift2 o 2 (s16.toC3.toL3 0) none) tState)) = true ∧
    ([(0x09, false), (0x0A, false), (0x11, false), (0x17, true), (0x18, true), (0x19, true), (0x1A, false)].all (fun e =>
      ready (int1 e.1 4 (c3.toL3u 0) e.2) tState)) = true ∧
    (ready (intAB 0x1D 4 (c3.toL3 0) 1 2 1) tState && ready (intAB 0x1B 4 (c3.toL3 0) 1 1 1) tState &&
      ready (intAB 0x1B 4 (c3.toL3 1) 1 1 1) tState && [8, 16, 24, 32].all (fun m => ready (intAB 0x1E 4 (c3.toL3 m) 2 2 1) tState)) = true := by
  decide

/-- A state's context for an instruction of an L3 form. -/
def cx (o len : Nat) (g : Guard) : Option Cx := tState.issueCx o len g

/-- Whether an instruction executes in the small state where a test of its context holds. -/
def met (o len : Nat) (g : Guard) (p : Cx → Bool) : Bool := match tState.issueCx o len g with | some x => p x | none => false

/-- CarrySelectionAndPredicateResult: IADDC, ISUBB, SEL, ICMP to a predicate and to a register, PLOP, and PMOV's four forms. -/
theorem met_CarrySelectionAndPredicateResult :
    ([0x02, 0x03].all (fun o => met o 8 Guard.always (fun x => intLegal o 0x2B && okB (dstCheck x.c 8 1 true) &&
      !x.c.owed (.pred 11) && okB (x.fetch (srcsAB (f3 0x2B) 1 1 none))))) = true ∧
    ([(0x1B, 1), (0x3B, 2)].all (fun e => met 0x1F 8 Guard.always (fun x => intLegal 0x1F e.1 && okB (dstCheck x.c 8 e.2 true) &&
      !x.c.owed (.pred 11) && okB (x.fetch (srcsAB (f3 e.1) e.2 e.2 none))))) = true ∧
    met 0x20 8 Guard.always (fun x => intLegal 0x20 0x33 && predOf 0x12B == some 11 && okB (dstCheck x.c 8 1 true) &&
      predOf 8 == none && okB (x.fetch (srcsAB (f3 0x33) 2 2 none))) = true ∧
    met 0x21 8 Guard.always (fun x => intLegal 0x21 15 && predOf 0x120 == some 0 && okB (predSrc 0x12B true 1) &&
      okB (predSrc 0x110 true 2) && !x.predOwed (some 11) && !x.predOwed none) = true ∧
    met 0x22 8 Guard.always (fun x => okB (dstCheck x.c 8 1 true) && okB (dstCheck x.c 8 2 true) && predOf 0x12B == some 11 &&
      !x.c.owed (.pred 11) && okB (x.fetch [(f3 2).srcA]) && okB (x.once.fetch [{ (f3 3).srcA with k := 2 }])) = true := by
  decide

def fp2 (o len : Nat) (f : L3) : RegForm := L3Form o len 1 (floatLegal o f.mod6 f.sb) f (fk f) (fk f) (fk f) none
def fp1 (o len latch : Nat) (f : L3) (k : Nat) : RegForm := L3Form1 o len latch (floatLegal o f.mod6 f.sb) f k (fk f)
def fpScale (len : Nat) (f : L3) (imm : Option Word) : RegForm :=
  L3Form 0x41 len 1 (floatLegal 0x41 f.mod6 f.sb) f (fk f) (fk f) 1 imm
def fpToInt (len : Nat) (f : L3) : RegForm :=
  L3Form1 0x3F len 1 (floatLegal 0x3F f.mod6 f.sb) f (if f.mod6.toNat / 4 % 4 < 2 then 1 else 2) (ftOf (f.mod6.toNat % 4)).k
def fpOfInt (len : Nat) (f : L3) : RegForm :=
  L3Form1 0x40 len 1 (floatLegal 0x40 f.mod6 f.sb) f (ftOf (f.mod6.toNat % 4)).k (if f.mod6.toNat / 4 % 4 < 2 then 1 else 2)
def fpCvt (len : Nat) (f : L3) : RegForm :=
  if f.mod6.toNat % 8 < 2 then L3Form1 0x3E len 1 (floatLegal 0x3E f.mod6 f.sb) f (fmtRegs (cvtFmt (f.sb.toNat / 8 % 8))) (fmtRegs (cvtFmt (f.sb.toNat % 8)))
  else L3Form 0x3E len 1 (floatLegal 0x3E f.mod6 f.sb) f 1 1 1 none

/-- FloatInstructionResult: f32, f64, the packed types and rounding modes at the ends of their ranges. -/
theorem met_FloatInstructionResult :
    ([0x30, 0x31, 0x32].all (fun o => ready (fp2 o 8 (f3 0)) tState && ready (fp2 o 8 (f3 0x29)) tState && ready (fp2 o 8 (f3 0x2D)) tState)) = true ∧
    ([0x34, 0x35, 0x36, 0x37, 0x3A].all (fun o => ready (fp2 o 8 (f3 0)) tState && ready (fp2 o 8 (f3 5)) tState)) = true ∧
    ([(0, 1), (1, 2), (2, 1), (3, 1)].all (fun e => ready (L3Form3 0x33 8 1 (floatLegal 0x33 e.1 4) (f3 e.1) e.2 e.2 e.2) tState)) = true ∧
    ready (L3Form3 0x43 8 1 (floatLegal 0x43 1 4) (f3 1) 1 1 1) tState = true ∧
    ([0x38, 0x39].all (fun o => ready (fp1 o 8 1 (f3 1) 2) tState)) = true ∧ ready (fp1 0x3D 8 1 (f3 0x29) 2) tState = true ∧
    ready (fp1 0x42 8 1 (f3 3) 1) tState = true ∧ ready (fp1 0x3C 8 1 (f3 5) 1) tState = true ∧
    ready (fpScale 8 (f3 0x29) none) tState = true ∧ ready (fpToInt 8 (f3 0x3F)) tState = true ∧ ready (fpOfInt 8 (f3 0x3F)) tState = true ∧
    ready (fpCvt 8 { f3 0x28 with sb := 0x36 }) tState = true ∧ ready (fpCvt 8 { f3 1 with sb := 0x28 }) tState = true ∧
    ready (fpCvt 8 (f3 2)) tState = true ∧ ready (fpCvt 8 (f3 3)) tState = true := by
  decide

theorem met_CompactFloatResult :
    ([0x30, 0x31, 0x32, 0x34, 0x35, 0x36, 0x37, 0x3A].all (fun o => ready (fp2 o 4 (c3.toL3 0)) tState)) = true ∧
    ([0x30, 0x31, 0x32, 0x34, 0x35].all (fun o => ready (fp2 o 4 (c3.toL3 4)) tState && ready (fp2 o 4 (c3.toL3 5)) tState &&
      ready (fp2 o 2 (s16.toC3.toL3 0)) tState)) = true ∧
    ([0x38, 0x39].all (fun o => [0, 4, 5].all (fun m => ready (fp1 o 4 1 (c3.toL3u m) 1) tState))) = true ∧
    ([0, 8, 16, 24].all (fun m => ready (fp1 0x3D 4 1 (c3.toL3u m) 1) tState)) = true ∧
    ready (fp1 0x42 4 1 (c3.toL3u 0) 1) tState = true ∧ ready (fp1 0x3C 4 1 (c3.toL3u 0) 1) tState = true ∧
    ready (fpScale 4 (c3.toL3 0) none) tState = true ∧ ready (fpScale 4 (ci.toL3 0) (some (ci.imm.signExtend 32))) tState = true ∧
    ([16, 20, 0, 4].all (fun m => ready (fpToInt 4 (c3.toL3u m)) tState)) = true ∧
    ([0, 4].all (fun m => ready (fpOfInt 4 (c3.toL3u m)) tState)) = true ∧
    ([0x18, 0x10, 0x03, 0x02].all (fun b => ready (fpCvt 4 { c3.toL3 0 with sb := b }) tState)) = true ∧
    ready (fpCvt 4 (c3.toL3 2)) tState = true ∧ ready (fpCvt 4 (c3.toL3 3)) tState = true ∧
    ([0x50, 0x51, 0x52, 0x53, 0x54].all (fun o => ready (fp1 o 4 2 (c3.toL3u 0) 1) tState)) = true := by
  decide

/-- The small state with a crew of 32 lanes, for the blocks of HAD32 and BMAX. -/
def wState : State := { tState with crews := [(0, { tCrew with w := 32, launched := allLanes 32, paths := [newPath 0x10000 (allLanes 32) 0 true] })] }

theorem met_FloatComparisonAndFunctionResult :
    met 0x3B 8 Guard.always (fun x => floatLegal 0x3B 0x39 4 && okB (x.fetch (srcsAB (f3 0x39) 2 2 none)) && x.c.fpctl == 0 &&
      predOf 0x12B == some 11 && predOf 8 == none && okB (dstCheck x.c 8 1 true)) = true ∧
    ([0x50, 0x51, 0x52].all (fun o => ready (fp1 o 8 2 (f3 0x29) 2) tState)) = true ∧
    ([0x53, 0x54].all (fun o => ready (fp1 o 8 2 (f3 0) 1) tState)) = true ∧
    ([(0x55, 2), (0x56, 3)].all (fun e => match wState.issueCx e.1 8 Guard.always with
      | some x => floatLegal e.1 e.2 4 && decide (x.c.w = 32) && okB (dstCheck x.c 8 1 true) && okB ((x.blocks (f3 e.2).srcA).fetchRaw [(f3 e.2).srcA]) &&
          (let o := nthOpd (((x.blocks (f3 e.2).srcA).fetchRaw [(f3 e.2).srcA]).toOption.getD []) 0
           okB (x.poisonCheck [{ o with poison := blockPoison o }]))
      | none => false)) = true ∧
    met 0x57 8 Guard.always (fun x => floatLegal 0x57 0x1E 4 && okB (dstCheck x.c 8 1 true) && okB (x.fetch [(f3 0x1E).srcA, (f3 0x1E).srcB, qntDst (f3 0x1E)])) = true ∧
    met 0x58 8 Guard.always (fun x => floatLegal 0x58 0x1E 4 && okB (dstCheck x.c 8 1 true) && okB (x.fetch (srcsAB (f3 0x1E) 1 1 none))) = true := by
  decide

/-! Moves and cross-lane operations. -/

/-- What a check gives, or an empty list. -/
def got {ε α : Type} (e : Except ε (List α)) : List α := match e with | .ok v => v | .error _ => []

def li (n md : Nat) : LI := { g := Guard.always, la := 0, md := BitVec.ofNat 4 md, dst := 8, sa := BitVec.ofNat 9 n, xa := 0, ka := false, imm := 0x7FFFF }

theorem met_MoveAndSpecialRegisterResult :
    met 0x70 8 Guard.always (fun x => okB (dstCheck x.c 8 1 true) && okB (x.fetch [(f3 0).srcN 1])) = true ∧
    ([1, 2].all (fun m => movxCount (BitVec.ofNat 6 m) != 0 && met 0x76 8 Guard.always (fun x =>
      okB (dstCheck x.c 8 (movxCount (BitVec.ofNat 6 m)) true) &&
      okB (x.fetch [{ f3 (BitVec.ofNat 6 m) with sa := 0 }.srcN (movxCount (BitVec.ofNat 6 m))])))) = true ∧
    ([4, 2].all (fun len => met 0x70 len Guard.always (fun x => okB (dstCheck x.c (c3.toL3u 0).dst 1 true) &&
      okB (x.fetch [(c3.toL3u 0).srcN 1])))) = true ∧
    ([8, 4].all (fun len => met 0x71 len Guard.always (fun x => okB (dstCheck x.c 8 1 true) && okB (dstCheck x.c 1 1 true) &&
      okB (x.fetch [movHiSrc 1])))) = true ∧
    ([0x00, 0x1B, 0x30, 0x34].all (fun n => met 0x72 8 Guard.always (fun x =>
      match x.special n with | some shs => okB (dstCheck x.c 8 shs.length true) | none => false))) = true ∧
    ([(0x0A, 1), (0x0B, 1), (0x16, 1), (0x17, 1), (0x1A, 1), (0x09, 2)].all (fun e => met 0x73 8 Guard.always (fun x =>
      smovWords e.1 == some e.2 && okB (x.peek [(f3 0).srcN e.2]) && okB (x.once.deadReads [(f3 0).srcN e.2]) &&
      okB (x.once.poisonCheck (got (x.peek [(f3 0).srcN e.2])).flatten) &&
      x.act != 0 && (e.1 != 9 || okB (exmaskWrite x (x.c.emptySrcs [(f3 0).srcN 2]) 3))))) = true := by decide

theorem met_ShapeIndexAndCrossbarResult :
    met 0x74 8 Guard.always (fun x => okB (dstCheck x.c 8 1 true) && okB (srcCheck x.c { (f3 0).srcA with xc := 0, dead := false }) &&
      !x.owedSrc { (f3 0).srcA with xc := 0, dead := false } && okB (x.fetch [(f3 1).srcA]) && okB (x.fetch [(f3 2).srcA])) = true ∧
    met 0x78 8 Guard.always (fun x => okB (dstCheck x.c 8 1 true) && (let a := x.readSrc (f3 0).srcA 0
       let b := x.readSrc (f3 0).srcB 0
       let from_ := fun l => (b.at l).toNat % x.c.w
       let has := fun l => x.c.live.getLsbD (xmap x.c (f3 0).xa.toNat (from_ l))
       (match x.peek [(f3 0).srcA, (f3 0).srcB] with | .ok r => r == [[a], [b]] | .error _ => false) && okB (x.deadCheck (x.emptyRead (f3 0).srcB)) &&
         okB (x.deadCheck (x.emptyAt (f3 0).srcA (((laneList x.act).filter has).map from_))) &&
         okB (x.poisonCheck [b, { sh := a.sh, poison := lanesWhere x.c.w (fun l => has l && a.poison.getLsbD (from_ l)) }]))) = true ∧
    ([8, 15].all (fun _ => met 0x79 8 Guard.always (fun x => okB (({ x with act := allLanes x.c.w } : Cx).fetchRaw [(f3 0).srcA])))) = true ∧
    met 0x7A 8 Guard.always (fun _ => true) = true ∧
    met 0x75 8 Guard.always (fun x => okB (x.fetch [(li 4 0).srcA]) && okB (x.fetch [(li 4 7).srcA])) = true ∧
    met 0x77 8 Guard.always (fun x => okB (x.once.fetch [(li 4 2).srcA])) = true := by
  decide

/-- Whether the hypotheses of SHFL are met. -/
def shuffles (len : Nat) (f : L3) : Bool := met 0x60 len f.g (fun x =>
  let m := f.mod6.toNat
  let g := shflSeg m x.c.w
  let from_ := fun l => shflLane (m % 4) g l (shflDist m g ((nthOpd (got (x.fetch [f.srcA, f.srcB])) 1).at l).toNat)
  let has := fun l => x.c.live.getLsbD (xmap x.c f.xa.toNat (from_ l))
  crossLegal 0x60 f.mod6 && decide (g ≤ x.c.w) && okB (dstCheck x.c f.dst 1 true) && okB (x.fetch [f.srcA, f.srcB]) &&
    okB (x.deadCheck (x.emptyAt f.srcA ((x.lanes.filter has).map from_))) &&
    okB (x.poisonCheck [{ sh := (nthOpd (got (x.fetch [f.srcA, f.srcB])) 0).sh,
                          poison := lanesWhere x.c.w (fun l => has l && (nthOpd (got (x.fetch [f.srcA, f.srcB])) 0).poison.getLsbD (from_ l)) }]))

/-- Whether the hypotheses of REDC or SCAN are met. -/
def reduces (o len : Nat) (f : L3) : Bool := met o len f.g (fun x =>
  crossLegal o f.mod6 && okB (dstCheck x.c f.dst (redcRegs f.mod6) true) && okB (x.fetch [{ f.srcA with k := redcRegs f.mod6 }]))

theorem met_ShuffleAndReductionResult :
    (shuffles 8 (f3 0) && shuffles 8 (f3 1) && shuffles 8 (f3 2) && shuffles 8 (f3 3) && shuffles 4 (c3.toL3 0) && shuffles 4 (c3.toL3 3)) = true ∧
    ([0x64, 0x65].all (fun o => reduces o 8 (f3 0) && reduces o 8 (f3 3) && reduces o 4 (c3.toL3u 0) && reduces o 4 (c3.toL3u 2))) = true ∧
    (reduces 0x64 4 (c3.toL3u 0x10) && reduces 0x64 4 (c3.toL3u 0x12)) = true := by decide

theorem met_VoteMatchAndHistogramResult :
    met 0x61 8 Guard.always (fun x => crossLegal 0x61 0 && crossLegal 0x61 2 && predOf 0x12B == some 11 && predOf 8 == none &&
      okB (dstCheck x.c 8 1 true) && okB (x.laneBit (f3 0).srcA)) = true ∧
    met 0x62 8 Guard.always (fun x => okB (dstCheck x.c 8 2 false) && okB (x.laneBit (f3 0).srcA) && okB (x.fetch [(f3 3).srcA, (f3 3).srcB])) = true ∧
    ([0, 1, 2, 3, 4, 7].all (fun m => met 0x63 8 Guard.always (fun x => crossLegal 0x63 (BitVec.ofNat 6 m) &&
      okB (dstCheck x.c 8 2 false) && okB (dstCheck x.c 8 1 true) && okB (x.fetch [{ (f3 0).srcA with k := 2 }])))) = true ∧
    met 0x66 8 Guard.always (fun x => okB (dstCheck x.c 8 1 true) && predOf 4 == none && predOf 0x121 == some 1 && !x.c.owed (.pred 1) &&
      okB (srcCheck x.c (f3 0).srcA) && x.fetch [(f3 0).srcA, (f3 0).srcB] matches .ok (_ :: _) && okB (x.fetch [(f3 0).srcA])) = true ∧
    ([0, 1, 2, 4].all (fun m => met 0x69 8 Guard.always (fun x => crossLegal 0x69 (BitVec.ofNat 6 m) && okB (dstCheck x.c 8 1 true) &&
      okB (x.fetch [(f3 0).srcA, (f3 0).srcB]) && !x.c.dre))) = true ∧
    ([0, 4, 2].all (fun m => met 0x6A 8 Guard.always (fun x => crossLegal 0x6A (BitVec.ofNat 6 m) && okB (dstCheck x.c 8 1 true) &&
      okB (x.fetch [(f3 0).srcA])))) = true ∧
    ([0, 1].all (fun m => met 0x67 8 Guard.always (fun x => crossLegal 0x67 (BitVec.ofNat 6 m) && place 8 == some (.reg 8) &&
      okB (dstCheck x.c 8 (2 ^ (m + 1)) true) && okB (x.fetch [(f3 0).srcA, (f3 0).srcB]) &&
      (List.range (2 ^ (m + 1))).all (fun b => !x.c.owed (.reg (8 + b))) &&
      (lowest (lanesWhere x.c.w (fun l => decide (((nthOpd (got (x.fetch [(f3 0).srcA, (f3 0).srcB])) 0).at l).toNat < 2 ^ (m + 1)) &&
        (regPoison (mget x.c.regs (8 + ((nthOpd (got (x.fetch [(f3 0).srcA, (f3 0).srcB])) 0).at l).toNat))).getLsbD l) &&& x.act)).isNone))) = true ∧
    ([0, 0x10].all (fun m => met 0x68 8 Guard.always (fun x => crossLegal 0x68 (BitVec.ofNat 6 m) && decide (2 ≤ x.c.w) &&
      place 0 == some (.reg 0) && okB (srcCheck x.c { (f3 0).srcA with k := 2 }) && !x.owedSrc { (f3 0).srcA with k := 2 } &&
      okB (x.poisonCheck ((List.range 2).map (fun b => x.readSrc { (f3 0).srcA with k := 2 } b)))))) = true := by decide

/-! Memory, control flow and traps: the small state with a page of local memory at 0x20000 in core 0's TLB, a pair of
registers at 16 that points there, and a length at 18. -/

def mRegs : NatMap Reg := tCrew.regs ++ [(16, ru 0x20000), (17, ru 0), (18, ru 128), (19, ru 1), (20, ru 0x20080), (21, ru 0)]
def mCrew : Crew := { tCrew with regs := mRegs }

/-- A leaf of local memory that may be read and written. -/
def mLeaf : Dword := 0x2001F

def mState : State :=
  { tState with crews := [(0, mCrew)], tlbs := [(0, [{ asn := 0, page := 2, bits := 16, leaf := mLeaf }])] }

/-- Whether an instruction's context in a state meets a test. -/
def metIn (s : State) (o len : Nat) (g : Guard) (p : Cx → Bool) : Bool := match s.issueCx o len g with | some x => p x | none => false

/-- The one acting lane of R101. -/
def lane1 (x : Cx) : Cx := { x with act := oneLane x.lane }

def lm (dst base wt md pol : Nat) : LM :=
  { g := Guard.always, la := 0, dst := BitVec.ofNat 9 dst, md := BitVec.ofNat 4 md, base := BitVec.ofNat 8 base, wt := BitVec.ofNat 3 wt,
    scp := 3, pol := BitVec.ofNat 2 pol, off := 0 }

def loadMet (s : State) (o : Nat) (f : LM) : Bool := metIn s o 8 f.g (fun x =>
  let base := nthRun (got (x.peek [f.srcBase])) 0
  let lanes := loadLanes o f x base
  let only : Cx := { x with act := lanes.foldl (fun m l => m ||| oneLane l) 0 }
  memLegal o f && okB (dstCheck x.c f.dst (wtRegs f.wt) true) && okB (x.peek [f.srcBase]) && decide (x.c.cnt cG < 63) &&
    okB (x.fenceLoad x.c (lanes.map (lmAddr f base)) (got ((x.translateAll x.s .load (wtBytes f.wt) (lanes.map (fun l => (l, lmAddr f base l)))).map (·.2)))) &&
    okB (x.aligned (wtBytes f.wt) (lmAddr f base)) && okB (x.deadReads [f.srcBase]) &&
    okB (x.translateAll x.s .load (wtBytes f.wt) (lanes.map (fun l => (l, lmAddr f base l)))) && okB (only.poisonCheck base))

/-- A guard no lane meets. -/
def never : Guard := { grd := 2, sns := false }

theorem met_LoadsIssue :
    ([0x80, 0x82].all (fun o => [4, 6].all (fun wt => loadMet mState o (lm 8 16 wt 0 0) &&
      loadMet mState o { lm 8 16 wt 0 0 with g := never }))) = true := by decide

def storeMet (s : State) (o : Nat) (f : LM) (data : Src) (n : Nat) (acc : Acc) (ctr : Nat) : Bool := metIn s o 8 f.g (fun x =>
  let r := got (x.peek [data, f.srcBase])
  memLegal o f && okB (x.peek [data, f.srcBase]) && decide (x.c.cnt ctr < 63) && decide (x.c.sq.length < 64) &&
    okB (x.aligned n (lmAddr f (nthRun r 1))) && okB (x.deadReads [data, f.srcBase]) &&
    okB (x.translateAll x.s acc n ((laneList x.act).map (fun l => (l, lmAddr f (nthRun r 1) l)))) && okB (x.poisonCheck r.flatten))

theorem met_StoresIssue :
    (storeMet mState 0x81 (lm 0 16 4 0 0) ((lm 0 16 4 0 0).srcData 1 true true) 4 .store cS &&
      storeMet mState 0x81 { lm 0 16 6 0 0 with g := never } ((lm 0 16 6 0 0).srcData 4 false true) 16 .store cS &&
      storeMet mState 0x86 (lm 0 16 5 0 0) ((lm 0 16 5 0 0).srcData 3 false false) 8 .store cS) = true ∧
    metIn mState 0x7B 8 Guard.always (fun x =>
      let f := lm 0 16 4 0 0
      let b := got (x.peek [f.srcBase])
      memLegal 0x7B f && okB (slotDst f x) && okB (x.peek [f.srcBase]) && !x.c.owed (.reg 0) && x.act != 0 && okB (x.deadReads [f.srcBase]) &&
        decide ((lmAddr f (nthRun b 0) x.lane).toNat % 16 = 0) &&
        okB (x.translateAll x.s .store 0 ((sectorPieces 20 (lmAddr f (nthRun b 0) x.lane) (slotBytes x.c (mget x.c.regs 0)).length 0).map
          (fun p => (x.lane, p.2.1)))) && okB ((lane1 x).poisonCheck b.flatten)) = true := by decide

theorem met_AtomicsIssue :
    ([(0, 4, 1), (9, 5, 4), (0, 4, 1)].all (fun e =>
      storeMet mState 0x84 (lm 0 16 e.2.1 e.1 0) ((lm 0 16 e.2.1 e.1 0).srcData e.2.2 false false) (wtBytes (BitVec.ofNat 3 e.2.1)) .atomic cA)) = true ∧
    storeMet mState 0x84 (lm 0 16 4 0 1) ((lm 0 16 4 0 1).srcData 1 false false) 4 .atomic cA = true ∧
    storeMet mState 0x85 (lm 0 16 4 0 0) ((lm 0 16 4 0 0).srcData 1 true true) 4 .atomic cS = true := by decide

def le (dst md sa sb fn : Nat) : LE :=
  { g := Guard.always, la := 0, dst := BitVec.ofNat 9 dst, md := BitVec.ofNat 4 md, sa := BitVec.ofNat 9 sa, ka := false, sb := BitVec.ofNat 9 sb,
    kb := false, fn := BitVec.ofNat 6 fn }

/-- R101's reads of an instruction that acts in one lane. -/
def readsB (x : Cx) (srcs : List Src) : Bool := x.act != 0 && okB (x.once.fetch srcs)

theorem met_PrefetchRestoreAndCounterResult :
    metIn mState 0x83 8 Guard.always (fun x => memLegal 0x83 (lm 0 16 4 0 0) && okB (x.fetch [(lm 0 16 4 0 0).srcBase]) &&
      okB (x.fencePref ((laneList x.act).map (lmAddr (lm 0 16 4 0 0) (nthRun (got (x.fetch [(lm 0 16 4 0 0).srcBase])) 0))))) = true ∧
    metIn mState 0x7C 8 Guard.always (fun x =>
      let f := lm 8 16 4 0 0
      let b := got (x.peek [f.srcBase])
      memLegal 0x7C f && okB (slotDst f x) && okB (x.peek [f.srcBase]) && okB (x.deadReads [f.srcBase]) && x.act != 0 && x.c.fence.isNone &&
        decide ((lmAddr f (nthRun b 0) x.lane).toNat % 16 = 0) && okB (x.translateAll x.s .load 16 [(x.lane, lmAddr f (nthRun b 0) x.lane)]) &&
        okB ((lane1 x).poisonCheck b.flatten)) = true ∧
    metIn mState 0xA3 8 Guard.always (fun x => x.act != 0 && waitcHolds x.c.waitPoint 5 0 &&
      okB (x.once.fetch [{ ((le 0 0 0 0 0).srcA 1).plain with zero := false }])) = true ∧
    metIn { mState with crews := [(0, mCrew.raise cG 7)] } 0xA3 8 Guard.always (fun x => x.act != 0 && !waitcHolds x.c.waitPoint 0 0) = true ∧
    metIn mState 0xA4 8 Guard.always (fun x => okB (dstCheck x.c 8 1 true)) = true := by decide

theorem met_OrderingInstructionsIssue :
    ([0xA0, 0xA1, 0xA2].all (fun o => metIn mState o 8 Guard.always (fun x => decide (orderScope (le 0 0 0 0 6) < 7) && x.act != 0 &&
      decide (x.c.cnt cS < 63) && decide (x.c.sq.length < 64)))) = true ∧
    ([0xA0, 0xA1, 0xA2].all (fun o => metIn mState o 8 never (fun x => x.act == 0))) = true := by decide

theorem met_BranchCallAndLoopResult :
    ([(0xD0, 8), (0xD0, 4), (0xD2, 8), (0xD8, 8), (0xD8, 4)].all (fun e => metIn mState e.1 e.2 Guard.always (fun x =>
      okB (dstCheck x.c 8 2 false) && okB (dstCheck x.c 8 1 true) && x.act != 0 &&
      okB (x.once.fetch [{ d := 0, xc := 0, dead := false, k := 1, fld := 0, upper := true, zero := true }])))) = true ∧
    metIn mState 0xD8 8 never (fun x => x.act == 0) = true ∧
    metIn { mState with crews := [(0, { mCrew with lc := (2, 0, 0) })] } 0xD8 8 Guard.always (fun x => x.act != 0 && decide (1 < (x.c.loopCnt 0).toNat)) = true := by
  decide

theorem met_LandRecoverExitAndHintResult :
    ([(0xD5, 8), (0xD6, 8), (0xF0, 8), (0xF0, 2), (0xF1, 8), (0xF2, 8), (0xFF, 8)].all (fun e => metIn mState e.1 e.2 Guard.always (fun _ => true))) = true ∧
    metIn mState 0xD7 8 Guard.always (fun x => x.act != 0 && x.c.recruit.isNone && !x.c.surv) = true ∧
    metIn mState 0xD7 8 never (fun x => x.act == 0) = true := by decide

/-- The crew in a trap handler. -/
def hState : State :=
  { mState with crews := [(0, { mCrew with frames := [{ pc := 0x10100, rpc := 0x10108, cause := 1, tm := 15, lmask := 0, aux0 := 0, aux1 := 0, len := 8 }],
                                            paths := [{ newPath 0x10000 15 0 true with frame := 1 }] })] }

theorem met_TrapEntrySavesAndEnters :
    ([0xED, 0xD9].all (fun o => metIn mState o 8 Guard.always (fun x => x.act != 0 && x.c.fence.isNone && x.c.hgroup.isNone &&
      decide (x.c.frames.length < 4)))) = true := by decide

theorem met_TrapReturnSnapshotAndYieldResult :
    metIn hState 0xEE 8 Guard.always (fun x => x.act != 0 && x.c.frames.getLast?.isSome && okB (dstCheck x.c 8 2 false) &&
      okB (x.once.peek [(le 8 0 19 0 0).srcA 1]) && ((nthOpd (got (x.once.peek [(le 8 0 19 0 0).srcA 1])) 0).at x.lane).toNat < 8 &&
      okB (x.once.deadReads [(le 8 0 19 0 0).srcA 1]) && okB (x.once.poisonCheck (got (x.once.peek [(le 8 0 19 0 0).srcA 1])).flatten) &&
      okB (x.once.deadReads [(le 8 0 19 16 0).srcA 1, { (le 8 0 19 16 0).srcB 2 with zero := false }]) &&
      okB (x.once.poisonCheck (got (x.once.peek [(le 8 0 19 16 0).srcA 1, { (le 8 0 19 16 0).srcB 2 with zero := false }])).flatten) &&
      okB (x.once.peek [(le 8 0 19 16 0).srcA 1, { (le 8 0 19 16 0).srcB 2 with zero := false }]) &&
      (nthOpd (got (x.once.peek [(le 8 0 19 16 0).srcA 1, { (le 8 0 19 16 0).srcB 2 with zero := false }])) 0).at x.lane == 1) = true ∧
    metIn hState 0xEE 8 never (fun x => x.act == 0 && x.c.frames.getLast?.isSome) = true ∧
    metIn mState 0xEF 8 Guard.always (fun x => okB (dstCheck x.c 8 1 true) && x.act != 0) = true ∧
    metIn mState 0xA6 8 Guard.always (fun x => x.act != 0 && !x.c.yreq) = true ∧
    metIn { mState with crews := [(0, { mCrew with yreq := true })] } 0xA6 8 Guard.always (fun x => x.act != 0 && x.c.yreq && x.c.recruit.isNone) = true := by
  decide

theorem met_CacheRangeResult :
    ([0x87, 0x88, 0x89].all (fun o => metIn mState o 8 Guard.always (fun x => decide (x.c.cnt cS < 63) && x.act != 0 &&
      okB (x.once.fetch (rangeSrcs (le 0 0 16 18 0))) &&
      okB (x.parts x.s .range 0x20000 128) && !x.c.storesTo x.s.devnum (fun _ _ => true)))) = true := by decide

theorem met_FreezeInstructionResult :
    ([0x8A, 0x8B].all (fun o => metIn mState o 8 Guard.always (fun x => okB (dstCheck x.c 8 1 true) &&
      readsB x [((le 8 0 16 18 0).srcA 2).plain, ((le 8 0 16 18 0).srcB 1).plain] && okB (x.parts x.s .range 0x20000 128) &&
      !x.s.partsInRange (got ((x.parts x.s .range 0x20000 128).map (·.2))) &&
      freezeReason (got ((x.parts x.s .range 0x20000 128).map (·.2))) 0x20000 128 == 0 &&
      freezeReason (got ((x.parts x.s .range 0x20000 128).map (·.2))) 0x20001 128 != 0))) = true ∧
    metIn mState 0x8C 8 Guard.always (fun x => okB (dstCheck x.c 8 1 true) && readsB x [((le 8 0 16 0 0).srcA 2).plain] &&
      x.translateAll x.s .range 1 [(x.lane, 0x20000)] matches .ok (_, [⟨_, _, .hbm _, _, _, _, _, _, _, _, _⟩])) = true := by decide

/-- FRZQ.addr of a page whose leaf is given, in a pod of two with a declared host window. -/
def leafB (leaf : Dword) (p : Cx → State → LaneAcc → Bool) : Bool :=
  metIn { mState with podsize := 2, ctxs := [(0, { hostCtx with window := some (0, 2 ^ 32) })],
                      tlbs := [(0, [{ asn := 0, page := 2, bits := 16, leaf := leaf }])] } 0x8C 8 Guard.always (fun x =>
    okB (dstCheck x.c 8 1 true) && readsB x [((le 8 0 16 0 0).srcA 2).plain] &&
    (match x.translateAll x.s .range 1 [(x.lane, 0x20000)] with | .ok (t, [a]) => p x t a | _ => false))

/-- An address on device 1, with a port that reaches it and with none, and addresses in the host window and in control block 0. -/
theorem met_FreezeQueryResult_elsewhere :
    leafB 0x10000002003F (fun x t a => a.tgt == .peer 1 0x20000 && t.peerPath 1 && x.c.fence.isNone &&
      !State.peerPath { t with ualLanes := (List.range 16).map (fun i => (i, 0)) } 1) = true ∧
    leafB 0x2005F (fun _ _ a => a.tgt == .host 0x20000) = true ∧
    leafB 0xF000002007F (fun _ _ a => a.tgt == .gaz 0x20000) = true := by decide

/-- CRDECL of R107 on one line, with its holder array in the next line's page place. -/
theorem met_CommutativeRangeAndPromoteResult :
    metIn mState 0x8D 8 Guard.always (fun x => okB (dstCheck x.c 20 2 true) &&
      readsB x [(le 20 4 16 18 0).srcD 2, ((le 20 4 16 18 0).srcA 2).plain, ((le 20 4 16 18 0).srcB 1).plain] &&
      okB (x.parts x.s .range 0x20000 128) && okB (x.parts x.s .holder 0x20080 16) &&
      plainParts (got ((x.parts x.s .range 0x20000 128).map (·.2))) && plainParts (got ((x.parts x.s .holder 0x20080 16).map (·.2))) &&
      !rangesMeet 0x20000 128 0x20080 16 && (mfree (mgetD x.s.ranges 0 []) 16).isSome && !x.s.freezeOver 0x20000 128 &&
      x.s.reach 0 0x20080 && okB (x.s.homeStore 0 (maskedCells 0x20080 ((leBytes 16 0).map some)) false)) = true ∧
    metIn mState 0x8E 8 Guard.always (fun x => okB (dstCheck x.c 8 1 true) && readsB x [((le 8 0 16 0 0).srcA 2).plain] &&
      x.translateAll x.s .range 1 [(x.lane, 0x20000)] matches .ok (_, [⟨_, _, .hbm _, _, _, _, _, _, _, _, _⟩])) = true ∧
    metIn mState 0x8F 8 Guard.always (fun x => okB (dstCheck x.c 18 1 true) && readsB x [((le 18 0 16 0 0).srcB 1).plain] &&
      readsB x [((le 18 0 16 0 0).srcB 1).plain, (le 18 0 16 0 0).srcD 1, ((le 18 0 16 0 0).srcA 2).plain] && x.s.clusterUp (clusterOf 255) &&
      okB (x.parts x.s .range 0x20000 128)) = true := by decide

/-! Chains, waits, the matrix engine and collectives: the small state with chain 0, and a surveyor. -/

/-- A frozen line at 0x20000 of a given count. -/
def frozenLine (n : Nat) : Freeze :=
  { base := 0x20000, len := 128, pod := false, count := n, state := .frozen, acks := [], presence := [1], tseq := 0, stuck := false, asked := [] }

theorem met_FreezeInstructionResult_thaw :
    ([1, 2].all (fun n => metIn { mState with freezes := [(3, frozenLine n)] } 0x8B 8 Guard.always (fun x =>
      match x.parts x.s .range 0x20000 128 with
      | .ok t => match (contiguous t.2).bind (fun b => t.1.freezes.find? (fun e => e.2.state == .frozen && e.2.base == b && e.2.len == 128)) with
        | some e => e.2.count == n
        | none => false
      | .error _ => false))) = true := by decide

/-- A chain of 16 slots at 0x20000, empty. -/
def chain0 : Chain :=
  { ctx := 0, rbase := 0x20000, rsize := 16, seqaddr := 0, wptr := 1, compseq := 0, ready := [], owners := [], nops := [], cur := none, buf := [],
    ids := [], acked := [], beats := 0, mqGot := 0, back := [], step := none, stopped := none, xops := [], units := [], backPhase := 0 }

/-- Sixteen registers of zero at 32, those of a chain handle and of its descriptor of zeros. -/
def cState : State :=
  { mState with
    crews := [(0, { mCrew with regs := mRegs ++ (List.range 16).map (fun i => (32 + i, ru 0)) })]
    chains := [(0, chain0)] }

def submitMet (o : Nat) (f : LE) (srcs : List Src) (handle : Nat) (ctr : Nat) (legal : List (List Opd) → Cx → Bool) : Bool :=
  metIn cState o 8 Guard.always (fun x =>
    let r := got (x.once.fetch srcs)
    let h := ((nthOpd r handle).at x.lane).toNat
    okB (dstCheck x.c f.dst 1 true) && readsB x srcs && decide (x.c.cnt ctr < 63) && decide (x.c.sq.length < 64) && legal r x &&
      match x.s.chainOf x.c.ctx h with
      | some ch => !ch.full && okB (x.translateAll x.s .store 64 [(x.lane, ch.slot ch.wptr)])
      | none => false)

theorem met_ChainSubmissionResult :
    submitMet 0xB1 (le 8 0 32 32 0) [(le 8 0 32 32 0).srcA 1, { (le 8 0 32 32 0).srcB 16 with dead := false, zero := false }] 0 cS (fun _ _ => true) = true ∧
    submitMet 0xB0 (le 32 0 32 32 1) [(le 32 0 32 32 1).srcD 1, (le 32 0 32 32 1).srcA 2, (le 32 0 32 32 1).srcB 2] 0 cX (fun _ _ => true) = true ∧
    submitMet 0xB3 (le 8 0 32 33 0) [(le 8 0 32 33 0).srcA 1, (le 8 0 32 33 0).srcB 1] 0 cX (fun r x =>
      decide (((List.range 16).filter (fun i => (((nthOpd r 1).at x.lane).setWidth 16 : BitVec 16).getLsbD i && i != 0)).length ≤ 4)) = true ∧
    metIn cState 0xB2 8 Guard.always (fun x => readsB x [(le 0 0 32 0 0).srcA 1] && (x.s.chainOf x.c.ctx 0).isSome) = true := by decide

theorem met_SequenceWaitAndByteBarrierResult :
    metIn cState 0xA5 8 Guard.always (fun x => decide (orderScope (le 0 0 32 1 0) < 7) && readsB x [(le 0 0 32 1 0).srcA 1, (le 0 0 32 1 0).srcB 1] &&
      (x.s.chainOf x.c.ctx 0).isSome && readsB x [(le 0 0 32 1 0).srcB 1] && readsB x [(le 0 0 16 1 0).srcA 2, (le 0 0 16 1 0).srcB 1] &&
      okB (x.translateAll x.s .load 4 [(x.lane, 0x20000)])) = true ∧
    metIn cState 0xA5 8 never (fun x => x.act == 0 && okB (x.once.peek [(le 0 0 32 1 0).srcB 1]) &&
      okB (x.once.peek [(le 0 0 32 1 0).srcA 1, (le 0 0 32 1 0).srcB 1]) && okB (x.once.peek [(le 0 0 16 1 0).srcA 2, (le 0 0 16 1 0).srcB 1])) = true ∧
    ([0xB4, 0xB5, 0xB6].all (fun o => metIn cState o 8 Guard.always (fun x => okB (dstCheck x.c 8 1 true) &&
      readsB x [(le 8 0 16 1 0).srcA 2, (le 8 0 16 1 0).srcB 1] && decide (x.c.cnt cS < 63) && decide (x.c.sq.length < 64) &&
      okB (x.translateAll x.s .atomic 16 [(x.lane, 0x20000)]) && okB (x.phaseAcc 0x20000)))) = true := by decide

/-- Cluster 0's engine with an active tile 9 and a metadata entry of granularity 0. -/
def clus0 : Cluster := { Cluster.empty with tiles := [(9, { words := [], poison := [] })], mqIn := [(0, 1)] }

/-- The small state with a surveyor, whose registers 24 and 28 describe operand tiles of one row and four elements. -/
def vState : State :=
  { mState with
    focus := 65536
    crews := [(65536, { mCrew with surv := true, regs := mRegs ++
      [(24, ru 0x20000), (25, ru 0), (26, ru 64), (27, ru 0x10004), (28, ru 0x20040), (29, ru 0), (30, ru 64), (31, ru 0x10004),
       (32, ru 1), (33, ru 0), (34, ru 1), (35, ru 9), (36, ru 0xFFFF)] })]
    clusters := [(0, clus0)] }

def lx (q sc : Nat) : LX :=
  { g := Guard.always, la := 0, tile := 9, q := BitVec.ofNat 2 q, za := true, text := 2, sa := 24, sb := 28, sc := BitVec.ofNat 9 sc }

theorem met_MatrixInstructionsQueue :
    ([(0xC0, 0x110), (0xC1, 0x110), (0xC2, 32), (0xC3, 32)].all (fun e => metIn vState e.1 8 Guard.always (fun x =>
      let f := lx 0 e.2
      let ds := [lxSrc f.sa 4 1, lxSrc f.sb 4 2]
      let sc0 := if scRegs e.1 0 = 0 then [] else [lxSrc f.sc (scRegs e.1 0) 3]
      let r := got (x.peek (ds ++ sc0))
      let g := wbits ((nthOpd r 2).at x.lane) 0 8
      let srcs := ds ++ (if e.1 = 0xC2 then [lxSrc f.sc (g + 2) 3] else sc0)
      let q := got (x.fetch srcs)
      let k := x.s.clus x.c.clus
      let da := tileDesc (nthRun r 0) x.lane
      let db := tileDesc (nthRun r 1) x.lane
      textLegal e.1 f.text && tileDesig f.sa && tileDesig f.sb && x.act != 0 && okB (x.peek (ds ++ sc0)) && (e.1 != 0xC2 || decide (1 ≤ g ∧ g ≤ 15)) &&
        okB (x.fetch srcs) && (mget k.tiles 9).isSome && da.ok && db.ok && da.klen == db.klen && klenOk e.1 2 0 da.klen && k.room 1 &&
        decide (mgetD k.mqResv 0 0 < mgetD k.mqIn 0 0) &&
        !(e.1 == 0xC2 && (mmagBad ((nthRun q 2).map (fun o => o.at x.lane)) da.rows).isSome)))) = true := by decide

theorem met_TileAndTaskInstructionsResult :
    ([0xC4, 0xC9].all (fun o => metIn vState o 8 Guard.always (fun x => readsB x [(le 0 0 35 0 0).srcA 1] &&
      decide (((nthOpd (got (x.once.fetch [(le 0 0 35 0 0).srcA 1])) 0).at x.lane).toNat < 32) && (x.s.clus x.c.clus).room 1))) = true ∧
    metIn cState 0xC8 8 Guard.always (fun x => okB (dstCheck x.c 48 8 false) && readsB x [(le 48 7 35 33 0).srcA 1, (le 48 7 35 33 0).srcB 1] &&
      decide (x.c.cnt cM < 63) && decide (8 * x.c.w ≤ 9216)) = true ∧
    metIn vState 0xCA 8 Guard.always (fun x => okB (dstCheck x.c 40 1 true) && readsB x [(le 40 1 35 0 0).srcA 1]) = true ∧
    ([[], (List.range 64).map (fun i => (i, ({ entry := 0, toks := [], decl := i, state := 0 } : Dep)))].all (fun d =>
      metIn { vState with clusters := [(0, { clus0 with dep := d })] } 0xC5 8 Guard.always (fun x =>
        okB (dstCheck x.c 40 1 true) && readsB x [(le 40 0 33 36 0).srcA 1, (le 40 0 33 24 0).srcB 2] &&
        (taskToks 0xFFFFFFFFFFFF0001).all (fun t => decide (t < 0x1000 ∨ t = 0xFFFF)) && (mfree (x.s.clus x.c.clus).dep 64).isNone == !d.isEmpty))) = true ∧
    metIn vState 0xC7 8 Guard.always (fun x => decide (orderScope (le 0 0 36 0 0) < 7) && readsB x [(le 0 0 36 0 0).srcA 1] && x.s.tokOk 0 0xFFFF) = true ∧
    metIn vState 0xC6 8 Guard.always (fun x => (x.s.clus x.c.clus).running.isNone && x.act != 0) = true ∧
    metIn { vState with clusters := [(0, { clus0 with running := some 5, dep := [(5, { entry := 0, toks := [], decl := 0, state := 1 })] })] }
      0xC6 8 Guard.always (fun x => (x.s.clus x.c.clus).running == some 5 && readsB x [(le 0 0 36 16 0).srcA 1] &&
        readsB x [(le 0 0 36 16 0).srcA 1, (le 0 0 36 16 0).srcB 2] && x.s.tokOk 0 0xFFFF) = true := by decide

/-- An MMA of one element of four products, its lines held by the operand buffer. -/
def qop : QOp :=
  { id := 1, pc := 0x10000, ins := .mma (lx 0 0x110), raw := 0, tile := 9, da := { base := 0x20000, stride := 64, rows := 1, klen := 4 },
    db := { base := 0x20040, stride := 64, rows := 1, klen := 4 }, sc := [], task := 0, resv := 0, block := 0, group := 0, nans := [] }

def held : OLine := { task := 0, vln := 0x400, tgt := .hbm 0x20000, owner := 0, data := List.replicate 128 0x38, poison := 0 }

def bState : State := { vState with clusters := [(0, { clus0 with quads := [(1, [qop])], obuf := [held] })] }

theorem met_BlockAddResult :
    (let k := bState.clus 0
     bState.ctxRuns 0 && (mgetD k.quads 1 []).head? == some qop && qop.lx == some (0xC0, lx 0 0x110) &&
      mget k.tiles qop.tile == some { words := [], poison := [] } && qop.nextGroup 0xC0 0 == some 0 &&
      decide (qop.da.rows ≤ 96 ∧ qop.db.rows ≤ 96) && (qop.blockLines 0xC0 (lx 0 0x110) 0 0).all (fun l => (k.line 0 l).isSome) &&
      !k.blockMarked qop 0xC0 (lx 0 0x110) 0 0 && (lx 0 0x110).za) = true := by decide

/-- A line of written memory at 0x20000. -/
def lineMem (b : Nat → Byte) : Memory :=
  { cells := (List.range 128).map (fun i => (0x20000 + i, b i)), keys := (List.range 8).map (fun i => (0x2000 + i, (0, 0))), poison := [] }

/-- An ACCRD of the surveyor and an ACCFREE that waits for nothing. -/
def eState : State :=
  { vState with
    mem := lineMem (fun _ => 1)
    tlbs := [(256, [{ asn := 0, page := 2, bits := 16, leaf := mLeaf }]), (320, [{ asn := 0, page := 2, bits := 16, leaf := mLeaf }])]
    crews := vState.crews.map (fun e => (e.1, { e.2 with
      accReads := [{ op := 7, pc := 0x10000, tile := 9, pos := 0, n := 1, lanes := 15 }]
      wait := some { kind := 10, det := 0, val := 0, addr := 0, dst := 0x110, scope := 8, lanes := 15, pc := 0x10000, num := 7, op := .dispatch, owed := none } }))
    clusters := [(0, { clus0 with
      quads := [(1, [qop]), (2, [{ qop with ins := .accz (le 0 0 35 0 0), tile := 16 }])]
      accfree := [{ crew := 65536, ops := [], tile := 3, qids := [] }]
      defer := [{ dep := 5, token := 0xFFFF, bar := none, pc := 0x10000, task := 9, sqOps := [], stage := 0, ids := [] }] })] }

theorem met_MatrixEventResult :
    (let k := eState.clus 0
     eState.ctxRuns 0 && (mgetD k.quads 1 [])[0]? == some qop && qop.reads 0x400 && (k.line 0 0x400).isNone && decide (eState.bufferUse 0 < 8192) &&
      !eState.peerReqs.any (fun r => r.crew == clusEngine 0 && r.op == 0x400 && r.lane == 0) &&
      (match eState.translate 256 0 0x20000 .plotter with
       | (s1, .ok t) => t.tgt == Target.hbm 0x20000 && s1.reach 0 0x20000 && s1.canPin 0x20000 && okB (s1.homeEngine t.owner 0x20000 128) &&
          (k.obuf.find? (fun l => l.task == 0 && l.tgt == t.tgt && l.owner == t.owner)).isNone
       | _ => false)) = true ∧
    (let k := eState.clus 0
     ((mgetD k.quads 2 []).head?.bind (·.lx)).isNone && k.accfree[0]?.any (eState.accfreeReady k) && eState.surveyor 0 == some 65536 &&
      (mget eState.crews 65536).any (fun c => !c.evicted && c.waitOp == some .dispatch && (eState.dispatch c).isSome) &&
      k.defer[0]?.any (fun d => d.bar.isNone && eState.deferReady 0 k d) &&
      (mget eState.crews 65536).any (fun c => (c.accReads.find? (fun b => b.op == 7)).isSome && (mget (eState.clus c.clus).tiles 9).isSome)) = true := by
  decide

/-! Chain entries and collective steps. -/

/-- Memory of some dwords at 0x20000. -/
def dwMem (ds : List Dword) : Memory :=
  { cells := ((ds.map (fun d => leBytes 8 d.toNat)).flatten.zipIdx).map (fun e => (0x20000 + e.2, e.1)),
    keys := (List.range ((8 * ds.length + 15) / 16)).map (fun i => (0x2000 + i, (0, 0))), poison := [] }

/-- A shape record of four f32 elements at 0x20000. -/
def shape4 : List Dword := [0x20000, 0x106, 0x400000004, 0, 0, 0, 0, 0]

/-- Chain 0 with its next entry, that of number 1, published, and two shape records after it. -/
def nState (e : List Dword) : State :=
  { eState with mem := dwMem (List.replicate 8 0 ++ e ++ shape4 ++ shape4), chains := [(0, { chain0 with ready := [1] })] }

/-- The header of an entry of a kind with no token. -/
def hdrDw (kind : Nat) : Dword := BitVec.ofNat 64 (0xFFFF000000000000 + kind)

/-- Whether the next entry of chain 0 is read and its header is one of its kind. -/
def beginsB (e : List Dword) (p : State → Entry → Bool) : Bool :=
  let s := nState e
  match mget s.chains 0 with
  | none => false
  | some ch => s.chainRuns ch && ch.cur.isNone && ch.ready.contains ch.next.toNat && !ch.nops.contains ch.next.toNat &&
      (match s.chainRead 0 ch (ch.slot ch.next) 64 with
       | (s1, some (bs, false)) => s1.entryOk 0 (entryOf bs) && p s1 (entryOf bs)
       | _ => false)

/-- Whether a shape record at an address can be read as one of f32. -/
def shapeB (s : State) (va : Dword) (dst : Bool) (p : State → ShapeRec → Bool) : Bool :=
  match s.readShape 0 { chain0 with ready := [1] } va dst with
  | (t, some r) => r.etype == 6 && r.count == 4 && r.gdim == 0 && ropOk false r.rop r.etype && p t r
  | _ => false

/-- Chain 0 at work on an entry. -/
def wState1 (e : Entry) : State :=
  { eState with mem := dwMem (List.replicate 32 1),
                chains := [(0, { chain0 with cur := some e }), (1, { chain0 with compseq := 5 })] }

def entry0 (ds : List Dword) : Entry := { entryOf ((ds.map (fun d => leBytes 8 d.toNat)).flatten) with done := false }

def rec4 : ShapeRec := shapeOf ((shape4.map (fun d => leBytes 8 d.toNat)).flatten)

/-- A request of chain 0 to an endpoint. -/
def outReq : PeerReq :=
  { id := 3, tag := { crew := 0, ctx := 0, entry := 0, pc := 0, va := 0x20000 }, dev := 1024, crew := chainEngine 0, op := 1, lane := 0, pa := 0x20000,
    owner := 0, what := .read 64, held := none }

set_option maxRecDepth 20000 in
theorem met_ChainEntryBeginsAndWorks :
    beginsB [hdrDw 0, 0, 0, 0, 0, 0, 0, 0] (fun _ e => e.kind == 0) = true ∧
    beginsB [hdrDw 0x405, 7, 0, 0, 0, 0, 0, 0x20000] (fun _ e => e.kind == 5) = true ∧
    beginsB [hdrDw 1, 0x20080, 0x200C0, 0, 0, 0, 0, 0] (fun s e => e.kind == 1 && !e.coll &&
      shapeB s (e.dws.getD 1 0) false (fun s2 _ => shapeB s2 (e.dws.getD 2 0) true (fun _ _ => true))) = true ∧
    beginsB [hdrDw 2, 0x20080, 5, 0, 0, 0, 0, 0] (fun s e => e.kind == 2 && shapeB s (e.dws.getD 1 0) true (fun _ _ => true)) = true ∧
    (let e := { entry0 [hdrDw 2, 0x20080, 5, 0, 0, 0, 0, 0] with dst := some rec4, ranks := [0], prog := [0] }
     let s := wState1 e
     let ks := beatElems rec4 0 rec4.count (rec4.count - 0) 0
     s.chainRuns { chain0 with cur := some e } && e.kind == 2 && !e.done && rec4.gdim == 0 && rec4.rop == 0 && decide (0 < rec4.count) &&
      (match beatUnits rec4 0 (fun _ => 0) (ks.zip (ks.map (fun _ => (leBytes (etBytes rec4.etype) (e.dws.getD 2 0).toNat, false)))) [] with
       | [u] => !u.rop && (match s.translate 320 0 u.va .txeWrite with
          | (s1, .ok t) => t.tgt == Target.hbm 0x20000 && s1.reach 0 0x20000 && mget s1.chains 0 == mget s.chains 0 &&
            (match (s1.modChain 0 (fun c => { c with units := [u.va] })).homeStore t.owner (maskedCells 0x20000 u.bytes) u.poison with
            | .ok s2 => mget s2.chains 0 == some { chain0 with cur := some e, units := [u.va] } | .error _ => false)
          | _ => false)
       | _ => false)) = true ∧
    ((entry0 [hdrDw 3, 0x580000001, 0, 0, 0, 0, 0, 0]).kind == 3 && (0x580000001 : Dword).getLsbD 31 && bits (0x580000001 : Dword) 0 9 == 1 &&
      (mget (wState1 (entry0 [])).chains 1).any (fun c => seqGe c.compseq (BitVec.ofNat 32 (bits (0x580000001 : Dword) 32 32)))) = true ∧
    (let s := wState1 (entry0 [hdrDw 4, 0x20000, 1, 0, 0, 0, 0, 0])
     decide ((mgetD (s.clus 0).mq 0 []).length < 32) &&
      (match s.chainRead 0 { chain0 with cur := some (entry0 [hdrDw 4, 0x20000, 1, 0, 0, 0, 0, 0]) } 0x20000 64 with | (_, some _) => true | _ => false)) = true ∧
    (({ wState1 (entry0 [hdrDw 1, 0, 0, 0, 0, 0, 0, 0]) with peerReqs := [outReq] } : State).peerReqs.find?
      (fun r => r.crew == chainEngine 0 && decide (1024 ≤ r.dev))) = some outReq := by
  refine ⟨?_, ?_, ?_, ?_, ?_, ?_, ?_, ?_⟩ <;> decide

/-- A performed entry of chain 0, and a crew's counted operation on it. -/
theorem met_ChainEntryCompletes :
    (let e := { entry0 [hdrDw 0, 0, 0, 0, 0, 0, 0, 0] with done := true }
     let ch := { chain0 with cur := some e, xops := [(0, 9, 1)] }
     let s := { wState1 e with chains := [(0, ch)] }
     s.chainRuns ch && e.phase == 1 && !e.bbsig && ch.ids.isEmpty && ch.seqaddr == 0) = true := by decide

/-- A group of four ranks on devices 0 to 3, of which this device is a given rank. -/
def group4 (r : Nat) : Group :=
  { rstride := 0, exts := [4], timeout := 10, chain := 0, ngd := 1, map := [0, 1, 2, 3], crbase := 0, carea := 0, casize := 4096, rank := some r,
    gsig := 0, cstep := 0, steps := 0 }

def hdr1 (n : Nat) : CollHdr :=
  { gsig := 0, step := 1, etype := 6, rop := 1, count := n, base := 0, group := 0, gdim := 1, repmask := 0, coord := 0 }

def beat1 (r n : Nat) : CollBeat :=
  { ctx := 0, group := 0, hdr := hdr1 n, rank := r, beat := 0, bytes := List.replicate 128 0, scales := [], raises := [], nrank := 1, silent := [],
    late := [], novf := 0 }

def coll1 : Coll :=
  { ctx := 0, group := 0, step := 1, hdr := none, shape := none, fly := [], own := [], copies := [], parts := [], passed := [], mute := none, late := [],
    lapsed := [], result := [], waits := [], dmiss := [], record := none }

/-- The small state of the device of a rank with a step in progress. -/
def kState (r : Nat) (c : Coll) : State := { tState with devnum := r, ctxs := [(0, { hostCtx with groups := [(0, group4 r)] })], colls := [c] }

set_option maxRecDepth 20000 in
theorem met_CollectiveEventResult :
    (let s := kState 0 { coll1 with fly := [beat1 0 32] }
     (s.openColl 0 0 1).any (fun c => c.fly.contains (beat1 0 32)) && s.group 0 0 == some (group4 0) && (group4 0).size == 4 && (group4 0).devOf 1 != s.devnum && s.peerPath 1) = true ∧
    (let s := kState 2 coll1
     s.openColl 0 0 1 == some coll1 && (group4 2).rank == some 2 && s.collLive (beat1 0 32) && s.areaRoom (beat1 0 32)) = true ∧
    (let s := kState 3 { coll1 with own := [beat1 3 4096] }
     (s.openColl 0 0 1).isSome && s.collLive (beat1 2 4096) && (group4 3).size == 4 && decide (1 < collBeats (combineBeat (beat1 2 4096) (beat1 3 4096)).hdr)) = true ∧
    (let s := kState 0 { coll1 with passed := [beat1 0 32] }
     (s.firstColl 0 0).any (fun c => c.passed == [beat1 0 32]) && (group4 0).devOf 2 != s.devnum && s.peerPath 2) = true ∧
    (let c := { coll1 with waits := [(1, 4), (2, 5)] }
     (kState 3 c).coll 0 0 1 == some c && c.waits.any (fun w => w.1 != 1) && c.waits.any (fun w => w.1 == 1)) = true ∧
    ((kState 0 coll1).group 0 0).any (fun g => !seqGe g.cstep 1) = true := by decide

/-! Teams, tasks, helpers, messages, heaps, nodes and launches. -/

def team1 : Team := { ctx := 0, launch := none, tile := none, pair := false, crews := [0, 1], exited := [], done := [], bars := [] }

/-- The small state whose crew is in team 1, with predicate 3 true in lane 0 alone; crew 131072 is a helper group of its lanes. -/
def tmState : State :=
  { mState with
    crews := [(0, { mCrew with team := 1, preds := [(0, 5), (1, 15), (3, 1)] }),
              (131072, { mCrew with preds := [], regs := [], paths := [newPath 0x10000 1 0 true],
                                    hgroup := some { donor := 0, recruiter := 0, lanes := [{ lane := 0, num := 0, iter := some 0 }], release := false } })]
    teams := [(1, team1)] }

/-- A guard that lane 0 alone meets. -/
def lane0 : Guard := { grd := 3, sns := false }

theorem met_TeamTaskAndHelperResult :
    (metIn tmState 0xE0 8 Guard.always (fun x => x.act != 0 && (barCount (le 0 0 0x110 0 1) x matches .ok 0) && (barCount (le 0 0 19 0 1) x matches .ok 1)) &&
      metIn tmState 0xE1 8 Guard.always (fun x => x.act != 0 && okB (dstCheck x.c 8 1 true) && (barCount (le 8 0 19 0 0) x matches .ok 1)) &&
      metIn tmState 0xE2 8 Guard.always (fun x => readsB x [(le 0 0 19 0 0).srcA 1])) = true ∧
    (let src : Src := { d := 16, xc := 0, dead := false, k := 2, fld := 0, upper := false, zero := false }
     metIn tmState 0xE3 8 Guard.always (fun x => x.act != 0 && okB (x.fetch [src]) && okB (x.once.fetch [src]) && decide (x.c.cnt cS < 63) && decide (x.c.sq.length < 64) &&
       x.s.spawnRoom x.c (laneList x.act).length && x.s.spawnRoom x.c (laneList x.once.act).length) &&
     metIn tmState 0xE5 8 lane0 (fun x => x.act != 0 && okB (x.once.fetch [src]) && decide (laneCount x.act ≤ 1) && x.c.recruit.isNone)) = true ∧
    ([0xE4, 0xE6, 0xE7].all (fun o => metIn tmState o 8 Guard.always (fun x => x.act != 0 && !x.c.isHelper && okB (dstCheck x.c 8 2 false)))) = true ∧
    metIn { tmState with focus := 131072 } 0xE6 8 Guard.always (fun x => x.act != 0 && x.c.isHelper && okB (x.fetch [(le 0 0 0x110 0 0).srcA 1])) = true := by
  decide

/-- Every clause: with count 0 the last crew's arrival and one that leaves the generation open; with counts 2 and 32 the arrival that
completes the generation and the one before it. -/
theorem met_BarrierGenerationResult :
    (mget tmState.teams 1 == some team1 && !(barMask (team1.bar 0)).testBit 0 && barMask (team1.bar 0) == 0 &&
      (let t := { team1 with bars := [(0, barWord 2 0 0)] }
       !(barMask (t.bar 0)).testBit 0 && barCnt (t.bar 0) == 0)) = true ∧
    ([(2, 0), (2, 2), (32, 2 ^ 32 - 4), (32, 2 ^ 32 - 2)].all (fun e =>
      let t := { team1 with bars := [(0, barWord e.2 0 e.1)] }
      !(barMask (t.bar 0)).testBit 0 && (barMask (t.bar 0) == 0 || barCnt (t.bar 0) == e.1))) = true ∧
    ([(2, 0), (2, 2), (32, 2 ^ 32 - 4), (32, 2 ^ 32 - 2)].map (fun e =>
      let t := { team1 with bars := [(0, barWord e.2 0 e.1)] }
      let mask := barMask (t.bar 0) ||| 2 ^ 0
      decide (e.1 ≤ ((List.range 32).filter (fun p => mask.testBit p)).length))) = [false, true, false, true] := by decide

def tag0 : QTag := { crew := 0, ctx := 0, entry := 0x10000, pc := 0x10000, va := 0x20000 }

def msg0 (k : MsgKind) : Msg := { id := 5, tag := tag0, op := 4, core := 0, ln := 0x400, owner := 0, kind := k, held := none }

def acc0 : LaneAcc :=
  { lane := 0, va := 0x20000, tgt := .hbm 0x20000, owner := 0, leaf := mLeaf, level := 3, n := 4, bytes := (leBytes 4 7).map some, poison := false, x := 1, y := 0 }

/-- A message in flight to the line at 0x20000 of written memory, the die link up or down. -/
def msgState (k : MsgKind) (up : Bool) : State := { mState with net := [msg0 k], d2dUp := up, mem := lineMem (fun i => BitVec.ofNat 8 i) }

def deliverB (k : MsgKind) (act : State → Msg → Except Nat State) : Bool :=
  let s := msgState k true
  !s.msgBehind 0 (msg0 k) && s.reach 0 0x20000 && okB (act s (msg0 k)) &&
    !okB (act { s with freezes := [(0, frozenLine 1)] } (msg0 k)) == (match k with | .hold => false | _ => true)

theorem met_MessageAndRemoteEventResult :
    (deliverB (.writeBack 1 (List.replicate 128 9) 0 0) homeMerge && deliverB (.store [acc0]) homeStores && deliverB (.atom 4 0 true [acc0]) homeAtoms &&
      deliverB .hold homeHold && deliverB (.arrive 1 acc0) homeBar && deliverB (.bbinit 1 acc0) homeBar) = true ∧
    (let m := { msg0 .hold with core := 128 }
     !(msgState .hold false).reach (m.core / 128) (128 * m.ln)) = true ∧
    (let q : PeerReq := { id := 3, tag := tag0, dev := 1, crew := 0, op := 4, lane := 0, pa := 0, owner := 0, what := .read 4, held := none }
     let h : HostReq := { id := 4, tag := tag0, reqid := 0, ident := 2, ctx := 0, crew := 0, op := 4, lane := 0, write := true, len := 4, off := 0, data := [], sent := true, held := none }
     let l : Line := { dev := 0, ln := 0x400, owner := 0, valid := 1, dirty := 1, kind := .ordinary, tag := none, poison := 0, marks := 0, filler := 0,
                       data := List.replicate 128 0 }
     let s : State := { msgState (.store [acc0]) true with acks := [(5, 0, 0)], l1s := [(0, [l])], peerReqs := [q], hostReqs := [h], sessions := [(2, ⟨0, 0, 0, 0, 0⟩)] }
     s.acks[0]?.isSome && !s.ackBehind 0 (5, 0, 0) && s.rot.released && (s.l1 0)[0]?.isSome && okB (s.recallAt 0x20000) && (s.peerReqs.find? (fun r => r.id == 3 && r.held.isNone)) == some q &&
       (s.accept 2 0).any (fun t => t.hostAsked { port := 0, ident := 2, seq := 0, op := 0x82, reqid := 0, len := 0, status := 0, data := [] } == some h) &&
       (State.reset.accept 2 0).isNone && (s.rangeAt 0x20000).isNone && !s.heapHit 0x20000 128 false && (s.replicaEntry 0x20000 1).isNone &&
       okB (s.homeStore 0 (maskedCells 0x20000 [some 1]) false) && inHbm 0x20000 1 && !okB ({ s with freezes := [(0, frozenLine 1)] }.homeStore 0 (maskedCells 0x20000 [some 1]) false) &&
       [8, 128].all (fun n => match s.homeLoad 0 0x20000 n with | .ok (_, _, false) => true | _ => false)) = true := by decide

/-- Page tables that map each address below 2^42 to itself, and a node at 0x20000 whose ENTRY is given. -/
def nodeMem (entry : Dword) : Memory :=
  { cells := ((leBytes 8 0x10001).zipIdx.map (fun e => (e.2, e.1))) ++ ((leBytes 8 0x1F).zipIdx.map (fun e => (0x10000 + e.2, e.1))) ++
      (([entry, 0x1000100010100, 0x30000, 0, 0, 0, 0, 0].map (fun d => leBytes 8 (BitVec.toNat d))).flatten.zipIdx).map (fun e => (0x20000 + e.2, e.1)),
    keys := [0, 0x1000, 0x2000, 0x2001, 0x2002, 0x2003].map (fun b => (b, (0, 0))), poison := [] }

def ndState (entry : Dword) : State :=
  { tmState with mem := nodeMem entry
                 crews := [(0, { mCrew with preds := [(0, 5)], regs := mRegs ++ [(22, ru 0x30000), (23, ru 0)] })]
                 tlbs := [(0, [{ asn := 0, page := 2, bits := 16, leaf := mLeaf }, { asn := 0, page := 3, bits := 16, leaf := 0x3001F }])] }

theorem met_HeapAndNodeInstructionsResult :
    metIn (ndState 0) 0xEC 8 Guard.always (fun x => readsB x [(le 0 0 16 18 0).srcA 2, (le 0 0 16 18 0).srcB 1] && decide (x.c.cnt cS < 63) &&
      okB (x.translateAll x.s .atomic 64 [(x.lane, 0x20000)])) = true ∧
    metIn (ndState 0) 0xEA 8 Guard.always (fun x => okB (x.fetch [{ (le 16 0 18 19 0).srcD 2 with zero := false }, (le 16 0 18 19 0).srcA 1, (le 16 0 18 19 0).srcB 1]) &&
      x.act != 0 && okB (x.aligned 128 (fun _ => 0x20000)) && okB (x.translateAll x.s .atomic 64 ((laneList x.act).map (fun l => (l, 0x20000))))) = true ∧
    metIn (ndState 0) 0xEB 8 Guard.always (fun x => okB (dstCheck x.c 8 1 true) && readsB x [(le 8 0 16 20 0).srcA 2, (le 8 0 16 20 0).srcB 2] &&
      (x.translateAll x.s .atomic 64 [(x.lane, 0x20000)] matches .ok (_, [_]))) = true ∧
    metIn (ndState 0) 0xE8 8 Guard.always (fun x => okB (x.fetch [{ (le 16 15 0 0 0).srcD 2 with zero := false }, { (le 16 1 0 0 0).srcA 2 with zero := false }]) && x.act != 0 &&
      (match x.translateAll x.s .atomic 64 ((laneList x.act).map (fun l => (l, 0x20000))) with
       | .ok t => t.2.all (fun a => a.va.toNat % 64 == 0 && a.isHbm) | .error _ => false)) = true ∧
    metIn (ndState 0) 0xE9 8 Guard.always (fun x => okB (dstCheck x.c 24 3 false) && readsB x [(le 24 0 16 22 0).srcA 2] && readsB x [(le 24 0 16 22 0).srcA 2, (le 24 0 16 22 0).srcB 2] &&
      (match x.takeNode 0x20000 with
       | .ok (t, a) => (t.nodeDesc a.owner a.pa).entry == 0 && okB (({ x with s := t } : Cx).translateAll t .range 65536 [(x.lane, 0x30000)])
       | .error _ => false)) = true := by decide

/-- A launch message of queue 0 of a kind, of one team of one crew of 16 lanes with 8 registers. -/
def launch0 (kind nt : Nat) (checked : Bool) : Launch :=
  { queue := 0, dws := [BitVec.ofNat 64 (2 ^ 32 + kind * 2 ^ 18 + 1), 0x20000, 0, 0, BitVec.ofNat 64 ((nt - 1) * 2 ^ 40), 0, 0, 0], checked := checked, next := 0,
    ranges := [], teams := [], survs := [], started := [], drain := none, placed := false, status := 0 }

def queue0 : Queue := { ctx := 0, ident := 2, caddr := 0x20000, priv := true, expseq := 1, cseq := 0, msgs := [7], finished := [] }

/-- A device with context 0 and queue 0, whose head is a launch of a kind. -/
def laState (l : Launch) : State :=
  { State.reset with mem := nodeMem 0x10000, ctxs := [(0, hostCtx)], queues := [(0, queue0)], launches := [(7, l)], sessions := [(2, ⟨0, 0, 0, 0, 0⟩)] }

def pickB (s : State) (p : Option Pick → Bool) : Bool :=
  let u := s.checkHeads
  p (bestPick ((u.queueOrder 0).filterMap (u.queuePick 0) ++ u.sealedQ.filterMap (u.tilePick 0)))

/-- A node's record, with a sealed tile of it to be consumed. -/
def node0 : Node := { ctx := 0, va := 0x20000, owner := 0, pool := 0, timer := true, ops := [], press := 1, sealed := [], taken := [] }
def tile0 : Tile := { node := 0x20000, pool := 0x30000, ctx := 0, page := 0x40000, count := 1, nseal := 0, seq := 0 }

def doneCrew (w : Option Wait) : Crew := { mCrew with done := true, team := 1, wait := w }
def finishWait (ms : List Nat) : Wait :=
  { kind := 0, det := 0, val := 0, addr := 0, dst := 0x110, scope := 8, lanes := 0, pc := 0, num := 0, op := .finish ms, owed := none }

set_option maxRecDepth 20000 in
theorem met_NodeCompletionAndSchedulingResult_nodes :
    (let k := MsgKind.heapPush acc0 1 2
     !okB (homePush (msgState k true) (msg0 k)) && (match (msgState k true).homeHclr 0 0x20000 4 true with
      | .ok s => okB (homePush s (msg0 k)) && s.net[0]? == some (msg0 k) | .error _ => false)) = true ∧
    (let s := { ndState 0 with net := [msg0 (.nodePush acc0 1)], nodes := [(0x20000, node0)] }
     s.net[0]? == some (msg0 (.nodePush acc0 1)) && !s.msgBehind 0 (msg0 (.nodePush acc0 1)) && s.reach 0 acc0.pa && (mget s.nodes 0x20000).any (fun k => k.timer && decide (0 < k.press))) = true ∧
    (let s := { tmState with crews := [(0, doneCrew (some (finishWait [])))] }
     (doneCrew (some (finishWait []))).spent && s.ctxRuns 0 && !s.inFlight [] && (mget (s.endFinish 0 (doneCrew (some (finishWait [])))).crews 0).isNone) = true ∧
    (let l : Line := { dev := 0, ln := 0x400, owner := 0, valid := 1, dirty := 1, kind := .ordinary, tag := some tag0, poison := 0, marks := 0,
                       filler := 0, data := List.replicate 128 0 }
     let s := { tmState with crews := [(0, doneCrew none)], l1s := [(0, [l])] }
     let t := s.beginFinish 0 (doneCrew none)
     (doneCrew none).spent && (mget t.crews 0).any (fun d => d.spent && d.hgroup.isNone && t.ctxRuns d.ctx &&
       (match d.waitOp with | some (.finish ms) => t.inFlight ms | _ => false))) = true := by decide

set_option maxRecDepth 20000 in
theorem met_NodeCompletionAndSchedulingResult_launches :
    (let bs := (((launch0 0 1 false).dws.map (fun d => leBytes 8 d.toNat)).flatten)
     let s := { laState (launch0 0 1 false) with queues := [(0, { queue0 with msgs := [] })] }
     bs.length == 64 && (s.accept 2 0).isSome && (State.reset.accept 2 0).isNone && (mget s.queues 0).any (fun (q : Queue) => q.ident == 2 && q.expseq == (1 : Word) && decide (q.msgs.length < 32))) = true ∧
    pickB { laState (launch0 0 1 false) with queues := [] } (fun p => p matches none) = true ∧
    pickB (laState (launch0 0 1 false)) (fun p => p matches some (.grid _ _ _ _ _)) = true ∧
    pickB { laState (launch0 0 1 false) with queues := [], nodes := [(0x20000, node0)], sealedQ := [tile0] } (fun p => p matches some (.node _ _)) = true ∧
    ((laState (launch0 1 1 false)).checkHeads.eligibleHead 0).any (fun e => e.2.1.kind == 1 && ((laState (launch0 1 1 false)).checkHeads.plainPage 0 (e.2.1.dw 1)).isSome) = true ∧
    ((laState (launch0 2 3 false)).checkHeads.eligibleHead 0).any (fun e => e.2.1.kind == 2 && e.2.1.ranges.isEmpty && !e.2.1.surv &&
      (List.range 64).any (fun k => (laState (launch0 2 3 false)).checkHeads.launchUses e.2.1 0 k)) = true ∧
    (let l := { launch0 2 8 true with ranges := [(0, 4, 4), (1, 4, 8)] }
     let s := laState l
     !l.surv && s.placing 0 && s.clusterAvail 0 && s.clusterAvail 1 && l.ranges.find? (fun r => r.1 == 0) == some (0, 4, 4) && largestRange (l.ranges.filter (fun r => r.1 / 32 == 0)) == some (1, 4, 8)) = true ∧
    (let s := { tmState with deques := [(0, [{ ctx := 0, entry := 0x10000, arg := 0, origin := 0, parent := 0 }])] }
     (s.nextTask 0 0).isSome && (s.nextTask 0 7).isSome) = true ∧
    (let s := laState { launch0 0 1 true with placed := true }
     s.launchDone { launch0 0 1 true with placed := true } && (launch0 0 1 true).cmode == 0) = true ∧
    ([1, 2].all (fun m =>
      let l := { launch0 0 1 true with placed := true, dws := (launch0 0 1 true).dws.set 7 (BitVec.ofNat 64 (m * 2 ^ 36)) }
      (laState l).launchDone l && l.cmode == m && (mget (laState l).sessions queue0.ident).isSome)) = true := by decide

/-! Stops, waits, commands and the root of trust. -/

/-- A page of local memory at 0x40000 to save in and one at 0x50000 for the stop area. -/
def sCtx : Ctx :=
  { hostCtx with desc := [0, 10 * 2 ^ 32 + 5 * 2 ^ 16, 2 ^ 48 + 0x50000, 0x40000, 1, 0x11000, 0, 0, 0, 0, 0, 0, 0, 0, 0, 0] }

/-- A crew at a WAITC-like wait point that a SYNCW is. -/
def syncWait : Wait :=
  { kind := 5, det := 0, val := 0, addr := 0, dst := 0x110, scope := 8, lanes := 0, pc := 0x10000, num := 0, op := .syncw, owed := none }
def sCrew : Crew := { tCrew with w := 1, launched := 1, regs := [(0, ru 7)], nregs := 1, paths := [newPath 0x10000 1 0 true], wait := some syncWait }

def sTlb : NatMap (List TlbEntry) := [(0, [{ asn := 0, page := 4, bits := 16, leaf := 0x4001F }])]

def sState (x : Ctx) (c : Crew) : State := { State.reset with ctxs := [(0, x)], crews := [(0, c)], tlbs := sTlb, focus := 0 }

set_option maxRecDepth 20000 in
theorem met_StopAndYieldEventResult :
    (let s := sState { sCtx with halted := true } { sCrew with done := true }
     s.memStopped 0 && (mget s.ctxs 0).any (fun x => x.halted && !x.recorded)) = true ∧
    (sCtx.tslice != 0 && sCtx.wdog != 0 && !sCtx.halted && !(sState { sCtx with yieldReq := true } sCrew).allEvicted 0 &&
      decide (1 ≤ syncWait.kind)) = true ∧
    (let s := { sState sCtx { sCrew with yreq := true } with crews := [(0, { sCrew with yreq := true }), (1, sCrew)] }
     let u := s.saveCrew 0
     ({ sCrew with yreq := true } : Crew).blocked && sCrew.quiet && s.lentLanes 0 == 0 && u.ctxRuns 0 && (mget u.crews 0).isSome &&
      !((s.ctxCrews 0).all (fun e => e.1 == 0 || e.2.evicted || e.2.done || e.2.hgroup.isSome))) = true := by decide +kernel

set_option maxRecDepth 20000 in
theorem met_StopAndYieldEventResult_restore :
    (let c := { sCrew with evicted := true }
     let s := (sState { sCtx with evicted := false } c).saveCrew 0
     s.placeFree c && s.allEvicted 0 && (mget s.crews 0).any (·.evicted) && (mget s.ctxs 0).any (fun x => !x.evicted && !x.halted) &&
       (match s.readCrew 0 false with | .ok (some _) => true | _ => false)) = true := by decide +kernel

/-- A load of lane 0 in flight, and a store and a release in the queue. -/
def ld0 : LoadOp := { op := 4, pc := 0x10000, pol := 0, uni := false, sign := false, accs := [acc0], got := [], passed := false, vrest := none }
def sq0 (rel : Bool) : SqEntry :=
  { op := 5, pc := 0x10000, kind := .store 0, accs := [acc0], rel := rel, scope := 3, stage := 0, msgs := [], got := [] }
def fence0 (cf : Bool) : FenceRun := { op := 9, ns := true, scope := 3, pc := 0x10000, issued := 0, lines := [(0, 0x400)], conflict := cf, rollbacks := 0 }

def waitOn (op : WaitOp) : Crew := { mCrew with wait := some { syncWait with op := op } }

theorem met_MemoryWaitAndFreezeEventResult :
    (let s := { mState with crews := [(0, { mCrew with loads := [ld0] })], mem := lineMem (fun i => BitVec.ofNat 8 i) }
     let u := (ld0.accs.filter (fun a => (1 : Lanes).getLsbD a.lane)).foldl (fun s a => s.captureInOrder 0 4 a) s
     s.memRuns mCrew && (mget u.crews 0).any (fun d => (d.loads.find? (fun l => l.op == 4)).any (fun l => l.vrest.isNone))) = true ∧
    ([true, false].all (fun r => (sq0 r).rel == r && decide ((sq0 r).stage < 2))) = true ∧
    ([WaitOp.syncw, .seqThaw, .seqMem acc0, .barw 0, .bbwait acc0, .sqEntry 5, .waitc 0, .seqChain 0, .promote 0 [] true 0 []].all (fun op =>
      (waitOn op).waitOp == some op && mState.ctxRuns (waitOn op).ctx && (waitOn op).out == 0 && (waitOn op).sq.isEmpty)) = true ∧
    (let s := { mState with crews := [(0, waitOn (.waitc 0))] }
     (s.viewCrew 0).any (fun v => v.waitOp == some (.waitc 0) && waitcHolds v 0 0)) = true ∧
    (seqGe chain0.compseq 0 && seqGe mState.thawDone 0) = true ∧
    ([(0 : Word), 1].all (fun v =>
      let w := { syncWait with op := .seqMem acc0, val := v }
      let s := { mState with crews := [(0, { mCrew with wait := some w })], mem := lineMem (fun _ => 0) }
      s.reach 0 0x20000 && (match s.homeLoad 0 0x20000 4, s.homeLoad 0 0x20000 8 with
        | .ok (t, bs, false), .ok (u, cs, false) => (mget t.crews 0).any (fun d => d.wait == some w) && (mget u.crews 0).any (fun d => d.wait == some w) &&
            seqGe (BitVec.ofNat 32 (leNat bs)) v == (v == 0) && leNat (cs.drop 6) != 1
        | _, _ => false))) = true ∧
    (let s := { mState with crews := [(0, { mCrew with loadHeld := some 3 })] }
     s.loadRoom { mCrew with loadHeld := some 3 } && !s.heldBefore { mCrew with loadHeld := some 3 } && !mCrew.evicted) = true ∧
    (mState.ctxRuns 0 && (1 : Nat) != mState.devnum && !(frozenLine 1).retry && ({ frozenLine 1 with state := .thawing, asked := [1] } : Freeze).asked.contains 1) = true ∧
    (([false, true].all (fun b => (fence0 b).lines.contains (0, 0x400) && ({ fence0 b with read := [(1, 0x400)] } : FenceRun).read.contains (1, 0x400) && !({ mCrew with fence := some (fence0 b) } : Crew).sq.any (fun e => e.op == 9)))) = true := by
  decide

theorem met_GroupAndLinkResult :
    metIn cState 0xB7 8 Guard.always (fun x => okB (dstCheck x.c 8 1 true) && readsB x [(le 8 0 16 32 0).srcB 1, (le 8 0 16 32 0).srcA 2] &&
      readsB x [(le 8 0 16 32 0).srcB 1]) = true ∧
    metIn cState 0xB8 8 Guard.always (fun x => okB (dstCheck x.c 8 1 true) && x.act != 0 && readsB x [(le 8 3 32 0 0).srcA 1]) = true ∧
    ([0, 14, 15, 16].all (fun n => let s := { State.reset with crcFails := n }; s.d2dUp && (decide (n < 15) != decide (15 ≤ n)))) = true := by decide

/-- A state in which identity 2 has a session, and whether the management core takes its command there. -/
def cmdState (s : State) : State := { s with sessions := [(2, ⟨0, 0, 0, 0, 0⟩)] }
def takesB (s : State) (p : State → Session → Bool) : Bool :=
  match (cmdState s).received { ident := 2, tag := 0 } with
  | some t => t.tlbWait.isNone && t.ctxWait.isNone && (match mget t.sessions 2 with | some b => p t b | none => false)
  | none => false

/-- A descriptor of a context with one chain, whose list stands at 0x20000, and a device where that is local memory, by a leaf that maps
each address below 2^42 to the same address of this device or of device 1. -/
def desc0 : List Dword := [0, 0, 2 ^ 48 + 0x50000, 0x40000, 1, 0, 0, 0x20000, 1, 0]
def listState (peer : Bool) : State :=
  { State.reset with
    podsize := 2
    mem := { cells := ((leBytes 8 0x10001).zipIdx.map (fun e => (e.2, e.1))) ++
               ((leBytes 8 (if peer then 0x10000000003F else 0x1F)).zipIdx.map (fun e => (0x10000 + e.2, e.1))) ++
               ((([511, 0x30000, 16, 0].map (leBytes 8)).flatten).zipIdx.map (fun e => (0x20000 + e.2, e.1)))
             keys := [0, 0x1000, 0x2000, 0x2001].map (fun b => (b, (0, 0))), poison := [] } }

set_option maxRecDepth 20000 in
theorem met_ContextCommandResult :
    takesB (listState false) (fun s _ =>
     s.rot.lcs != 1 && s.rot.lcs != 4 && mfree s.ctxs 256 == some 0 && !badDescriptor (newCtx 2 desc0) &&
      (match (s.readList 0 (newCtx 2 desc0) []).got with
       | .data bs false => (listOf bs).length == 1 && !badList (listOf bs) && !(listOf bs).any (fun e => (mget s.chains (e.getD 0 0).toNat).isSome)
       | _ => false)) = true ∧
    takesB (listState true) (fun s _ => (s.readList 0 (newCtx 2 desc0) []).got matches .wait) = true ∧
    takesB { sState { sCtx with ident := 2 } { sCrew with done := true } with queues := [(4095, queue0)] } (fun s _ =>
     (mget s.ctxs 0).any (fun x => x.ident == 2) && (mget s.ctxs 255).isNone && (mget s.queues 0).isNone && (mget s.queues 4095).any (fun b => b.ident == 2) &&
      (s.resumeCtx 0).isNone) = true ∧
    (let s := { State.reset with ctxs := [(0, { sCtx with ident := 2, halted := true, recorded := true })] }
     ((s.writeArea 0 sCtx (s.areaPieces sCtx 0 [] true)).resumeCtx 0).isSome) = true ∧
    ((State.reset.received { ident := 2, tag := 0 }).isNone &&
      ((cmdState { State.reset with tlbWait := some ⟨{ ident := 2, tag := 0 }, 0, 0, 0, 1⟩ }).received { ident := 2, tag := 0 }).any (fun t => t.tlbWait.isSome) &&
      ((cmdState { State.reset with ctxWait := some ⟨{ ident := 2, tag := 0 }, 0, desc0, [], false⟩ }).received { ident := 2, tag := 0 }).any (fun t => t.ctxWait.isSome)) = true := by
  refine ⟨?_, ?_, ?_, ?_, ?_⟩ <;> decide

theorem met_DeviceCommandResult :
    takesB { sState sCtx sCrew with mem := lineMem (fun _ => 1), freezes := [(0, { frozenLine 1 with state := .thawing, asked := [1] })] } (fun s b =>
     (State.invalidate { s with tlbWait := some ⟨{ ident := 2, tag := 0 }, b.slot, 0, 0x20000, 128⟩ } 0 0x20000 128).2 && !s.ctxs.any (fun e => e.2.ptown == 255) &&
      (mget s.freezes 0).any (fun f => f.state == .thawing && f.asked.contains 1) && s.mayUse { ident := 2, tag := 0 } b 0 && inHbm 0x20000 128 &&
      !s.entriesHit 0x20000 128 && (match s.recallLines 0x20000 128 with | .ok t => !t.poisoned 0x20000 128 | .error _ => false)) = true ∧
    takesB (sState sCtx { sCrew with loads := [ld0] }) (fun s b =>
     !(State.invalidate { s with tlbWait := some ⟨{ ident := 2, tag := 0 }, b.slot, 0, 0x20000, 128⟩ } 0 0x20000 128).2) = true ∧
    (takesB State.reset (fun t _ => t.ctxs.isEmpty) && (State.reset.received { ident := 2, tag := 0 }).isNone) = true := by decide

theorem met_SpdmEventResult :
    (let s := (State.reset.modRot (fun r => { r with boot := 7 })).setConn 0 1 none
     !s.rot.silent && decide (1 ≤ s.rot.stage 0) && decide (((9 : Byte).toNat ≤ 9) ∧ (1 : Byte) ≠ 0)) = true ∧
    ((cmdState State.reset).accept 2 0).isSome = true ∧ (State.reset.accept 2 0).isNone = true := by decide

/-- A token of this part in its lifecycle, of a target. -/
def token (lcf target : Byte) : List Byte :=
  [0, 0, 0, 0, lcf, target, 0, 0] ++ (leBytes 8 Config.uid0.toNat ++ leBytes 8 Config.uid1.toNat) ++ List.replicate 104 0

set_option maxRecDepth 20000 in
theorem met_RootOfTrustEventResult :
    (State.reset.rot.hbusy = false ∧ State.reset.rot.ebusy = false ∧ State.reset.ctxs = [] ∧ State.reset.rot.herr = false) ∧
    (∃ s : State, s.rot.hbusy = true ∧ s.rot.hlen.toNat < 2 ^ 32 ∧ s.mgmtBytes s.rot.hsrc.toNat s.rot.hlen.toNat = some [] ∧ s.rot.ebusy = true ∧
      s.rot.emlen.toNat ≤ 4096 ∧ s.rot.kbusy = true ∧ s.ctxs = []) ∧
    (∃ s : State, s.ctxs ≠ []) ∧
    (State.reset.rot.tokenFits ((tokenOf []).take 64) = false) ∧
    (State.reset.rot.tokenFits ((tokenOf (token 2 0)).take 64) = true ∧ (tokenOf (token 2 0)).getD 5 0 = 0 ∧ State.reset.rot.dbgLock = false) ∧
    (State.reset.rot.lcf = 2 ∧ (tokenOf (token 2 4)).getD 5 0 = 4) ∧
    takesB State.reset (fun t _ => t.rot.lcf == 2 && !t.rot.dbgLock && t.ctxs.isEmpty) = true := by
  refine ⟨by decide, ⟨State.reset.modRot (fun r => { r with hbusy := true, ebusy := true, kbusy := true }), by decide, by decide, rfl, by decide, by decide, by decide, rfl⟩,
    ⟨tState, by decide⟩, by decide, ⟨?_, rfl, rfl⟩, ⟨rfl, rfl⟩, by decide⟩
  have h : (((tokenOf (token 2 0)).take 64).drop 8).take 16 = leBytes 8 Config.uid0.toNat ++ leBytes 8 Config.uid1.toNat := rfl
  have g : ((tokenOf (token 2 0)).take 64).length == 64 && ((tokenOf (token 2 0)).take 64).getD 4 0 == State.reset.rot.lcf := rfl
  rw [Rot.tokenFits, h, g]
  simp

theorem met_DeviceEventResult :
    (let n := bits (mgetD State.reset.gzcore 255 0x888888888) 28 4
     n == 8 && decide ((State.reset.residents 255 7).foldl (fun n c => n + c.nregs * c.w) 0 ≤ 8192 * (n - 1)) && mgetD State.reset.gzslice 127 16 != 0 &&
      !State.reset.clusterHeld 63) = true ∧
    (∃ s : State, s.snap.pinen = true ∧ s.snap.pending = true) ∧ State.reset.snap.pinen = false ∧
    (∃ s : State, s.rot.die = 0 ∧ s.rot.hbeat + Config.hbeatClk ≤ s.clk ∧ s.rot.warm = true) :=
  ⟨by decide, ⟨{ State.reset with snap := { State.reset.snap with pinen := true, pending := true } }, rfl, rfl⟩, rfl,
    ⟨{ State.reset with clk := Config.hbeatClk }, rfl, Nat.le_of_eq (Nat.zero_add _), rfl⟩⟩

/-! Decoding. The words are written out from the formats of R24 to R41: every field has a value of its own, and the opcode of
R42, or the index of R40, is added in its place. -/

def gD : Guard := ⟨5, true⟩
def pL3 : L3 := { g := gD, la := 9, dst := 0x0A5, ocw := 6, sa := 0x113, xa := 5, ka := true, sb := 0x0C6, xb := 3, kb := false, mod6 := 0x29 }
def pLI (md : BitVec 4) : LI := { g := gD, la := 9, dst := 0x0A5, md := md, sa := 0x113, xa := 5, ka := true, imm := 0x5A5A5 }
def pLM : LM := { g := gD, la := 9, dst := 0x0A5, md := 6, base := 0xC3, wt := 5, scp := 2, pol := 1, off := 0xFFF3 }
def pLB (md : BitVec 4) : LB := { g := gD, la := 9, dst := 0x0A5, md := md, off := 0x89ABCDEF }
def pLE (md : BitVec 4) (fn : BitVec 6) : LE :=
  { g := gD, la := 9, dst := 0x0A5, md := md, sa := 0x113, ka := true, sb := 0x0C6, kb := false, fn := fn }
def pLX : LX := { g := gD, la := 9, tile := 0x15, q := 2, za := true, text := 3, sa := 0x113, sb := 0x0C6, sc := 0x1A5 }
def pC3 : C3 := { g := gD, d := 0x2A, a := 0x15, b := 0x33 }
def pCI : CI := { g := gD, d := 0x2A, imm := 0xA5C }
def pCB : CB := { g := gD, off := 0x2ABCD }

theorem test_decode_l3 :
    [0x00, 0x01, 0x02, 0x03, 0x04, 0x05, 0x06, 0x07, 0x08, 0x09, 0x0A, 0x0B, 0x0C, 0x0D, 0x0E, 0x0F, 0x10, 0x11, 0x12, 0x13, 0x14, 0x15, 0x16, 0x17,
      0x18, 0x19, 0x1A, 0x1B, 0x1C, 0x1D, 0x1E, 0x1F, 0x20, 0x21, 0x22, 0x23, 0x30, 0x31, 0x32, 0x33, 0x34, 0x35, 0x36, 0x37, 0x38, 0x39, 0x3A, 0x3B,
      0x3C, 0x3D, 0x3E, 0x3F, 0x40, 0x41, 0x42, 0x43, 0x50, 0x51, 0x52, 0x53, 0x54, 0x55, 0x56, 0x57, 0x58, 0x60, 0x61, 0x62, 0x63, 0x64, 0x65, 0x66,
      0x67, 0x68, 0x69, 0x6A, 0x70, 0x72, 0x73, 0x74, 0x76, 0x78, 0x79, 0x7A].map (fun o => decodeTableWord 64 (0xA4D8DB13652CD403 + 4 * o)) =
      [.iadd pL3, .isub pL3, .iaddc pL3, .isubb pL3, .imul pL3, .imulh pL3, .imad pL3, .idiv pL3, .irem pL3, .ineg pL3, .iabs pL3, .imin pL3,
      .imax pL3, .and pL3, .or pL3, .xor pL3, .andn pL3, .not pL3, .shl pL3, .shr pL3, .sar pL3, .rol pL3, .funsh pL3, .popc pL3, .clz pL3, .ctz pL3,
      .brev pL3, .bfe pL3, .bfi pL3, .prmb pL3, .lea pL3, .sel pL3, .icmp pL3, .plop pL3, .pmov pL3, .idot4 pL3, .fadd pL3, .fsub pL3, .fmul pL3,
      .ffma pL3, .fmin pL3, .fmax pL3, .fminm pL3, .fmaxm pL3, .fabs pL3, .fneg pL3, .fcopys pL3, .fcmp pL3, .fclass pL3, .frnd pL3, .fcvt pL3,
      .f2i pL3, .i2f pL3, .fscale pL3, .fgete pL3, .fdot2 pL3, .rcp pL3, .sqrt pL3, .rsq pL3, .exp2 pL3, .log2 pL3, .had32 pL3, .bmax pL3, .qnt pL3,
      .dqnt pL3, .shfl pL3, .vote pL3, .ballot pL3, .matchLanes pL3, .redc pL3, .scan pL3, .compact pL3, .hist pL3, .hmerge pL3, .bsrch pL3,
      .topk pL3, .mov pL3, .movs pL3, .smov pL3, .shape pL3, .movx pL3, .perm pL3, .ocld pL3, .ocinv pL3].map some := by rfl

theorem test_decode_li :
    [0x75, 0x77].map (fun o => decodeTableWord 64 (0xB4B4BB13652CD403 + 4 * o)) =
      [.ixset (pLI 6), .xset (pLI 6)].map some := by rfl

theorem test_decode_lm :
    [0x7B, 0x7C, 0x80, 0x81, 0x82, 0x83, 0x84, 0x85, 0x86].map (fun o => decodeTableWord 64 (0xFFF355C3652CD403 + 4 * o)) =
      [.vsave pLM, .vrest pLM, .ldg pLM, .stg pLM, .ldc pLM, .pref pLM, .atom pLM, .red pLM, .stm pLM].map some := by rfl

theorem test_decode_lb :
    [0xD0, 0xD2, 0xE3, 0xE5].map (fun o => decodeTableWord 64 (0x89ABCDEF652CD403 + 4 * o)) =
      [.bra (pLB 6), .call (pLB 6), .spawn (pLB 6), .recruit (pLB 6)].map some := by rfl

theorem test_decode_lx :
    [0xC0, 0xC1, 0xC2, 0xC3].map (fun o => decodeTableWord 64 (0x6958D13360ACD403 + 4 * o)) =
      [.mma pLX, .mmas pLX, .mmag pLX, .mmax pLX].map some := by rfl

theorem test_decode_le :
    [0x87, 0x88, 0x89, 0x8A, 0x8B, 0x8D, 0x8F, 0xA0, 0xA1, 0xA2, 0xA3, 0xA4, 0xA6, 0xB0, 0xB1, 0xB2, 0xB3, 0xB4, 0xB5, 0xB6, 0xB8, 0xC4, 0xC5, 0xC7,
      0xC8, 0xC9, 0xD1, 0xD3, 0xD4, 0xD5, 0xD6, 0xD7, 0xD9, 0xE0, 0xE1, 0xE2, 0xE4, 0xE7, 0xE8, 0xEA, 0xEB, 0xEC, 0xED, 0xEF].map (fun o => decodeTableWord 64 (0xA418D113652CD403 + 4 * o)) =
      [.rwb (pLE 6 0x29), .rinv (pLE 6 0x29), .rwi (pLE 6 0x29), .freeze (pLE 6 0x29), .thaw (pLE 6 0x29), .crdecl (pLE 6 0x29),
      .promote (pLE 6 0x29), .fence (pLE 6 0x29), .acq (pLE 6 0x29), .rel (pLE 6 0x29), .waitc (pLE 6 0x29), .cntrd (pLE 6 0x29),
      .yieldpt (pLE 6 0x29), .txfer (pLE 6 0x29), .chpush (pLE 6 0x29), .chtail (pLE 6 0x29), .qfence (pLE 6 0x29), .bbinit (pLE 6 0x29),
      .bbarr (pLE 6 0x29), .bbwait (pLE 6 0x29), .clstat (pLE 6 0x29), .accz (pLE 6 0x29), .task (pLE 6 0x29), .ttok (pLE 6 0x29),
      .accrd (pLE 6 0x29), .accfree (pLE 6 0x29), .brx (pLE 6 0x29), .callx (pLE 6 0x29), .ret (pLE 6 0x29), .land (pLE 6 0x29), .rcv (pLE 6 0x29),
      .exit (pLE 6 0x29), .brk (pLE 6 0x29), .bar (pLE 6 0x29), .bara (pLE 6 0x29), .barw (pLE 6 0x29), .syncw (pLE 6 0x29), .hrel (pLE 6 0x29),
      .nqpush (pLE 6 0x29), .hpush (pLE 6 0x29), .hdrain (pLE 6 0x29), .hclr (pLE 6 0x29), .trap (pLE 6 0x29), .snap (pLE 6 0x29)].map some := by rfl

/-- Where a field of the word tells the forms of an opcode apart (R33, R112, R125, R175, R332, R338, R354, R398, R415, R442), and
the hints (R45). -/
theorem test_decode_shared :
    [0x18D113052CD633, 0x18D113152CD633, 0x18D113252CD633, 0x18D113052CD63B, 0x18D113152CD63B, 0x18D113052CD697, 0x418D113052CD697,
      0x818D113052CD697, 0x18D113052CD6DF, 0x18D113152CD6DF, 0x18D113052CD71B, 0x18D113152CD71B, 0x18D113052CD72B, 0x18D113152CD72B,
      0x18D113252CD72B, 0x18D113052CD79B, 0x18D113052CD7A7, 0x18D113252CD7A7, 0x18D113152CD7A7, 0x18D113052CD7BB, 0x18D113152CD7BB, 0x18D113252CD7BB,
      0x18D113352CD7BB, 0xB4B4BB13052CD5C7, 0xB4B4BB13152CD5C7, 0x89ABCDEF152CD763, 0x89ABCDEF552CD763, 0x89ABCDEFA52CD763, 0x89ABCDEFE52CD763,
      0x18D113752CD7C3, 0x18D113752CD7C7, 0x18D113752CD7CB, 0x18D113752CD7CF, 0x18D113752CD7D3, 0x18D113752CD7D7, 0x18D113752CD7DB, 0x18D113752CD7DF,
      0x18D113752CD7E3, 0x18D113752CD7E7, 0x18D113752CD7EB, 0x18D113752CD7EF, 0x18D113752CD7F3, 0x18D113752CD7F7, 0x18D113752CD7FB, 0x18D113752CD7FF].map (decodeTableWord 64) =
      [.frzqAddr (pLE 0 0), .frzqSeq (pLE 1 0), .frzqFree (pLE 2 0), .crrel (pLE 0 0), .crrelEnd (pLE 1 0), .seqwaitChain (pLE 0 0),
      .seqwaitThaw (pLE 0 1), .seqwaitMem (pLE 0 2), .grpdef (pLE 0 0), .grpdefDel (pLE 1 0), .tdoneRun (pLE 0 0), .tdone (pLE 1 0),
      .mstat (pLE 0 0), .mstatClr (pLE 1 0), .mstatCtl (pLE 2 0), .hjoin (pLE 0 0), .nqtake (pLE 0 0), .nqtakeTry (pLE 2 0), .nqtakeRet (pLE 1 0),
      .tret (pLE 0 0), .tretSkip (pLE 1 0), .tretGet (pLE 2 0), .tretSet (pLE 3 0), .movi (pLI 0), .moviHi (pLI 1), .loop (pLB 1), .loopSet (pLB 5),
      .loopSeti (pLB 10), .loopGet (pLB 14), .nop, .prioh 7, .loch (pLE 7 0), .hint 3, .hint 4, .hint 5, .hint 6, .hint 7, .hint 8, .hint 9,
      .hint 10, .hint 11, .hint 12, .hint 13, .hint 14, .hint 15].map some := by rfl

theorem test_decode_c3 :
    [0x00, 0x01, 0x02, 0x03, 0x04, 0x05, 0x06, 0x07, 0x08, 0x09, 0x0A, 0x0B, 0x0C, 0x0D, 0x0E, 0x0F, 0x10, 0x11, 0x12, 0x13, 0x14, 0x15, 0x16, 0x17,
      0x18, 0x19, 0x1A, 0x1B, 0x1C, 0x1D, 0x1E, 0x1F, 0x20, 0x21, 0x22, 0x23, 0x24, 0x25, 0x26, 0x27, 0x28, 0x29, 0x2A, 0x2B, 0x2C, 0x2D, 0x2E, 0x2F,
      0x30, 0x31, 0x32, 0x33, 0x34, 0x35, 0x36, 0x37, 0x38, 0x39, 0x3A, 0x3B, 0x3C, 0x3D, 0x3E, 0x3F, 0x40, 0x41, 0x42, 0x43, 0x44, 0x45, 0x46, 0x47,
      0x48, 0x49, 0x4A, 0x4B, 0x4C, 0x4D, 0x4E, 0x4F, 0x50, 0x51, 0x52, 0x53, 0x54, 0x55, 0x56, 0x57, 0x58, 0x59, 0x5A, 0x5B, 0x5C, 0x5D].map (fun o => decodeTableWord 32 (0xCD5AAA01 + 4 * o)) =
      [.c3IaddI32 pC3, .c3IsubI32 pC3, .c3ImulI32 pC3, .c3ImulhI32 pC3, .c3ImulhN32 pC3, .c3IdivI32 pC3, .c3IdivN32 pC3, .c3IremI32 pC3,
      .c3IremN32 pC3, .c3IminI32 pC3, .c3IminN32 pC3, .c3ImaxI32 pC3, .c3ImaxN32 pC3, .c3AndB32 pC3, .c3OrB32 pC3, .c3XorB32 pC3, .c3AndnB32 pC3,
      .c3ShlB32 pC3, .c3ShrB32 pC3, .c3SarB32 pC3, .c3RolB32 pC3, .c3PrmbB32 pC3, .c3InegI32 pC3, .c3IabsI32 pC3, .c3NotB32 pC3, .c3PopcB32 pC3,
      .c3ClzB32 pC3, .c3CtzB32 pC3, .c3BrevB32 pC3, .c3IaddSatI32 pC3, .c3IsubSatI32 pC3, .c3MovB32 pC3, .c3FaddF32 pC3, .c3FsubF32 pC3,
      .c3FmulF32 pC3, .c3FminF32 pC3, .c3FmaxF32 pC3, .c3FminmF32 pC3, .c3FmaxmF32 pC3, .c3FcopysF32 pC3, .c3FabsF32 pC3, .c3FnegF32 pC3,
      .c3FscaleF32 pC3, .c3FgeteF32 pC3, .c3FrndRneF32 pC3, .c3FrndRtzF32 pC3, .c3FrndRupF32 pC3, .c3FrndRdnF32 pC3, .c3F2iRtzI32F32 pC3,
      .c3F2iRtzN32F32 pC3, .c3F2iRneI32F32 pC3, .c3F2iRneN32F32 pC3, .c3I2fRneF32I32 pC3, .c3I2fRneF32N32 pC3, .c3FcvtRneBf16F32 pC3,
      .c3FcvtRneF16F32 pC3, .c3FcvtF32Bf16 pC3, .c3FcvtF32F16 pC3, .c3FclassF32 pC3, .c3RcpF32 pC3, .c3SqrtF32 pC3, .c3RsqF32 pC3, .c3Exp2F32 pC3,
      .c3Log2F32 pC3, .c3FaddF16x2 pC3, .c3FsubF16x2 pC3, .c3FmulF16x2 pC3, .c3FminF16x2 pC3, .c3FmaxF16x2 pC3, .c3FabsF16x2 pC3, .c3FnegF16x2 pC3,
      .c3FcvtRneF16x2F32 pC3, .c3FaddBf16x2 pC3, .c3FsubBf16x2 pC3, .c3FmulBf16x2 pC3, .c3FminBf16x2 pC3, .c3FmaxBf16x2 pC3, .c3FabsBf16x2 pC3,
      .c3FnegBf16x2 pC3, .c3FcvtRneBf16x2F32 pC3, .c3BfeN32 pC3, .c3BfeI32 pC3, .c3LeaS1 pC3, .c3LeaS2 pC3, .c3LeaS3 pC3, .c3LeaS4 pC3,
      .c3ShflAtB32 pC3, .c3ShflXorB32 pC3, .c3RedcAddI32 pC3, .c3RedcMaxI32 pC3, .c3RedcAddF32 pC3, .c3RedcMaxF32 pC3, .c3ScanAddI32 pC3,
      .c3ScanAddF32 pC3].map some := by rfl

theorem test_decode_ci :
    [0x60, 0x61, 0x62, 0x63, 0x64, 0x65, 0x66, 0x67, 0x68, 0x69, 0x6A, 0x6B, 0x6C].map (fun o => decodeTableWord 32 (0xA5CAAA01 + 4 * o)) =
      [.ciIaddI32 pCI, .ciImulI32 pCI, .ciAndB32 pCI, .ciOrB32 pCI, .ciXorB32 pCI, .ciShlB32 pCI, .ciShrB32 pCI, .ciSarB32 pCI, .ciIminI32 pCI,
      .ciImaxI32 pCI, .ciMoviB32 pCI, .ciFscaleF32 pCI, .ciMoviHi pCI].map some := by rfl

theorem test_decode_cb :
    [0x70, 0x71, 0x72, 0x73].map (fun o => decodeTableWord 32 (0xAAF36A01 + 4 * o)) =
      [.cbBra pCB, .cbLoopLc0 pCB, .cbLoopLc1 pCB, .cbLoopLc2 pCB].map some := by rfl

theorem test_decode_s16 :
    [0x00, 0x01, 0x02, 0x03, 0x04, 0x05, 0x06, 0x07, 0x08, 0x09, 0x0A, 0x0B, 0x0C, 0x0D, 0x0E, 0x0F].map (fun o => decodeTableWord 16 (0xAD40 + 2 * o)) =
      [.s16Mov { d := 0x2A, a := 0x15 }, .s16Iadd { d := 0x2A, a := 0x15 }, .s16Isub { d := 0x2A, a := 0x15 }, .s16Imin { d := 0x2A, a := 0x15 },
      .s16Imax { d := 0x2A, a := 0x15 }, .s16And { d := 0x2A, a := 0x15 }, .s16Or { d := 0x2A, a := 0x15 }, .s16Xor { d := 0x2A, a := 0x15 },
      .s16Shl { d := 0x2A, a := 0x15 }, .s16Shr { d := 0x2A, a := 0x15 }, .s16Sar { d := 0x2A, a := 0x15 }, .s16Fadd { d := 0x2A, a := 0x15 },
      .s16Fsub { d := 0x2A, a := 0x15 }, .s16Fmul { d := 0x2A, a := 0x15 }, .s16Fmin { d := 0x2A, a := 0x15 }, .s16Fmax { d := 0x2A, a := 0x15 }].map some := by rfl

/-- A MOV of a register to itself is NOP16 (R41), and what R40 and R42 leave unassigned is no instruction. -/
theorem test_decode_none :
    decodeTableWord 16 0x5140 = some (.nop16 10) ∧
    [0x24, 0x25, 0x26, 0x27, 0x28, 0x29, 0x2A, 0x2B, 0x2C, 0x2D, 0x2E, 0x2F, 0x44, 0x45, 0x46, 0x47, 0x48, 0x49, 0x4A, 0x4B, 0x4C, 0x4D, 0x4E, 0x4F,
      0x59, 0x5A, 0x5B, 0x5C, 0x5D, 0x5E, 0x5F, 0x6B, 0x6C, 0x6D, 0x6E, 0x6F, 0x7D, 0x7E, 0x7F, 0x90, 0x91, 0x92, 0x93, 0x94, 0x95, 0x96, 0x97, 0x98,
      0x99, 0x9A, 0x9B, 0x9C, 0x9D, 0x9E, 0x9F, 0xA7, 0xA8, 0xA9, 0xAA, 0xAB, 0xAC, 0xAD, 0xAE, 0xAF, 0xB9, 0xBA, 0xBB, 0xBC, 0xBD, 0xBE, 0xBF, 0xCB,
      0xCC, 0xCD, 0xCE, 0xCF, 0xDA, 0xDB, 0xDC, 0xDD, 0xDE, 0xDF].map (fun o => decodeTableWord 64 (3 + 4 * o)) = List.replicate 82 none ∧
    [94, 95, 109, 110, 111, 116, 117, 118, 119, 120, 121, 122, 123, 124, 125, 126, 127].map (fun o => decodeTableWord 32 (1 + 4 * o)) = List.replicate 17 none := by decide +kernel

/-! Ill-formed terms: for each check of WellFormed, terms that it refuses. -/

theorem test_wf_md : Instr.wf (.movi (li 0 1)) = false ∧ Instr.wf (.moviHi (li 0 0)) = false ∧
    ([1, 2].all (fun m => !Instr.wf (.frzqAddr (le 0 m 0 0 0)))) = true ∧ Instr.wf (.frzqSeq (le 0 0 0 0 0)) = false ∧
    Instr.wf (.frzqFree (le 0 3 0 0 0)) = false ∧ Instr.wf (.crrel (le 0 5 0 0 0)) = false ∧ Instr.wf (.crrelEnd (le 0 4 0 0 0)) = false ∧
    Instr.wf (.grpdef (le 0 1 0 0 0)) = false ∧ Instr.wf (.grpdefDel (le 0 2 0 0 0)) = false ∧ Instr.wf (.tdoneRun (le 0 1 0 0 0)) = false ∧
    Instr.wf (.tdone (le 0 0 0 0 0)) = false := by decide

theorem test_wf_fields : ([1, 2, 5].all (fun n => !Instr.wf (.seqwaitChain (le 0 0 0 0 n)))) = true ∧
    ([0, 2, 3].all (fun n => !Instr.wf (.seqwaitThaw (le 0 0 0 0 n)))) = true ∧ ([0, 1, 7].all (fun n => !Instr.wf (.seqwaitMem (le 0 0 0 0 n)))) = true ∧
    ([1, 2].all (fun m => !Instr.wf (.mstat (le 0 m 0 0 0)))) = true ∧ Instr.wf (.mstatClr (le 0 2 0 0 0)) = false ∧
    Instr.wf (.mstatCtl (le 0 1 0 0 0)) = false ∧ ([1, 2].all (fun m => !Instr.wf (.nqtake (le 0 m 0 0 0)))) = true ∧
    Instr.wf (.nqtakeTry (le 0 1 0 0 0)) = false ∧ Instr.wf (.nqtakeRet (le 0 2 0 0 0)) = false ∧
    ([1, 2, 3].all (fun m => !Instr.wf (.tret (le 0 m 0 0 0)))) = true ∧ Instr.wf (.tretSkip (le 0 2 0 0 0)) = false ∧
    Instr.wf (.tretGet (le 0 3 0 0 0)) = false ∧ Instr.wf (.tretSet (le 0 0 0 0 0)) = false := by decide

/-- LB of a value of md. -/
def lbm (md : Nat) : LB := { g := Guard.always, la := 0, dst := 0, md := BitVec.ofNat 4 md, off := 0 }

theorem test_wf_loop : Instr.wf (.loop (lbm 4)) = false ∧ Instr.wf (.loopSet (lbm 8)) = false ∧ Instr.wf (.loopSeti (lbm 12)) = false ∧
    Instr.wf (.loopGet (lbm 0)) = false := by decide

theorem test_wf_others : ([0, 1, 2].all (fun n => !Instr.wf (.hint (BitVec.ofNat 4 n)))) = true ∧ Instr.wf (.s16Mov { d := 9, a := 9 }) = false ∧
    Instr.wf (.s16Mov { d := 40, a := 9 }) = true ∧ Instr.wf .snapshotLatch = false ∧ Instr.wf .linkDown = false := by decide

/-! The step, and the statements that follow an instruction to its destination. -/

/-- FFMA's word of R33 and an unassigned opcode's, at the next instruction's place after reset. -/
def stepState : State := State.reset.withFetchWord 64 0x0200E80400503CCF
def badState : State := State.reset.withFetchWord 64 0x3C93

def focusCrew (s : State) (p : Crew → Bool) : Bool := match s.readyCrew s.focus with | some c => p c | none => false

theorem met_StepRunsDecodedInstruction :
    ({ State.reset with agenda := [.act .snapinPin] } : State).agenda = .act .snapinPin :: [] ∧
    ({ State.reset with agenda := [.crew 0] } : State).agenda = .crew 0 :: [] ∧ State.reset.agenda = [] ∧
    (match stepState.turnOrder stepState.focus with | id :: _ => id == stepState.focus | [] => false) = true ∧
    focusCrew stepState (fun c => !c.pc.getLsbD 0 && c.fbuf.isEmpty && [0, 2, 6].all (fun n => stepState.fetchFree c (c.pc + BitVec.ofNat 64 n)) &&
      (let a := stepState.bufRead (c.fetcher stepState.focus) .fetch [] c.pc 2
       match a.got with
       | .data h false => insnLen (h.getD 0 0) == 8 &&
           ((a.s.bufRead (c.fetcher stepState.focus) .fetch a.buf (c.pc + 2) 6).got matches .data _ false)
       | _ => false)) = true ∧
    (match stepState.turn stepState.focus with | .next t => t.hasIssued stepState stepState.focus | _ => false) = true ∧
    State.reset.readyCrew 5 = none ∧
    focusCrew stepState (fun c => match State.fetch { stepState with focus := stepState.focus } stepState.focus c with
      | .word _ bs => (decode c.isHelper bs matches .ok (.ffma _, 8))
      | .out _ => false) = true ∧
    focusCrew badState (fun c => match State.fetch { badState with focus := badState.focus } badState.focus c with
      | .word _ bs => (decode c.isHelper bs matches .error (.opcode 0x24))
      | .out _ => false) = true ∧
    focusCrew { stepState with crews := stepState.crews.map (fun e => (e.1, { e.2 with paths := [newPath 0x10001 1 0 true] })) }
      (fun c => stepState.fetch stepState.focus c matches .out _) = true := by decide

/-- Whether an instruction answers a next state whose crew in focus passes a test. -/
def afterIs (i : Instr) (s : State) (p : State → Crew → Bool) : Bool :=
  match exec i s with | .next t => (match mget t.crews s.focus with | some d => p t d | none => false) | _ => false

/-- No path is spilled and the table has two entries free. -/
def fits (c : Crew) : Bool := decide (c.paths.length ≤ 6) && c.paths.all (fun p => !p.spilled)

theorem met_MinimumMaximumAndDivisionAndShifts :
    ([0x0B, 0x0C, 0x07, 0x08].all (fun o => ready (int2 o 8 (f3 0) none) tState && ready (int2 o 8 (f3 3) none) tState)) = true ∧
    ([0x12, 0x13, 0x14, 0x15].all (fun o => ready (shift2 o 8 (f3 0) none) tState && ready (shift2 o 8 (f3 3) none) tState)) = true ∧
    ([(0x17, true), (0x18, true), (0x19, true), (0x1A, false)].all (fun e => ready (int1 e.1 8 (f3 2) e.2) tState)) = true ∧
    fits tCrew = true ∧ tCrew.hgroup = none := by decide

theorem met_RegisterWriteFollowsLanes : 0 < tCrew.w ∧ tCrew.live &&& ~~~15 = 0 ∧ tCrew.live &&& ~~~3 ≠ 0 ∧
    ((mget tCrew.regs 0).map (·.shape)).getD (.u 0) = normShape tCrew.w (.u 7) ∧
    ((mget tCrew.regs 0).map (·.shape)).getD (.u 0) ≠ normShape tCrew.w (.a 0 1) ∧ (1 < tCrew.w) := by decide

/-- L3 of sources v3, which is affine, and v0 or v3. -/
def fA (sb : BitVec 9) : L3 := { f3 0 with sa := 3, sb := sb }

theorem met_AffineResults :
    ([(0x00, 0), (0x00, 3), (0x01, 3), (0x04, 0), (0x12, 0), (0x0B, 0), (0x0D, 3)].all (fun e => met e.1 8 Guard.always (fun x =>
      match x.fetch (srcsAB (fA e.2) 1 1 none) with
      | .ok [[a], [b]] => affOf a.sh == some (0, 1) && (affOf b.sh).isSome && b.isU == (e.2 == 0) && intLegal e.1 0 && okB (dstCheck x.c 8 1 true)
      | _ => false))) = true ∧
    met 0x04 8 Guard.always (fun x => match x.fetch (srcsAB { fA 3 with sa := 0 } 1 1 none) with
      | .ok [[a], [b]] => a.isU && affOf b.sh == some (0, 1)
      | _ => false) = true ∧
    met 0x09 8 Guard.always (fun x => match x.fetch [{ (fA 0).srcA with k := 1 }] with | .ok [[a]] => affOf a.sh == some (0, 1) | _ => false) = true ∧
    ([0x04, 0x12].all (fun o => met o 8 Guard.always (fun x => match x.fetch (srcsAB { fA 0 with sa := 0 } 1 1 none) with
      | .ok [[a], [b]] => a.isU && b.isU && ((affOf b.sh).map (·.1.toNat)).any (fun k => decide (k < 32))
      | _ => false))) = true ∧
    met 0x06 8 Guard.always (fun x => match (fA 0).srcC with
      | some d => (match x.fetch [{ (fA 0).srcA with d := 0 }, (fA 0).srcB, { d with k := 1 }] with
        | .ok [[a], [b], [o]] => a.isU && b.isU && (affOf o.sh).isSome
        | _ => false)
      | none => false) = true ∧
    ([({ fA 0 with mod6 := 0x20 }, false), ({ fA 3 with sa := 0 }, true), (fA 0, false)].all (fun e =>
      metIn { tState with crews := [(0, { tCrew with oc := [(0, ru 4)] })] } 0x06 8 Guard.always (fun x =>
      match e.1.srcC with
      | some d => (match x.fetch [e.1.srcA, e.1.srcB, { d with k := 1 }] with
        | .ok [[a], [b], [o]] => (if e.2 then a.isU && affOf b.sh == some (0, 1) else b.isU && affOf a.sh == some (0, 1)) &&
            (affOf o.sh).isSome && intLegal 0x06 e.1.mod6
        | _ => false)
      | none => false))) = true := by decide

/-- Whether the instruction given is illegal for the crew of tState in one of R245's, R46's or R318's ways. -/
def turnedAway (q : Slot) : Bool :=
  match tCrew.running, tState.loadSetCrew q.opc tCrew with
  | some _, some _ => tState.canIssue tCrew && tCrew.fence.isNone && !tCrew.holdHolds q.opc && tCrew.hgroup.isNone &&
      decide (tCrew.frames.length < 4) && fits tCrew && (!tCrew.roleOk q.opc || !q.g.ok || (!q.legal && !tCrew.guardOwed q.g))
  | _, _ => false

theorem met_IllegalInstructionTraps :
    ([Instr.accz (le 0 0 0 0 0), .iadd { f3 0 with g := ⟨13, false⟩ }, .idiv (f3 0x3F)].all (fun i =>
      match i.slot with | some q => turnedAway q | none => false)) = true := by decide

theorem met_Frames :
    ([Instr.iadd (f3 0), .ffma { f3 0 with mod6 := 0 }, .redc (f3 0)].all (fun i => i.regTouch.isSome && afterIs i tState (fun _ _ => true))) = true ∧
    ([Instr.bra (lbm 0), .ldg (lm 8 16 4 0 0), .trap (le 0 0 0 0 5)].all (fun i => i.issueTouch.isSome && afterIs i mState (fun _ _ => true))) = true ∧
    tCrew.running.isSome = true ∧ mCrew.running.isSome = true ∧ fits mCrew = true := by decide

theorem met_TranslationGuardsAccess :
    ([Acc.load, .store, .atomic, .range].all (fun a => okB (mState.translate 0 0 0x20000 a).2)) = true ∧ permCheck .store 0x3507 = some 5 ∧
    2 ^ 57 ≤ (0xFFFFFFFFFFFFFFFF : Dword).toNat := by decide

theorem met_EncodeDecodeRoundTrip : (Instr.iadd (f3 0)).WF ∧ (Instr.hjoinHelper (le 0 0 0 0 0)).WF ∧ (Instr.hjoin (le 0 0 0 0 0)).WF := by decide

theorem met_NothingStopsTheDevice : (tState.viewCrew tState.focus).isSome = true ∧ State.reset.viewCrew State.reset.focus = none ∧
    (Instr.iadd (f3 0)).slot.isSome = true ∧ Instr.slot .snapshotLatch = none := by decide

theorem met_EveryStepKeepsMemoryCanonical : State.reset.Inv ∧ ∃ t, step State.reset = .next t :=
  ⟨by unfold State.Inv; decide, _, rfl⟩

/-! One step each, on the values that the spec works out or that follow from its rule by hand. -/

/-- The small state with the registers v0, v4 and v8 given. -/
def valState (a b d : Word) : State := { tState with crews := [(0, { tCrew with regs := [(0, ru a), (4, ru b), (8, ru d)] })] }

/-- The word of v8 in lane 0 after an instruction. -/
def gives (i : Instr) (s : State) (v : Word) : Bool := afterIs i s (fun _ d => regAt (mget d.regs 8) 0 == v)

/-- HomeWriteRule: a byte and no pool. -/
theorem met_HomeWriteRule : State.reset.Inv ∧ (([(0x20000, 1), (0x20001, 2)] : List Host.Cell).map (·.1)).Nodup ∧ State.reset.pools = [] :=
  ⟨by unfold State.Inv; decide, by decide, rfl⟩

/-- R252's table. -/
theorem test_idiv : ([(0xFFFFFFF9, 2, 0xFFFFFFFD), (7, 0xFFFFFFFE, 0xFFFFFFFD), (5, 0, 0xFFFFFFFF), (0x80000000, 0xFFFFFFFF, 0x80000000)].all
      (fun e => gives (.idiv (f3 0)) (valState e.1 e.2.1 0) e.2.2)) = true ∧ gives (.idiv (f3 1)) (valState 0xFFFFFFF9 2 0) 0x7FFFFFFC = true := by
  decide

theorem test_irem : ([(0xFFFFFFF9, 2, 0xFFFFFFFF), (7, 0xFFFFFFFE, 1), (5, 0, 5), (0x80000000, 0xFFFFFFFF, 0)].all
      (fun e => gives (.irem (f3 0)) (valState e.1 e.2.1 0) e.2.2)) = true ∧ gives (.irem (f3 1)) (valState 0xFFFFFFF9 2 0) 1 = true := by decide

/-- R279's example. -/
theorem test_fdot2 : gives (.fdot2 (f3 0)) (valState 0x3F803F80 0xB3803F80 0) 0x3F7FFFFF = true := by decide +kernel

/-- R291's and R292's example: 10.0 under the scale 0x7A, and the greatest E4M3 value under the greatest scale. -/
theorem test_qnt : gives (.qnt (f3 0)) (valState 0x41200000 0x7A 0) 0x7A = true := by decide +kernel

theorem test_dqnt : gives (.dqnt (f3 0)) (valState 0x7A 0x7A 0) 0x41200000 = true ∧ gives (.dqnt (f3 0)) (valState 0x7E 0xFE 0) 0x7F800000 = true := by
  decide +kernel

/-- R286's examples, as results that are on their way, and R290's BMAX. -/
theorem test_specialFunctions : exp2C 0x3F000000 = (0x3FB504F3, flNX) ∧ exp2C 0xBF800000 = (0x3F000000, 0) ∧ log2C 0x3F800000 = (0, 0) ∧
    bmaxBlock 0 [0x41200000, 0x3F800000, 0xC0000000] = 0x7A := by decide +kernel

/-- What an instruction's result, still on its way, gives in a lane. -/
def owes (i : Instr) (s : State) (l : Nat) (v : Word) : Bool := afterIs i s (fun _ d =>
  d.pends.any (fun p => p.dests.any (fun e => e.dst == .reg 8 && e.lanes.getLsbD l && e.sh.at l == v)))

/-- R301's example: lanes 0 to 3 of 16 take part. -/
def redState : State := { tState with crews := [(0, { tCrew with
  w := 16, launched := 0xFFFF, paths := [newPath 0x10000 15 0 true, { newPath 0x10000 0xFFF0 0 true with mask := 0xFFF0 }],
  regs := [(0, { shape := .g ([0x4B800000] ++ List.replicate 15 0x3F800000), poison := 0 })] })] }

theorem test_redc : ([0, 1, 2, 3].all (fun l => owes (.redc { f3 2 with la := 2, sb := 0x110 }) redState l 0x4B800001)) = true := by decide +kernel

theorem test_scan : ([(0, 0x4B800000), (1, 0x4B800000), (2, 0x4B800001), (3, 0x4B800001)].all (fun e =>
    owes (.scan { f3 2 with la := 2, sb := 0x110 }) redState e.1 e.2)) = true := by decide +kernel

/-- R65's worked block: products 1, -1, 2^-45 and 1.75 x 2^-39. -/
theorem test_dot : dotAcc 0 [.fin false 1 0, .fin true 1 0, .fin false 1 (-45), .fin false 7 (-41)] = 0x2C400000 := by decide +kernel

/-- R248's example: an affine register times a uniform one. -/
theorem test_affine : afterIs (.imul { f3 0 with sa := 3, sb := 0 }) tState (fun _ d => (mget d.regs 8).map (·.shape) == some (.a 0 7)) = true := by
  decide

/-- R77's translation, whose leaf stands at level 2, and R82's home of its line. -/
def walkState (leaf : Dword) : State := { State.reset with
  ctxs := [(0, { hostCtx with desc := [0x0021000000100000] })]
  walks := [(0, [{ asn := 0, level := 0, path := 1, ent := 0x202101 }, { asn := 0, level := 1, path := 0x3002, ent := 0x302101 },
                 { asn := 0, level := 2, path := 0x600522B, ent := leaf }])] }

theorem test_walk : ((walkState 0x460000350F).translate 0 0 0x00C00A456789ABCD .load).2.toOption.map (fun x => (x.tgt, x.owner)) =
      some (.hbm 0x0460789ABCD, 0x35) ∧
    (((walkState 0x4600003507).translate 0 0 0x00C00A456789ABCD .store).2 matches .error ⟨5, 2, _, _⟩) = true ∧ homeSlice 0x0460789AB80 = 107 := by
  decide

/-- R215's example, on a crew of which lanes 20 to 31 have exited. -/
def exCrew : Crew := { tCrew with w := 32, launched := allLanes 32, exited := 0xFFF00000, regs := [(7, ru 5)] }

theorem test_registerWrite : mget (exCrew.writeReg 7 0xFFFFF (.u 9) 0).regs 7 = some (ru 9) ∧
    ((mget (exCrew.writeReg 7 0xFFFF (.u 9) 0).regs 7).map (fun r => (r.shape matches .g _, r.shape.at 0, r.shape.at 16))) = some (true, 9, 5) ∧
    mget (exCrew.writeReg 7 0xFFFF (.u 5) 0).regs 7 = some (ru 5) := by decide

/-- R20's registers after a row of partition 5 of core 131 was lost at boot and a unit of slice 70 at run time. -/
theorem test_gazetteer : (match exec (.rowRetire (.l2Unit 70)) State.reset with | .next t => mget t.gzslice 70 == some 15 && t.gzgen == 1 | _ => false) = true ∧
    (match exec (.rowRetire (.rfRow 131 5)) State.reset with | .next t => mget t.gzcore 131 == some 0x888788888 | _ => false) = true := by decide

/-- R411, R404: the lanes of p0, 0 and 2, branch; lane 0's path keeps running and the others enter the table. -/
theorem test_bra_splits : afterIs (.bra { lbm 0 with g := { grd := 0, sns := false }, off := 0x10 }) tState (fun _ d =>
    d.running.map (fun p => (p.pc, p.mask)) == some (0x10020, 5) && d.paths.any (fun p => p.pc == 0x10008 && p.mask == 10)) = true := by decide

/-- R156: CNTRD reads one store in flight in bits 11:6. -/
theorem test_cntrd : afterIs (.cntrd (le 8 1 0 0 0)) { mState with crews := [(0, mCrew.raise cS 7)] } (fun _ d =>
    regAt (mget d.regs 8) 0 == 64) = true := by decide

/-- R440: TRAP 5 saves the instruction's own address and the handler begins at TENTRY. -/
theorem test_trap : afterIs (.trap (le 0 0 0 0 5)) tState (fun _ d => (d.frames.getLast?).map (·.pc) == some 0x10000 && d.frames.length == 1) = true := by
  decide

/-- R41's short forms, worked by hand: IADD wraps and SAR keeps the sign. -/
theorem test_short : gives (.s16Iadd { d := 8, a := 0 }) (valState 7 0 0xFFFFFFFF) 6 = true ∧ gives (.s16Isub { d := 8, a := 0 }) (valState 7 0 5) 0xFFFFFFFE = true ∧
    gives (.s16Sar { d := 8, a := 0 }) (valState 4 0 0x80000000) 0xF8000000 = true := by decide

end Sys2Proof.Tests
end

section
/-!
PROOFS. The root-of-trust block (R482, R485, R489 to R491): what each event of its registers and engines does, and the two
commands that a token authorizes.
-/

namespace Sys2Proof.Machine

/-! What exec runs for each event of the block. -/

theorem exec_hctl (s : State) (v : Dword) : exec (.hctl v) s = .next (s.startHash v) := rfl
theorem exec_hashComplete (s : State) : exec .hashComplete s = .next s.endHash := rfl
theorem exec_ectl (s : State) (v : Dword) : exec (.ectl v) s = .next (s.startVerify v) := rfl
theorem exec_verifyComplete (s : State) : exec .verifyComplete s = .next s.endVerify := rfl
theorem exec_kctl (s : State) (v : Dword) : exec (.kctl v) s = .next (s.startWipe v) := rfl
theorem exec_wipeComplete (s : State) : exec .wipeComplete s = .next s.endWipe := rfl
theorem exec_mext (s : State) (v : Dword) : exec (.mext v) s = .next (s.endHash.modRot (fun r => r.extend v.toNat)) := rfl
theorem exec_unlock (s : State) (v : Dword) : exec (.unlock v) s = .next (s.modRot (fun r => r.unlock v)) := rfl
theorem exec_dbgctl (s : State) (v : Dword) : exec (.dbgctl v) s = .next (s.modRot (fun r => r.setDbg v)) := rfl
theorem exec_registerWrite (s : State) (a : Nat) (v : Dword) (n : Nat) :
    exec (.registerWrite a ⟨v, n⟩) s = .next (s.mgmtWrite a v n) := rfl
theorem exec_dbgunlock (s : State) (h : CmdHdr) (bs : List Byte) :
    exec (.dbgunlock h bs) s = .next (s.command h { code := 0x17, ops := [], str := bs } (fun s _ => s.debugUnlock bs)) := rfl
theorem exec_lcadvance (s : State) (h : CmdHdr) (bs : List Byte) :
    exec (.lcadvance h bs) s = .next (s.command h { code := 0x18, ops := [], str := bs } (fun s _ => s.advanceLc bs)) := rfl

/-! Changes of the block. -/

@[simp] theorem State.modRot_rot (s : State) (f : Rot → Rot) : (s.modRot f).rot = f s.rot := rfl

/-- Changes that agree on the block as it stands are one change. -/
theorem State.modRot_congr {s : State} {f g : Rot → Rot} (h : f s.rot = g s.rot) : s.modRot f = s.modRot g := by
  rw [State.modRot, h, State.modRot]

@[simp] theorem State.closeSessions_lcs (s : State) : s.closeSessions.rot.lcs = s.rot.lcs := rfl
@[simp] theorem State.closeSessions_dbg (s : State) : s.closeSessions.rot.dbg = s.rot.dbg := rfl

/-! The hash engine and the measurements (R482, R485). -/

theorem State.startHash_one {s : State} (h : s.rot.hbusy = false) :
    s.startHash 1 = s.modRot (fun r => { r with hbusy := true }) := by simp [State.startHash, h]

theorem State.endHash_idle {s : State} (h : s.rot.hbusy = false) : s.endHash = s := by simp [State.endHash, h]

theorem State.endHash_done {s : State} {bs : List Byte} (h : s.rot.hbusy = true) (hl : s.rot.hlen.toNat < 2 ^ 32)
    (hb : s.mgmtBytes s.rot.hsrc.toNat s.rot.hlen.toNat = some bs) :
    s.endHash = s.modRot (fun r =>
      { r.passRng r.hsrc.toNat r.hlen.toNat with hbusy := false, herr := false, hdig := Config.sha512 bs }) := by
  rw [State.endHash, if_neg (by simp [h]), if_neg (Nat.not_le.mpr hl), hb]

theorem State.endHash_unreadable {s : State} (h : s.rot.hbusy = true)
    (hu : 2 ^ 32 ≤ s.rot.hlen.toNat ∨ s.mgmtBytes s.rot.hsrc.toNat s.rot.hlen.toNat = none) :
    s.endHash = s.modRot (fun r => { r with hbusy := false, herr := true }) := by
  have hsrc : (if 2 ^ 32 ≤ s.rot.hlen.toNat then none else s.mgmtBytes s.rot.hsrc.toNat s.rot.hlen.toNat) = none := by
    obtain hl | hb := hu
    · exact if_pos hl
    · rw [hb, ite_self]
  rw [State.endHash, if_neg (by simp [h]), hsrc]

theorem Rot.extend_of_range {r : Rot} {n : Nat} (h1 : 1 ≤ n) (h7 : n ≤ 7) (he : r.herr = false) :
    r.extend n = { r with
      meas := mput r.meas n (match mget r.meas n with
        | none => r.hdig
        | some m => Config.sha512 (digestBytes m ++ digestBytes r.hdig))
      aliasGen := if n ≤ 2 then r.aliasGen + 1 else r.aliasGen } := by
  have hc : ¬ (n = 0 ∨ 7 < n ∨ r.herr = true) := by simp [he]; omega
  exact if_neg hc

/-! The verify engine (R482, R490). -/

theorem State.startVerify_one {s : State} (h : s.rot.ebusy = false) :
    s.startVerify 1 = s.modRot (fun r => { r with ebusy := true }) := by simp [State.startVerify, h]

theorem State.endVerify_done {s : State} (h : s.rot.ebusy = true) (hl : s.rot.emlen.toNat ≤ 4096) :
    s.endVerify = s.modRot (fun r =>
      (((r.passRng r.ekey.toNat 32).passRng r.esig.toNat 64).passRng r.emsg.toNat s.rot.emlen.toNat).verified (r.ekey == 0xF020)
        (s.mgmtBytes r.ekey.toNat 32) (s.mgmtBytes r.esig.toNat 64) (s.mgmtBytes r.emsg.toNat s.rot.emlen.toNat)) := by
  simp [State.endVerify, h, Nat.not_lt.mpr hl]

/-- A token that verifies is a key-mode verify with the token's target (R490). -/
theorem State.verifyToken_rot_of_evalid {s : State} {token : List Byte} (h : (s.verifyToken token).rot.evalid = true) :
    (s.verifyToken token).rot.ekeymode = true ∧
      (s.verifyToken token).rot.etarget = some ((token.take 64).getD 5 0).toNat := by
  refine ⟨rfl, ?_⟩
  exact if_pos (by rw [Bool.and_true]; exact h)

@[simp] theorem State.verifyToken_ctxs (s : State) (token : List Byte) : (s.verifyToken token).ctxs = s.ctxs := rfl

/-! The wipe, UNLOCK and DBGCTL (R482, R491). -/

theorem State.startWipe_begins {s : State} (h : s.ctxs = []) : s.startWipe 1 = s.modRot (fun r => { r with kbusy := true }) := by
  simp [State.startWipe, h]

theorem State.startWipe_fails {s : State} (h : s.ctxs ≠ []) : s.startWipe 1 = s.modRot (fun r => { r with kerr := true }) := by
  simp [State.startWipe, h]

theorem State.endWipe_done {s : State} (h : s.rot.kbusy = true) (hc : s.ctxs = []) : s.endWipe = s.wipe := by
  simp [State.endWipe, h, hc]

/-- A wipe that is started with no context runs to its end. -/
theorem State.startWipe_endWipe {s : State} (h : s.ctxs = []) : (s.startWipe 1).endWipe = s.wipe := by
  rw [State.startWipe_begins h]
  exact State.endWipe_done rfl h

theorem Rot.mayUnlock_iff (r : Rot) :
    r.mayUnlock = true ↔ r.evalid = true ∧ r.ekeymode = true ∧ r.etarget = some 0 ∧ r.wiped = true := by
  simp [Rot.mayUnlock, and_assoc]

theorem Rot.unlock_lcs (r : Rot) : (r.unlock 1).lcs =
    if r.evalid ∧ r.ekeymode ∧ r.etarget = some 0 ∧ r.wiped then 3 else r.lcs := by
  simp only [Rot.unlock, true_and, Rot.mayUnlock_iff]
  split <;> rfl

@[simp] theorem Rot.unlock_dbgLock (r : Rot) (v : Dword) : (r.unlock v).dbgLock = r.dbgLock := by
  unfold Rot.unlock
  split <;> rfl

theorem Rot.setDbg_dbg (r : Rot) (v : Dword) :
    (r.setDbg v).dbg = if r.lcs = 3 ∧ r.dbgLock = false then v.getLsbD 0 else r.dbg := by
  simp only [Rot.setDbg, Bool.not_eq_true']
  split <;> rfl

@[simp] theorem Rot.setDbg_lcs (r : Rot) (v : Dword) : (r.setDbg v).lcs = r.lcs := by
  unfold Rot.setDbg
  split <;> rfl

/-! Register writes of the management core (R4, R481, R482). -/

/-- A write that is aligned and of a size the map takes is not ignored. -/
theorem width_legal {a n : Nat} (hn : n = 1 ∨ n = 2 ∨ n = 4 ∨ n = 8) (ha : a % n = 0) :
    ¬ (!(n == 1 || n == 2 || n == 4 || n == 8) || decide (a % n ≠ 0)) = true := by
  rcases hn with rfl | rfl | rfl | rfl <;> simp [ha]

theorem State.mgmtWrite_sram {s : State} {a n : Nat} {v : Dword} (hn : n = 1 ∨ n = 2 ∨ n = 4 ∨ n = 8) (ha : a % n = 0)
    (h : 0x1000000 ≤ a ∧ a < 0x1100000) :
    s.mgmtWrite a v n = s.modRot (fun r => { r with sram := putBytes r.sram (a - 0x1000000) (leBytes n v.toNat) }) := by
  rw [State.mgmtWrite, if_neg (width_legal hn ha), if_pos h]

theorem State.mgmtWrite_rxbuf {s : State} {a n : Nat} {v : Dword} (hn : n = 1 ∨ n = 2 ∨ n = 4 ∨ n = 8) (ha : a % n = 0)
    (h : 0x10006100 ≤ a ∧ a < 0x10006500) :
    s.mgmtWrite a v n = s.modRot (fun r => { r with rxbuf := putBytes r.rxbuf (a - 0x10006100) (leBytes n v.toNat) }) := by
  have hsram : ¬ (0x1000000 ≤ a ∧ a < 0x1100000) := by omega
  rw [State.mgmtWrite, if_neg (width_legal hn ha), if_neg hsram, if_pos h]

/-- An aligned 64-bit write below RXBUF's area is a write of that register. -/
theorem State.mgmtWrite_reg {s : State} {o : Nat} {v : Dword} (ha : o % 8 = 0) (ho : o < 0x6100) :
    s.mgmtWrite (0x10000000 + o) v 8 = s.rotWrite o v := by
  have hw : (0x10000000 + o) % 8 = 0 := by omega
  have hsram : ¬ (0x1000000 ≤ 0x10000000 + o ∧ 0x10000000 + o < 0x1100000) := by omega
  have hrx : ¬ (0x10006100 ≤ 0x10000000 + o ∧ 0x10000000 + o < 0x10006500) := by omega
  have htx : ¬ (0x10006600 ≤ 0x10000000 + o ∧ 0x10000000 + o < 0x10006A00) := by omega
  have hreg : 0x10000000 ≤ 0x10000000 + o ∧ 0x10000000 + o < 0x10007000 := by omega
  rw [State.mgmtWrite, if_neg (width_legal (by decide) hw), if_neg hsram, if_neg hrx, if_neg htx, if_pos hreg, if_pos rfl,
    Nat.add_sub_cancel_left]

theorem exec_registerWrite_reg (s : State) {o : Nat} (v : Dword) (ha : o % 8 = 0) (ho : o < 0x6100) :
    exec (.registerWrite (0x10000000 + o) ⟨v, 8⟩) s = .next (s.rotWrite o v) := by
  rw [exec_registerWrite, State.mgmtWrite_reg ha ho]

/-! The commands with a token (R489 to R491). -/

/-- A command that is taken is performed at once, in its identity's session (R470). -/
theorem State.Takes.command {s t : State} {h : CmdHdr} {b : Session} (ht : s.Takes h t b) (op : CmdOp)
    (run : State → Session → Answer) : s.command h op run = State.answered h op.code b.slot (run t b) := by
  obtain ⟨hr, htlb, hctx, hb⟩ := ht
  simp [State.command, State.onCommand, hr, htlb, hctx, hb]

theorem State.Takes.dbgunlock {s t : State} {h : CmdHdr} {b : Session} (ht : s.Takes h t b) {bs : List Byte} {r : Answer}
    (hr : t.debugUnlock bs = r) : Answers (.dbgunlock h bs) s h 0x17 b r := by
  rw [Answers, exec_dbgunlock, ht.command, hr]

theorem State.Takes.lcadvance {s t : State} {h : CmdHdr} {b : Session} (ht : s.Takes h t b) {bs : List Byte} {r : Answer}
    (hr : t.advanceLc bs = r) : Answers (.lcadvance h bs) s h 0x18 b r := by
  rw [Answers, exec_lcadvance, ht.command, hr]

section
variable {t : State} {bs : List Byte}

theorem State.debugUnlock_misfit (h : t.rot.tokenFits ((tokenOf bs).take 64) = false ∨ (tokenOf bs).getD 5 0 ≠ 0) :
    t.debugUnlock bs = t.no stState := by
  have hc : (!t.rot.tokenFits ((tokenOf bs).take 64) || (tokenOf bs).getD 5 0 != 0) = true := by
    simpa only [Bool.or_eq_true, Bool.not_eq_true', bne_iff_ne] using h
  exact if_pos hc

theorem State.debugUnlock_unverified (hv : (t.verifyToken (tokenOf bs)).rot.evalid = false) :
    t.debugUnlock bs = t.no stState := by
  simp only [State.debugUnlock, hv, Bool.not_false, if_true, ite_self]

/-- The state that the routine unlock leaves where nothing stops it: verified, wiped, unlocked, DBG written. -/
def State.unlocked (t : State) (token : List Byte) : State :=
  (t.verifyToken token).wipe.modRot (fun r => (r.unlock 1).setDbg 1)

theorem State.unlocked_lcs {token : List Byte} (hv : (t.verifyToken token).rot.evalid = true)
    (h0 : (token.take 64).getD 5 0 = 0) : (t.unlocked token).rot.lcs = 3 := by
  obtain ⟨hmode, htarget⟩ := State.verifyToken_rot_of_evalid hv
  rw [h0] at htarget
  rw [State.unlocked, State.modRot_rot, Rot.setDbg_lcs, Rot.unlock_lcs]
  exact if_pos ⟨hv, hmode, htarget, rfl⟩

theorem State.unlocked_dbg {token : List Byte} (hv : (t.verifyToken token).rot.evalid = true)
    (h0 : (token.take 64).getD 5 0 = 0) (hl : t.rot.dbgLock = false) :
    (t.unlocked token).rot.dbg = (1 : Dword).getLsbD 0 := by
  have hlcs := State.unlocked_lcs hv h0
  rw [State.unlocked, State.modRot_rot, Rot.setDbg_lcs] at hlcs
  rw [State.unlocked, State.modRot_rot, Rot.setDbg_dbg, Rot.unlock_dbgLock]
  exact if_pos ⟨hlcs, hl⟩

/-- The target of a token is byte 5 of its signed half. -/
theorem getD_take_target (token : List Byte) : (token.take 64).getD 5 0 = token.getD 5 0 := by
  simp [List.getD_eq_getElem?_getD]

theorem State.debugUnlock_done (hf : t.rot.tokenFits ((tokenOf bs).take 64) = true) (h0 : (tokenOf bs).getD 5 0 = 0)
    (hv : (t.verifyToken (tokenOf bs)).rot.evalid = true) (hc : t.ctxs = []) (hl : t.rot.dbgLock = false) :
    t.debugUnlock bs = (t.unlocked (tokenOf bs)).closeSessions.yes := by
  have ht := (getD_take_target (tokenOf bs)).trans h0
  have hfit : ¬ (!t.rot.tokenFits ((tokenOf bs).take 64) || (tokenOf bs).getD 5 0 != 0) = true := by simp only [hf, h0]; decide
  have hopen : ¬ ((t.unlocked (tokenOf bs)).rot.lcs ≠ 3 ∨ (!(t.unlocked (tokenOf bs)).rot.dbg) = true) := by
    rw [State.unlocked_lcs hv ht, State.unlocked_dbg hv ht hl]
    decide
  rw [State.debugUnlock, if_neg hfit, if_neg (by simp [hv]), if_neg (by simp [hc]), State.startWipe_endWipe (by exact hc)]
  exact if_neg hopen

theorem State.advanceLc_unverified (hv : (t.verifyToken (tokenOf bs)).rot.evalid = false) :
    t.advanceLc bs = t.no stState := by
  simp only [State.advanceLc, hv, Bool.not_false, if_true, ite_self]

theorem State.advanceLc_done
    (hs : (t.rot.lcf = 1 ∧ (tokenOf bs).getD 5 0 = 2) ∨ (t.rot.lcf = 2 ∧ (tokenOf bs).getD 5 0 = 4))
    (hv : (t.verifyToken (tokenOf bs)).rot.evalid = true) :
    t.advanceLc bs = ((t.verifyToken (tokenOf bs)).modRot (fun r => { r with lcfNext := (tokenOf bs).getD 5 0 })).yes := by
  have hstep : ((t.rot.lcf == 1 && (tokenOf bs).getD 5 0 == 2) || (t.rot.lcf == 2 && (tokenOf bs).getD 5 0 == 4)) = true := by
    simpa only [Bool.or_eq_true, Bool.and_eq_true, beq_iff_eq] using hs
  simp only [State.advanceLc, hstep, hv, Bool.not_true, Bool.false_eq_true, if_false]

end

end Sys2Proof.Machine

open Sys2Proof Sys2Proof.Machine

/-- Settles O43: each register event by the rule of its engine, the two commands by what their routines answer for the token.
HBEAT, RXLEN, TXLEN and RNG are their one assignment. -/
theorem rootOfTrustEventResult : Obligations.RootOfTrustEventResult := by
  unfold Obligations.RootOfTrustEventResult
  refine ⟨fun s v => ⟨?hctl, ?ectl, ?kctl, ?kctlErr, ?hash, ?verify, ?wipe, ?mext, ?unlock, ?dbgctl, rfl, rfl, rfl, rfl, ?areas,
    ?hsrc, ?hctlReg, ?rxlenReg⟩, fun s t h b bs ht => ⟨?misfit, fun hf h0 => ⟨?unverified, ?unlocked⟩, fun hs => ⟨?kept, ?blown⟩⟩⟩
  case hctl => intro hb; rw [exec_hctl, State.startHash_one hb]
  case ectl => intro hb; rw [exec_ectl, State.startVerify_one hb]
  case kctl => intro hc; rw [exec_kctl, State.startWipe_begins hc]
  case kctlErr => intro hc; rw [exec_kctl, State.startWipe_fails hc]
  case hash =>
    refine fun hb => ⟨fun hl bs hbs => ?_, fun hu => ?_⟩
    · rw [exec_hashComplete, State.endHash_done hb hl hbs]
    · rw [exec_hashComplete, State.endHash_unreadable hb hu]
  case verify => intro hb hl; rw [exec_verifyComplete, State.endVerify_done hb hl]
  case wipe => intro hb hc; rw [exec_wipeComplete, State.endWipe_done hb hc]
  case mext =>
    intro n h1 h7 hb he
    have hn : (BitVec.ofNat 64 n).toNat = n := by rw [BitVec.toNat_ofNat]; omega
    rw [exec_mext, State.endHash_idle hb, hn]
    exact congrArg _ (State.modRot_congr (Rot.extend_of_range h1 h7 he))
  case unlock => exact ⟨_, exec_unlock s 1, Rot.unlock_lcs s.rot⟩
  case dbgctl => exact ⟨_, exec_dbgctl s v, Rot.setDbg_dbg s.rot v⟩
  case areas =>
    refine fun a n hn ha => ⟨fun h1 h2 => ?_, fun h1 h2 => ?_⟩
    · rw [exec_registerWrite, State.mgmtWrite_sram hn ha ⟨h1, h2⟩]
    · rw [exec_registerWrite, State.mgmtWrite_rxbuf hn ha ⟨h1, h2⟩]
  case hsrc => exact exec_registerWrite_reg s (o := 0) v rfl (by decide)
  case hctlReg => exact exec_registerWrite_reg s (o := 0x10) v rfl (by decide)
  case rxlenReg => exact exec_registerWrite_reg s (o := 0x6000) v rfl (by decide)
  case misfit => exact fun hm => ht.dbgunlock (State.debugUnlock_misfit hm)
  case unverified => exact fun hv => ht.dbgunlock (State.debugUnlock_unverified hv)
  case unlocked =>
    intro hv hc hl
    have h5 := (getD_take_target (tokenOf bs)).trans h0
    exact ⟨(t.unlocked (tokenOf bs)).closeSessions, ht.dbgunlock (State.debugUnlock_done hf h0 hv hc hl),
      (State.closeSessions_lcs _).trans (State.unlocked_lcs hv h5),
      (State.closeSessions_dbg _).trans (State.unlocked_dbg hv h5 hl), rfl, rfl⟩
  case kept => exact fun hv => ht.lcadvance (State.advanceLc_unverified hv)
  case blown => exact fun hv => ht.lcadvance (State.advanceLc_done hs hv)

end

section
/-!
PROOFS. The device as a whole: capacity lost in the field (R19 to R21, R462), power (R14), snapshots (R463), power-on (R483) and
the failover of the management core (R480); and the state at reset.
-/

namespace Sys2Proof.Machine

/-! What exec runs for each event of the device. -/

theorem exec_rowRetire (s : State) (r : RowLoss) : exec (.rowRetire r) s = .next (s.retireRow r) := rfl
theorem exec_powerLimitThrottle (s : State) (w : Nat) : exec (.powerLimitThrottle w) s = .next { s with power := w } := rfl
theorem exec_snapinPin (s : State) : exec .snapinPin s = .next (if s.snap.pinen then s.trigger else s) := rfl
theorem exec_snapshotLatch (s : State) : exec .snapshotLatch s = .next s.latchSnapshot := rfl
theorem exec_powerOnReset (s : State) : exec .powerOnReset s = .next s.powerOn := rfl
theorem exec_failover (s : State) : exec .failover s = .next s.failOver := rfl

/-! Capacity (R19 to R21, R462). -/

/-- A row goes where the partition has one and its crews fit in the rest. -/
theorem State.retireRow_rfRow {s : State} {core part n : Nat} {v : Dword} (hc : core < 256) (hp : part < 8)
    (hv : mgetD s.gzcore core 0x888888888 = v) (hn : bits v (4 * part) 4 = n) (h0 : n ≠ 0)
    (hfit : (s.residents core part).foldl (fun n c => n + c.nregs * c.w) 0 ≤ 8192 * (n - 1)) :
    s.retireRow (.rfRow core part) =
      (if n = 1 then (s.setGzcore core (v - BitVec.ofNat 64 (2 ^ (4 * part)))).loseCluster (core / 4)
        else s.setGzcore core (v - BitVec.ofNat 64 (2 ^ (4 * part)))).logRetired 1 core true := by
  subst hv hn
  have hspare := not_or.mpr ⟨h0, Nat.not_lt.mpr hfit⟩
  exact (if_pos ⟨hc, hp⟩).trans (if_neg hspare)

theorem State.retireRow_l1Unit {s : State} {core : Nat} (hc : core < 256)
    (h0 : bits (mgetD s.gzcore core 0x888888888) 32 4 ≠ 0) :
    s.retireRow (.l1Unit core) = (((s.l1 core).foldl (fun (s : State) l => s.evict core l) s).setGzcore core
      (mgetD s.gzcore core 0x888888888 - BitVec.ofNat 64 (2 ^ 32))).logRetired 3 core true :=
  (if_pos hc).trans (if_neg h0)

theorem State.retireRow_l2Unit {s : State} {slice : Nat} (hs : slice < 128) (h0 : mgetD s.gzslice slice 16 ≠ 0) :
    s.retireRow (.l2Unit slice) = State.logRetired
      { s with gzslice := mput s.gzslice slice (mgetD s.gzslice slice 16 - 1), gzgen := s.gzgen + 1 } 4 slice true :=
  (if_pos hs).trans (if_neg h0)

theorem State.retireRow_fixed {s : State} {k : Nat} (kind : Nat) (hk : k < 64) (hh : s.clusterHeld k = false) :
    s.retireRow (.fixed kind k) = (s.loseCluster k).logRetired kind k true :=
  if_pos ⟨hk, by rw [hh]; rfl⟩

/-! Snapshots (R463). -/

theorem State.latchSnapshot_pending {s : State} (h : s.snap.pending = true) : s.latchSnapshot =
    { s with snap := { s.snap with gen := s.snap.gen + 1, arm := false, pending := false, copy := s.units } } := if_pos h

/-! The boot (R483): what its steps keep, and where it stops. -/

@[simp] theorem Rot.extend_lcf (r : Rot) (n : Nat) : (r.extend n).lcf = r.lcf := by
  unfold Rot.extend
  split <;> rfl

@[simp] theorem Rot.extend_boot (r : Rot) (n : Nat) : (r.extend n).boot = r.boot := by
  unfold Rot.extend
  split <;> rfl

@[simp] theorem Rot.measure_lcf (r : Rot) (n : Nat) : (r.measure n).1.lcf = r.lcf := by
  simp only [Rot.measure]
  split
  · exact Rot.extend_lcf _ n
  · rfl

@[simp] theorem Rot.measure_boot (r : Rot) (n : Nat) : (r.measure n).1.boot = r.boot := by
  simp only [Rot.measure]
  split
  · exact Rot.extend_boot _ n
  · rfl

/-- The first-stage boot keeps the lifecycle fuse and comes to step 3, or stops the core at the step before. -/
theorem Rot.firstStage_keeps (r : Rot) :
    r.firstStage.1.lcf = r.lcf ∧ r.firstStage.1.boot = if r.firstStage.2 then 3 else r.boot := by
  simp only [Rot.firstStage]
  split
  · exact ⟨rfl, rfl⟩
  split
  · exact ⟨rfl, rfl⟩
  split
  · exact ⟨Rot.extend_lcf _ 1, rfl⟩
  · exact ⟨rfl, rfl⟩

/-- A boot step keeps the lifecycle fuse and counts as reached, but where it stops the core. -/
theorem Rot.bootStep_keeps (r : Rot) (n : Nat) :
    (r.bootStep n).1.lcf = r.lcf ∧ (r.bootStep n).1.boot = if (r.bootStep n).2 then n else r.boot := by
  unfold Rot.bootStep
  split
  case h_1 => exact r.firstStage_keeps
  case h_2 =>
    dsimp only
    split
    · next h => exact ⟨r.measure_lcf 2, by rw [if_neg (by simpa using h), Rot.measure_boot]⟩
    split
    · next h => exact ⟨by simp, by rw [if_neg (by simpa using h)]; simp⟩
    · exact ⟨by simp, rfl⟩
  case h_3 => exact ⟨rfl, rfl⟩
  case h_4 => exact ⟨rfl, rfl⟩

/-! The boot of the device. -/

/-- The boot's steps once one has stopped the core. -/
theorem State.bootFold_stopped (cold : Bool) (steps : List Nat) (s : State) :
    steps.foldl (fun (r : State × Bool) n => if r.2 then r.1.bootStep cold n else r) (s, false) = (s, false) := by
  induction steps with
  | nil => rfl
  | cons n ns ih => exact ih

theorem State.runBoot_goes {s : State} {n : Nat} (h : (s.rot.bootStep n).2 = true) (cold : Bool) (ns : List Nat) :
    s.runBoot cold (n :: ns) = (s.bootStep cold n).1.runBoot cold ns := by
  have hstep : s.bootStep cold n = ((s.bootStep cold n).1, true) := Prod.ext rfl h
  rw [State.runBoot, List.foldl_cons, if_pos rfl, hstep]
  rfl

theorem State.runBoot_stops {s : State} {n : Nat} (h : (s.rot.bootStep n).2 = false) (cold : Bool) (ns : List Nat) :
    s.runBoot cold (n :: ns) = (s.bootStep cold n).1 := by
  have hstep : s.bootStep cold n = ((s.bootStep cold n).1, false) := Prod.ext rfl h
  rw [State.runBoot, List.foldl_cons, if_pos rfl, hstep, State.bootFold_stopped]

/-- What a boot leaves as it was: crews, contexts, queues, chains, sessions, L1s, available clusters and the fuse; memory too, where it
is as State.reset has it. -/
structure State.BootKeeps (u t : State) : Prop where
  crews : t.crews = u.crews
  ctxs : t.ctxs = u.ctxs
  queues : t.queues = u.queues
  chains : t.chains = u.chains
  sessions : t.sessions = u.sessions
  l1s : t.l1s = u.l1s
  mem : t.mem = u.mem
  gzcla : t.gzcla = u.gzcla
  lcf : t.rot.lcf = u.rot.lcf

theorem State.bootStep_keeps {u t : State} (hm : u.mem = Memory.reset) (h : u.BootKeeps t) (cold : Bool) (n : Nat) :
    u.BootKeeps (t.bootStep cold n).1 := by
  have hlcf := (t.rot.bootStep_keeps n).1.trans h.lcf
  simp only [State.bootStep]
  split
  case h_1 => exact { h with lcf := hlcf }
  case h_2 => exact { h with mem := hm.symm, lcf := hlcf }
  case h_3 => split <;> exact { h with lcf := hlcf }
  case h_4 => exact { h with lcf := hlcf }

theorem State.runBoot_keeps {u : State} (hm : u.mem = Memory.reset) (cold : Bool) (steps : List Nat) :
    ∀ t, u.BootKeeps t → u.BootKeeps (t.runBoot cold steps) := by
  induction steps with
  | nil => exact fun _ h => h
  | cons n ns ih =>
    intro t h
    have hn := State.bootStep_keeps hm h cold n
    cases hgo : (t.rot.bootStep n).2
    · rw [State.runBoot_stops hgo]
      exact hn
    · rw [State.runBoot_goes hgo]
      exact ih _ hn

theorem State.bootStep_rot (s : State) (cold : Bool) (n : Nat) : (s.bootStep cold n).1.rot = (s.rot.bootStep n).1 := by
  simp only [State.bootStep]
  split
  case h_1 => rfl
  case h_2 => rfl
  case h_3 => split <;> rfl
  case h_4 => rfl

theorem State.bootStep_went {s : State} {n : Nat} (h : (s.rot.bootStep n).2 = true) (cold : Bool) :
    (s.bootStep cold n).1.rot.boot = n := by
  rw [State.bootStep_rot, (s.rot.bootStep_keeps n).2, if_pos h]

theorem State.bootStep_stopped {s : State} {n : Nat} (h : (s.rot.bootStep n).2 = false) (cold : Bool) :
    (s.bootStep cold n).1.rot.boot = s.rot.boot := by
  rw [State.bootStep_rot, (s.rot.bootStep_keeps n).2, if_neg (by simp [h])]

theorem State.bootStep_keyGen (s : State) (cold : Bool) {n : Nat} (h : n ≠ 5) : (s.bootStep cold n).1.keyGen = s.keyGen := by
  simp only [State.bootStep]
  split
  case h_1 => exact absurd rfl h
  case h_2 => rfl
  case h_3 => split <;> rfl
  case h_4 => rfl

theorem State.newKeys_congr {s t : State} (h : t.keyGen = s.keyGen) : t.newKeys.keyGen = s.newKeys.keyGen := by
  simp only [State.newKeys, h]

/-- From step 5 on nothing stops the core. -/
theorem State.runBoot_lastSteps (s : State) :
    (s.runBoot true [5, 6, 7]).keyGen = s.newKeys.keyGen ∧ (s.runBoot true [5, 6, 7]).rot.boot = 7 := ⟨rfl, rfl⟩

/-- Only steps 3 and 4 can stop the core, before step 5 gives new keys: the boot either stops short of them or runs to its end. -/
theorem State.coldBoot_cases {s t : State} (ht : s.runBoot true [1, 2, 3, 4, 5, 6, 7] = t) :
    t.keyGen = s.keyGen ∧ t.rot.boot ≠ 7 ∨ t.keyGen = s.newKeys.keyGen ∧ t.rot.boot = 7 := by
  rw [State.runBoot_goes rfl, State.runBoot_goes rfl] at ht
  generalize h2 : ((s.bootStep true 1).1.bootStep true 2).1 = u at ht
  obtain ⟨hkeys, hboot⟩ : u.keyGen = s.keyGen ∧ u.rot.boot = 2 := by subst h2; exact ⟨rfl, rfl⟩
  have hkeys3 := (u.bootStep_keyGen true (n := 3) (by decide)).trans hkeys
  have hkeys4 := ((u.bootStep true 3).1.bootStep_keyGen true (n := 4) (by decide)).trans hkeys3
  cases h3 : (u.rot.bootStep 3).2 with
  | false =>
    rw [State.runBoot_stops h3] at ht
    subst ht
    exact .inl ⟨hkeys3, by rw [State.bootStep_stopped h3, hboot]; decide⟩
  | true =>
    rw [State.runBoot_goes h3] at ht
    cases h4 : ((u.bootStep true 3).1.rot.bootStep 4).2 with
    | false =>
      rw [State.runBoot_stops h4] at ht
      subst ht
      exact .inl ⟨hkeys4, by rw [State.bootStep_stopped h4, State.bootStep_went h3]; decide⟩
    | true =>
      rw [State.runBoot_goes h4] at ht
      subst ht
      obtain ⟨hlast, hdone⟩ := State.runBoot_lastSteps ((u.bootStep true 3).1.bootStep true 4).1
      exact .inr ⟨hlast.trans (State.newKeys_congr hkeys4), hdone⟩

/-! Power-on (R483) and failover (R480). -/

theorem State.powerOn_keeps (s : State) :
    (s.unbooted (Rot.powered 0 s.rot.lcfNext s.rot.image)).BootKeeps s.powerOn :=
  State.runBoot_keeps rfl true _ _ ⟨rfl, rfl, rfl, rfl, rfl, rfl, rfl, rfl, rfl⟩

/-- A map that lists a function's values holds them. -/
theorem mget_map_of_mem {α : Type} (f : Nat → α) {k : Nat} {ks : List Nat} (h : k ∈ ks) :
    mget (ks.map (fun i => (i, f i))) k = some (f k) := by
  induction ks with
  | nil => nomatch h
  | cons i is ih =>
    by_cases hi : i = k
    · subst hi
      exact if_pos rfl
    · exact (if_neg hi).trans (ih (List.mem_of_ne_of_mem (Ne.symm hi) h))

theorem State.newKeys_keyGen (s : State) {o : Nat} (h : o < 256) :
    mgetD s.newKeys.keyGen o 0 = mgetD s.keyGen o 0 + 1 := by
  rw [mgetD, State.newKeys, mget_map_of_mem (fun i => mgetD s.keyGen i 0 + 1) (List.mem_range.mpr h), Option.getD_some]

theorem State.powerOn_keyGen (s : State) {o : Nat} (h : o < 256) :
    mgetD s.powerOn.keyGen o 0 = mgetD s.keyGen o 0 + (if s.powerOn.rot.boot = 7 then 1 else 0) := by
  obtain ⟨hkeys, hboot⟩ | ⟨hkeys, hboot⟩ := State.coldBoot_cases (t := s.powerOn) rfl
  · rw [hkeys, if_neg hboot]; rfl
  · rw [hkeys, if_pos hboot, State.newKeys_keyGen _ h]; rfl

theorem State.failOver_warm {s : State} (hd : s.rot.die = 0) (hb : s.rot.hbeat + Config.hbeatClk ≤ s.clk)
    (hw : s.rot.warm = true) : s.failOver = (State.runBoot { s.closeSessions with
      rot := s.rot.twin s.clk, tlbWait := none, ctxWait := none, cmds := [], admitted := false } false
      [1, 2, 3, 4, 7]).logEvent 1 10 1 0 := by
  have hsilent : ¬ (s.rot.die ≠ 0 ∨ s.clk < s.rot.hbeat + Config.hbeatClk) := by omega
  exact (if_neg hsilent).trans (if_pos hw)

end Sys2Proof.Machine

open Sys2Proof Sys2Proof.Machine

/-- Settles O44: each event by what its routine does under the guard given; power-on by what the steps of the boot keep and by
where they can stop. A throttle and a snapshot's pin are their one assignment. -/
theorem deviceEventResult : Obligations.DeviceEventResult := by
  unfold Obligations.DeviceEventResult
  refine fun s => ⟨fun kind unit => exec_rowRetire s (.spared kind unit), ?rfRow, ?l1Unit, ?l2Unit, ?fixed,
    exec_powerLimitThrottle s, ?pin, ?pinOff, ?latch, ?powerOn, ?failover⟩
  case rfRow =>
    intro core part hc hp _ _ h0 hfit
    exact (exec_rowRetire s _).trans (congrArg _ (State.retireRow_rfRow hc hp rfl rfl h0 hfit))
  case l1Unit => intro core hc _ h0; rw [exec_rowRetire, State.retireRow_l1Unit hc h0]
  case l2Unit => intro slice hs h0; rw [exec_rowRetire, State.retireRow_l2Unit hs h0]
  case fixed => intro kind k hk hh; rw [exec_rowRetire, State.retireRow_fixed kind hk hh]
  case pin => intro h; rw [exec_snapinPin, if_pos h]
  case pinOff => intro h; rw [exec_snapinPin, if_neg (by simp [h])]
  case latch => intro h; rw [exec_snapshotLatch, State.latchSnapshot_pending h]
  case powerOn =>
    have h := s.powerOn_keeps
    exact ⟨s.powerOn, exec_powerOnReset s, h.crews, h.ctxs, h.queues, h.chains, h.sessions, h.l1s, h.mem, h.lcf, h.gzcla,
      fun o ho => s.powerOn_keyGen ho⟩
  case failover => intro hd hb hw; rw [exec_failover, State.failOver_warm hd hb hw]

/-- Settles O49: the canonical form by reset_inv; every other value is the one that State.reset writes down. -/
theorem invariantAtReset : Obligations.InvariantAtReset :=
  ⟨reset_inv, rfl, rfl, rfl, rfl, rfl, rfl, rfl, rfl, rfl, rfl, rfl, rfl, rfl, rfl, rfl, rfl, rfl, rfl, rfl, rfl, rfl, rfl, rfl, rfl,
    rfl, rfl, rfl, rfl, rfl⟩
end

section
/-!
PROOFS. Across the lanes: SHFL, and the trees of REDC and SCAN (R72, R296, R300, R301), in their long and compact forms.
-/

namespace Sys2Proof.Machine

/-! The words that a result holds in a lane (R52, R212). -/

theorem wordsAt_cons (sh : Shape) (shs : List Shape) (l : Nat) :
    wordsAt (sh :: shs) l = (sh.at l).toNat + 2 ^ 32 * wordsAt shs l := rfl

/-- k registers that hold the words of a value, lowest first, hold it in 32 × k bits. -/
theorem wordsAt_words {l k v : Nat} {g : Nat → Shape} (h : ∀ i, (g i).at l = BitVec.ofNat 32 (v >>> (32 * i))) :
    wordsAt ((List.range k).map g) l = v % 2 ^ (32 * k) := by
  induction k generalizing v g with
  | zero => simp [wordsAt, Nat.mod_one]
  | succ k ih =>
    have htail : ∀ i, ((g ∘ Nat.succ) i).at l = BitVec.ofNat 32 ((v / 2 ^ 32) >>> (32 * i)) := fun i => by
      rw [Function.comp_apply, h, ← Nat.shiftRight_eq_div_pow, ← Nat.shiftRight_add, Nat.mul_succ, Nat.add_comm]
    rw [List.range_succ_eq_map, List.map_cons, List.map_map, wordsAt_cons, ih htail, h 0, BitVec.toNat_ofNat,
      Nat.mul_succ, Nat.add_comm (32 * k), Nat.pow_add, Nat.mod_mul]
    rfl

theorem mem_laneList {m : Lanes} {l : Nat} (h : m.getLsbD l = true) : l ∈ laneList m :=
  List.mem_filter.mpr ⟨List.mem_range.mpr (BitVec.lt_of_getLsbD h), h⟩

/-- A result holds its function in each acting lane, stored U or G: it is U only where the acting lanes agree. -/
theorem uniIf_onLanes (x : Cx) (b : Bool) (f : Nat → Word) : x.OnLanes (uniIf x b f) f := by
  intro l hl hact
  unfold uniIf
  split
  · next huni =>
    rw [Bool.and_eq_true, List.all_eq_true] at huni
    exact (eq_of_beq (huni.2 l (mem_laneList hact))).symm
  · exact normShape_gen_at _ _ _ hl

/-! What the bodies answer where their operands can be read. -/

/-- The lane whose element SHFL gives lane l, by the distances of operand B. -/
def shflFrom (f : L3) (x : Cx) (b : Opd) (l : Nat) : Nat :=
  shflLane (f.mod6.toNat % 4) (shflSeg f.mod6.toNat x.c.w) l (shflDist f.mod6.toNat (shflSeg f.mod6.toNat x.c.w) (b.at l).toNat)

/-- Whether the lane that SHFL names for lane l is live behind the pattern of operand A (R227). -/
def shflHas (f : L3) (x : Cx) (b : Opd) (l : Nat) : Bool := x.c.live.getLsbD (xmap x.c f.xa.toNat (shflFrom f x b l))

theorem shflBody_ok {f : L3} {x : Cx} {r : List (List Opd)} (hl : crossLegal 0x60 f.mod6 = true)
    (hseg : shflSeg f.mod6.toNat x.c.w ≤ x.c.w) (hd : dstCheck x.c f.dst 1 true = .ok ())
    (hr : x.peek [f.srcA, f.srcB] = .ok r) (hb : x.deadCheck (x.emptyRead f.srcB) = .ok ())
    (ha : x.deadCheck (x.emptyAt f.srcA ((x.lanes.filter (shflHas f x (nthOpd r 1))).map (shflFrom f x (nthOpd r 1)))) = .ok ())
    (hp : x.poisonCheck [nthOpd r 0, nthOpd r 1, { sh := (nthOpd r 0).sh, poison := lanesWhere x.c.w (fun l =>
      shflHas f x (nthOpd r 1) l && (nthOpd r 0).poison.getLsbD (shflFrom f x (nthOpd r 1) l)) }] = .ok ()) :
    ∃ u, shflBody f x = .ok (x.lanesResult f [f.srcA, f.srcB] [uniIf x u (fun l =>
      if shflHas f x (nthOpd r 1) l then (nthOpd r 0).at (shflFrom f x (nthOpd r 1) l) else 0)]) := by
  refine ⟨((nthOpd r 0).isU && x.c.full) || (f.mod6.toNat % 4 == 0 && shflSeg f.mod6.toNat x.c.w == x.c.w && (nthOpd r 1).isU), ?_⟩
  unfold shflHas shflFrom at ha hp
  simp only [shflBody, hl, decide_eq_true hseg, hd, hr, hb, needInsn, Bool.and_self, if_true, bind, Except.bind, ha, hp]
  rfl

theorem redcBody_ok {f : L3} {x : Cx} {r : List (List Opd)} (hl : crossLegal 0x64 f.mod6 = true)
    (hd : dstCheck x.c f.dst (redcRegs f.mod6) true = .ok ()) (hr : x.fetch [{ f.srcA with k := redcRegs f.mod6 }] = .ok r) :
    redcBody f x = .ok (x.lanesResult f [{ f.srcA with k := redcRegs f.mod6 }] ((List.range (redcRegs f.mod6)).map (fun i =>
      .u (BitVec.ofNat 32 (treeOut (f.mod6.toNat % 8) (((redcTree (f.mod6.toNat % 8) (f.mod6.toNat / 8) 6 1
        (x.present (laneVal (nthRun r 0) (32 * redcRegs f.mod6)))).headD none).getD 0) >>> (32 * i)))))) := by
  simp only [redcBody, hl, needInsn, hd, hr]
  rfl

theorem scanBody_ok {f : L3} {x : Cx} {r : List (List Opd)} (hl : crossLegal 0x65 f.mod6 = true)
    (hd : dstCheck x.c f.dst (redcRegs f.mod6) true = .ok ()) (hr : x.fetch [{ f.srcA with k := redcRegs f.mod6 }] = .ok r) :
    ∃ u, scanBody f x = .ok (x.lanesResult f [{ f.srcA with k := redcRegs f.mod6 }] ((List.range (redcRegs f.mod6)).map (fun i =>
      uniIf x u (fun l => BitVec.ofNat 32 (treeOut (f.mod6.toNat % 8) (((scanTree (f.mod6.toNat % 8) (f.mod6.toNat / 8) 6 1
        (x.present (laneVal (nthRun r 0) (32 * redcRegs f.mod6)))).getD l none).getD 0) >>> (32 * i)))))) := by
  refine ⟨x.c.full && (nthRun r 0).all (·.isU) && f.mod6.toNat / 8 != 0 && f.mod6.toNat / 8 != 5, ?_⟩
  simp only [scanBody, hl, needInsn, hd, hr]
  rfl

/-! Any instruction that issues one of the bodies, long or compact, completes with its rule's value. -/

theorem shuffles_of_issue {i : Instr} {len : Nat} {f : L3} (he : ∀ s, exec i s = issue s 0x60 len f.g (shflBody f)) :
    Shuffles i len f := by
  intro s x r hx hl hseg hd hr hb m g from_ has ha hp
  obtain ⟨u, hbody⟩ := shflBody_ok hl hseg hd hr hb ha hp
  exact ⟨_, uniIf_onLanes x u _, (he s).trans (issue_ok hx hbody)⟩

theorem reduces_of_issue {i : Instr} {len : Nat} {f : L3} (he : ∀ s, exec i s = issue s 0x64 len f.g (redcBody f)) :
    Reduces i len f := by
  intro s x r hx hl hd hr
  refine ⟨_, by rw [List.length_map, List.length_range], ?isU, fun l => wordsAt_words (fun i => rfl),
    (he s).trans (issue_ok hx (redcBody_ok hl hd hr))⟩
  case isU =>
    intro sh hsh
    obtain ⟨i, -, rfl⟩ := List.mem_map.mp hsh
    exact ⟨_, rfl⟩

theorem scans_of_issue {i : Instr} {len : Nat} {f : L3} (he : ∀ s, exec i s = issue s 0x65 len f.g (scanBody f)) :
    Scans i len f := by
  intro s x r hx hl hd hr
  obtain ⟨u, hbody⟩ := scanBody_ok hl hd hr
  exact ⟨_, by rw [List.length_map, List.length_range],
    fun l hw hact => wordsAt_words (fun i => uniIf_onLanes x u _ l hw hact), (he s).trans (issue_ok hx hbody)⟩

end Sys2Proof.Machine

open Sys2Proof Sys2Proof.Machine

/-- Settles O9: each form issues the one body of its operation, the compact forms with the fields of their long form. -/
theorem shuffleAndReductionResult : Obligations.ShuffleAndReductionResult := by
  unfold Obligations.ShuffleAndReductionResult
  refine ⟨fun f => ⟨?shfl, ?redc, ?scan⟩, fun f => ⟨?shflAt, ?shflXor, ?redcAdd, ?redcMax, ?redcAddF, ?redcMaxF, ?scanAdd, ?scanAddF⟩⟩
  case shfl | shflAt | shflXor => exact shuffles_of_issue (fun _ => rfl)
  case redc | redcAdd | redcMax | redcAddF | redcMaxF => exact reduces_of_issue (fun _ => rfl)
  case scan | scanAdd | scanAddF => exact scans_of_issue (fun _ => rfl)
end

section
/-!
PROOFS. The matrix engine's block: the words of a tile after a walk over a grid of positions, and the block's event of a
quadrant (R65, R66, R314, R325 to R327).
-/

namespace Sys2Proof.Machine

/-! A word of a tile after one write. -/

theorem mget_filter_same {α : Type} (m : NatMap α) (p : Nat) : mget (m.filter (fun e => e.1 != p)) p = none := by
  induction m with
  | nil => rfl
  | cons e m ih =>
    by_cases h : e.1 = p
    · rwa [List.filter_cons_of_neg (by simp [h])]
    · rw [List.filter_cons_of_pos (by simp [h]), mget, if_neg h, ih]

theorem mget_filter_ne {α : Type} (m : NatMap α) {p q : Nat} (h : q ≠ p) :
    mget (m.filter (fun e => e.1 != p)) q = mget m q := by
  induction m with
  | nil => rfl
  | cons e m ih =>
    by_cases he : e.1 = p
    · rw [List.filter_cons_of_neg (by simp [he]), mget, if_neg (he ▸ h.symm), ih]
    · rw [List.filter_cons_of_pos (by simp [he]), mget, mget, ih]

@[simp] theorem AccTile.put_word_same (t : AccTile) (p : Nat) (v : Word) : (t.put p v).word p = v := by
  unfold AccTile.word AccTile.put mgetD
  by_cases h : v = 0
  · rw [if_pos h, mget_filter_same, h]; rfl
  · rw [if_neg h, mget_mput_same]; rfl

theorem AccTile.put_word_ne (t : AccTile) {p q : Nat} (v : Word) (h : q ≠ p) : (t.put p v).word q = t.word q := by
  unfold AccTile.word AccTile.put mgetD
  by_cases hv : v = 0
  · rw [if_pos hv, mget_filter_ne _ h]
  · rw [if_neg hv, mget_mput_ne _ _ _ _ h]

/-! A walk over positions of a tile that writes each of them once. -/

/-- Writes each position in turn, from the word that stands there. -/
def AccTile.update (t : AccTile) (ps : List Nat) (fn : Nat → Word → Word) : AccTile :=
  ps.foldl (fun t p => t.put p (fn p (t.word p))) t

theorem AccTile.update_word_notMem {ps : List Nat} {q : Nat} (h : q ∉ ps) (t : AccTile) (fn : Nat → Word → Word) :
    (t.update ps fn).word q = t.word q := by
  induction ps generalizing t with
  | nil => rfl
  | cons p ps ih =>
    obtain ⟨hne, hps⟩ := not_or.mp (fun e => h (List.mem_cons.mpr e))
    exact (ih hps _).trans (t.put_word_ne _ hne)

theorem AccTile.update_word_mem {ps : List Nat} {q : Nat} (hnd : ps.Nodup) (h : q ∈ ps) (t : AccTile)
    (fn : Nat → Word → Word) : (t.update ps fn).word q = fn q (t.word q) := by
  induction ps generalizing t with
  | nil => nomatch h
  | cons p ps ih =>
    obtain ⟨hp, hnd⟩ := List.nodup_cons.mp hnd
    obtain rfl | hq := List.mem_cons.mp h
    · exact (AccTile.update_word_notMem hp _ fn).trans (t.put_word_same q _)
    · have hne : q ≠ p := fun e => hp (e ▸ hq)
      exact (ih hnd hq _).trans (by rw [t.put_word_ne _ hne])

/-! The positions of rows and columns (R314): 96 × i + j, each once while there are at most 96 columns. -/

/-- The positions of some rows in the first n columns. -/
def gridCells (rows : List Nat) (n : Nat) : List Nat := (rows.map (fun i => (List.range n).map (fun j => 96 * i + j))).flatten

theorem gridCell_div {i j : Nat} (hj : j < 96) : (96 * i + j) / 96 = i := by omega
theorem gridCell_mod {i j : Nat} (hj : j < 96) : (96 * i + j) % 96 = j := by omega

theorem mem_gridCells {rows : List Nat} {n p : Nat} : p ∈ gridCells rows n ↔ ∃ i ∈ rows, ∃ j < n, p = 96 * i + j := by
  constructor
  · intro h
    obtain ⟨ps, hps, hp⟩ := List.mem_flatten.mp h
    obtain ⟨i, hi, rfl⟩ := List.mem_map.mp hps
    obtain ⟨j, hj, rfl⟩ := List.mem_map.mp hp
    exact ⟨i, hi, j, List.mem_range.mp hj, rfl⟩
  · rintro ⟨i, hi, j, hj, rfl⟩
    exact List.mem_flatten.mpr ⟨_, List.mem_map.mpr ⟨i, hi, rfl⟩, List.mem_map.mpr ⟨j, List.mem_range.mpr hj, rfl⟩⟩

theorem gridCells_nodup {rows : List Nat} {n : Nat} (hrows : rows.Nodup) (hn : n ≤ 96) : (gridCells rows n).Nodup := by
  refine List.pairwise_flatten.mpr ⟨List.forall_mem_map.mpr (fun i _ => ?columns),
    List.pairwise_map.mpr (List.Pairwise.imp (fun hne => ?disjoint) hrows)⟩
  case columns => exact List.Pairwise.map _ (fun a b hne => by omega) List.nodup_range
  case disjoint =>
    intro p hp r hr
    obtain ⟨a, ha, rfl⟩ := List.mem_map.mp hp
    obtain ⟨b, hb, rfl⟩ := List.mem_map.mp hr
    have := List.mem_range.mp ha
    have := List.mem_range.mp hb
    omega

theorem QOp.rowsOf_nodup (o : QOp) (opc g : Nat) : (o.rowsOf opc g).Nodup := by
  unfold QOp.rowsOf
  split
  · exact List.Pairwise.filter _ List.nodup_range
  · exact List.nodup_range

theorem QOp.groupCells_nodup {o : QOp} (hn : o.db.rows ≤ 96) (opc g : Nat) : (o.groupCells opc g).Nodup :=
  gridCells_nodup (o.rowsOf_nodup opc g) hn

theorem QOp.cells_nodup {o : QOp} (hn : o.db.rows ≤ 96) : o.cells.Nodup := gridCells_nodup List.nodup_range hn

/-! What stands before the block, and what the block adds. -/

/-- The words that a block finds: 0 in the instruction's cells where ZA zeroes them before the first block. -/
theorem QOp.begin_word (o : QOp) (za int : Bool) (t : AccTile) (hn : o.db.rows ≤ 96) (p : Nat) :
    (o.begin za int t).2.word p = if za && o.block == 0 && o.group == 0 && o.cells.contains p then 0 else t.word p := by
  unfold QOp.begin
  by_cases hfirst : o.block ≠ 0 ∨ o.group ≠ 0
  · have hlater : (o.block == 0 && o.group == 0) = false := by
      rcases hfirst with h | h <;> simp [h]
    rw [if_pos hfirst, Bool.and_assoc za, hlater, Bool.and_false, Bool.false_and, if_neg Bool.false_ne_true]
  · obtain ⟨hb, hg⟩ := not_or.mp hfirst
    rw [Decidable.not_not] at hb hg
    rw [if_neg hfirst, hb, hg]
    cases za with
    | false => rfl
    | true =>
      change (t.update o.cells (fun _ _ => 0)).word p = _
      by_cases hp : p ∈ o.cells
      · rw [AccTile.update_word_mem (QOp.cells_nodup hn) hp, if_pos (by simpa using hp)]
      · rw [AccTile.update_word_notMem hp, if_neg (by simpa using hp)]

@[simp] theorem QOp.begin_db (o : QOp) (za int : Bool) (t : AccTile) : (o.begin za int t).1.db = o.db := by
  unfold QOp.begin; split <;> rfl
@[simp] theorem QOp.begin_block (o : QOp) (za int : Bool) (t : AccTile) : (o.begin za int t).1.block = o.block := by
  unfold QOp.begin; split <;> rfl
@[simp] theorem QOp.begin_tile (o : QOp) (za int : Bool) (t : AccTile) : (o.begin za int t).1.tile = o.tile := by
  unfold QOp.begin; split <;> rfl
@[simp] theorem QOp.begin_rowsOf (o : QOp) (za int : Bool) (t : AccTile) (opc g : Nat) :
    (o.begin za int t).1.rowsOf opc g = o.rowsOf opc g := by
  unfold QOp.begin; split <;> rfl

theorem Cluster.addBlock_eq (k : Cluster) (o : QOp) (opc : Nat) (f : LX) (g : Nat) (t : AccTile) (hn : o.db.rows ≤ 96) :
    k.addBlock o opc f g t =
      t.update (o.groupCells opc g) (fun p => k.blockElem o opc f g o.block (p / 96) (p % 96)) := by
  unfold Cluster.addBlock AccTile.update QOp.groupCells
  rw [List.foldl_flatten, List.foldl_map]
  congr 1
  funext t i
  rw [List.foldl_map]
  refine List.foldl_rel (r := Eq) rfl (fun j hj u v huv => ?_)
  have hcol : j < 96 := Nat.lt_of_lt_of_le (List.mem_range.mp hj) hn
  simp only [gridCell_div hcol, gridCell_mod hcol, huv]

theorem Cluster.addBlock_word (k : Cluster) (o : QOp) (opc : Nat) (f : LX) (g : Nat) (t : AccTile) (hn : o.db.rows ≤ 96)
    {i j : Nat} (hi : i ∈ o.rowsOf opc g) (hj : j < o.db.rows) :
    (k.addBlock o opc f g t).word (96 * i + j) = k.blockElem o opc f g o.block i j (t.word (96 * i + j)) := by
  have hmem : 96 * i + j ∈ o.groupCells opc g := mem_gridCells.mpr ⟨i, hi, j, hj, rfl⟩
  have hcol : j < 96 := Nat.lt_of_lt_of_le hj hn
  rw [k.addBlock_eq o opc f g t hn, AccTile.update_word_mem (QOp.groupCells_nodup hn opc g) hmem,
    gridCell_div hcol, gridCell_mod hcol]

theorem Cluster.addBlock_word_other (k : Cluster) (o : QOp) (opc : Nat) (f : LX) (g : Nat) (t : AccTile) (hn : o.db.rows ≤ 96)
    {p : Nat} (hp : ∀ i ∈ o.rowsOf opc g, ∀ j < o.db.rows, p ≠ 96 * i + j) :
    (k.addBlock o opc f g t).word p = t.word p := by
  have hmem : p ∉ o.groupCells opc g := fun h =>
    have ⟨i, hi, j, hj, e⟩ := mem_gridCells.mp h
    hp i hi j hj e
  rw [k.addBlock_eq o opc f g t hn, AccTile.update_word_notMem hmem]

/-! The event of a quadrant. -/

theorem exec_quadrantBlockAdd {s : State} {key : Nat} (q : Nat) (h : s.ctxRuns (key / 64) = true) :
    exec (.quadrantBlockAdd key q) s = .next (s.blockAdd key q) :=
  congrArg Host.Outcome.next (if_pos h)

@[simp] theorem State.setClus_clus (s : State) (key : Nat) (k : Cluster) : (s.setClus key k).clus key = k := by
  rw [State.clus, State.setClus, mgetD, mget_mput_same]; rfl

theorem Cluster.finish_tile (k : Cluster) (q : Nat) (o : QOp) (int : Bool) (t : AccTile) :
    mget (k.finish q o int t).tiles o.tile = some t := mget_mput_same _ _ _

/-- Where nothing holds the block up, it leaves its tile with the block added, whether or not it is the instruction's last. -/
theorem State.blockAdd_tile {s : State} {key q opc g : Nat} {o : QOp} {f : LX} {t0 : AccTile}
    (ho : (mgetD (s.clus key).quads q []).head? = some o) (hf : o.lx = some (opc, f))
    (ht : mget (s.clus key).tiles o.tile = some t0) (hg : o.nextGroup opc o.group = some g)
    (hlines : (o.blockLines opc f g o.block).all (fun l => ((s.clus key).line o.task l).isSome) = true)
    (hmeta : opc = 0xC1 → ∀ n < min 8 ((o.da.klen - 32 * o.block) / 4),
      ((s.clus key).meta? f.q.toNat (o.resv + 8 * o.block + n)).isSome = true)
    (hmark : (s.clus key).blockMarked o opc f g o.block = false)
    (hpois : f.za = true ∨ ∀ p ∈ o.groupCells opc g, t0.poison.contains p = false) :
    mget ((s.blockAdd key q).clus key).tiles o.tile =
      some ((s.clus key).addBlock (o.begin f.za (f.text == 6) t0).1 opc f g (o.begin f.za (f.text == 6) t0).2) := by
  have hsteps : (if opc = 0xC1 then (List.range (min 8 ((o.da.klen - 32 * o.block) / 4))).map
      (fun t => o.resv + 8 * o.block + t) else []).all (fun n => ((s.clus key).meta? f.q.toNat n).isSome) = true := by
    split
    · next h =>
      refine List.all_eq_true.mpr (fun n hn => ?_)
      obtain ⟨t, ht, rfl⟩ := List.mem_map.mp hn
      exact hmeta h t (List.mem_range.mp ht)
    · rfl
  have hclean : (!f.za && (o.groupCells opc g).any (fun p => t0.poison.contains p)) = false := by
    rcases hpois with h | h
    · rw [h]; rfl
    · rw [List.any_eq_false.mpr (fun p hp => by rw [h p hp]; exact Bool.false_ne_true), Bool.and_false]
  unfold State.blockAdd
  simp only [ho, hf, ht, hg, hlines, hsteps, hmark, hclean, Bool.not_true, Bool.or_self, Bool.false_eq_true, if_false]
  split
  · rw [State.setClus_clus, ← o.begin_tile f.za (f.text == 6) t0]
    exact Cluster.finish_tile _ _ _ _ _
  · rw [State.setClus_clus]
    exact mget_mput_same _ _ _

end Sys2Proof.Machine

open Sys2Proof Sys2Proof.Machine

/-- Settles O27: the block walks the rows and columns of its group, each position once, over what the begin of the instruction
leaves there. -/
theorem blockAddResult : Obligations.BlockAddResult := by
  unfold Obligations.BlockAddResult
  intro s key q o opc f t0 g k hrun ho hf ht _ hn hg hlines hmeta hmark hpois old
  have hold : ∀ p, (o.begin f.za (f.text == 6) t0).2.word p = old p := o.begin_word f.za (f.text == 6) t0 hn
  have hdb : (o.begin f.za (f.text == 6) t0).1.db.rows ≤ 96 := by rwa [QOp.begin_db]
  refine ⟨_, _, exec_quadrantBlockAdd q hrun, State.blockAdd_tile ho hf ht hg hlines hmeta hmark hpois, ?element, ?other⟩
  case element =>
    intro i hi j hj
    rw [Cluster.addBlock_word _ _ _ _ _ _ hdb (by rwa [QOp.begin_rowsOf]) (by rwa [QOp.begin_db]), QOp.begin_block, hold]
  case other =>
    intro p hp
    rw [Cluster.addBlock_word_other _ _ _ _ _ _ hdb (by rwa [QOp.begin_rowsOf, QOp.begin_db]), hold]
end

section
/-!
PROOFS. Register moves beyond MOV: the tag codes and values of SHAPE, PERM, the operand cache, the index registers and the
crossbar's registers (R221, R225, R228, R235 to R238).
-/

namespace Sys2Proof.Machine

/-! The shape of a result that is U under a condition. -/

theorem uniIf_isU {x : Cx} {b : Bool} {f : Nat → Word} (hb : b = true) (hf : ∀ l, f l = f x.lane) : (uniIf x b f).IsU := by
  have hall : (laneList x.act).all (fun l => f l == f x.lane) = true := List.all_eq_true.mpr (fun l _ => beq_iff_eq.mpr (hf l))
  exact ⟨f x.lane, by rw [uniIf, hb, hall]; rfl⟩

theorem normShape_gen_isG {w : Nat} (f : Nat → Word) (hw : 1 < w) : ∃ ws, normShape w (gen w f) = .g ws :=
  ⟨_, if_neg (by omega)⟩

theorem uniIf_isG {x : Cx} {b : Bool} (f : Nat → Word) (hb : b = false) (hw : 1 < x.c.w) : ∃ ws, uniIf x b f = .g ws := by
  rw [uniIf, hb]
  exact normShape_gen_isG f hw

/-! SHAPE (R235). -/

/-- The tag code of SHAPE.q's source in a lane. -/
def tagCode (x : Cx) (d : Desig) (l : Nat) : Word :=
  match place d with
  | some .zero => 0
  | some (.rv n) => BitVec.ofNat 32 (shapeCode (x.recruiter.bind (fun r => mget r.1.regs n)))
  | some pl => BitVec.ofNat 32 (shapeCode (x.cell pl 0 l))
  | none => 0

/-- Whether a designator names a register through an index register, lane by lane. -/
def indexed (d : Desig) : Bool := match place d with | some (.ix _) => true | _ => false

/-- A source that names one register names it in every lane. -/
theorem tagCode_const {x : Cx} {d : Desig} (h : ∀ n, place d ≠ some (.ix n)) (l l' : Nat) : tagCode x d l = tagCode x d l' := by
  unfold tagCode
  rcases hp : place d with _ | pl
  · rfl
  · cases pl with
    | ix n => exact absurd hp (h n)
    | _ => rfl

theorem indexed_false {d : Desig} (h : ∀ n, place d ≠ some (.ix n)) : indexed d = false := by
  unfold indexed
  split
  · next n hp => exact absurd hp (h n)
  · rfl

theorem shapeBody_query {f : L3} {x : Cx} (hm : f.mod6.toNat % 4 = 0) (hd : dstCheck x.c f.dst 1 true = .ok ())
    (hc : srcCheck x.c { f.srcA with xc := 0, dead := false } = .ok ())
    (ho : x.owedSrc { f.srcA with xc := 0, dead := false } = false) :
    shapeBody f x = .ok (x.writeResult f.dst f.ocw (some 3) [] [uniIf x (!indexed f.sa) (tagCode x f.sa)]) := by
  simp only [shapeBody, hm, hd, shapeQ, hc, ho, needInsn, needIssue]
  rfl

theorem shapeBody_values {f : L3} {x : Cx} {r : List (List Opd)} (hm : f.mod6.toNat % 4 = 1 ∨ f.mod6.toNat % 4 = 2)
    (hd : dstCheck x.c f.dst 1 true = .ok ()) (hr : x.fetch [f.srcA] = .ok r) :
    shapeBody f x = .ok (x.writeResult f.dst f.ocw (some 3) [f.srcA]
      [if f.mod6.toNat % 4 = 1 then uniIf x false (nthOpd r 0).at else compressed x (nthOpd r 0)]) := by
  rcases hm with hm | hm
  all_goals
    simp only [shapeBody, hm, hd, hr, needInsn]
    rfl

theorem all_laneList {m : Lanes} {p : Nat → Bool} :
    (laneList m).all p = true ↔ ∀ l < 64, m.getLsbD l = true → p l = true :=
  List.all_eq_true.trans ⟨fun h l _ hl => h l (mem_laneList hl),
    fun h l hl => h l (List.mem_range.mp (List.mem_filter.mp hl).1) (List.mem_filter.mp hl).2⟩

theorem contains_laneList {m : Lanes} {l : Nat} : (laneList m).contains l = m.getLsbD l := by
  rw [Bool.eq_iff_iff, List.contains_iff_mem]
  exact ⟨fun h => (List.mem_filter.mp h).2, mem_laneList⟩

/-- Every live lane has the first live lane's word. -/
def SameWords (x : Cx) (o : Opd) : Prop :=
  ∀ l < 64, x.c.live.getLsbD l = true → o.at l = o.at ((laneList x.c.live).headD 0)

/-- Lanes 0 and 1 are live, and the live lanes' words lie on the line through theirs. -/
def OnLine (x : Cx) (o : Opd) : Prop :=
  x.c.live.getLsbD 0 = true ∧ x.c.live.getLsbD 1 = true ∧
    ∀ l < 64, x.c.live.getLsbD l = true → o.at l = o.at 0 + BitVec.ofNat 32 l * (o.at 1 - o.at 0)

section
variable {x : Cx} {o : Opd}

theorem sameWords_iff : (laneList x.c.live).all (fun l => o.at l == o.at ((laneList x.c.live).headD 0)) = true ↔ SameWords x o := by
  simp only [all_laneList, beq_iff_eq, SameWords]

theorem onLine_iff : ((laneList x.c.live).contains 0 && (laneList x.c.live).contains 1 &&
    (laneList x.c.live).all (fun l => o.at l == o.at 0 + BitVec.ofNat 32 l * (o.at 1 - o.at 0))) = true ↔ OnLine x o := by
  simp only [Bool.and_eq_true, contains_laneList, all_laneList, beq_iff_eq, OnLine, and_assoc]

theorem compressed_same (h : SameWords x o) : compressed x o = .u (o.at ((laneList x.c.live).headD 0)) :=
  if_pos (sameWords_iff.mpr h)

theorem compressed_line (hs : ¬ SameWords x o) (h : OnLine x o) : compressed x o = .a (o.at 0) (o.at 1 - o.at 0) :=
  (if_neg (mt sameWords_iff.mp hs)).trans (if_pos (onLine_iff.mpr h))

theorem compressed_gen (hs : ¬ SameWords x o) (hl : ¬ OnLine x o) : compressed x o = normShape x.c.w (gen x.c.w o.at) :=
  (if_neg (mt sameWords_iff.mp hs)).trans (if_neg (mt onLine_iff.mp hl))

/-- Whatever shape SHAPE.c finds holds the source's words in the live lanes. -/
theorem compressed_at {l : Nat} (hl : l < x.c.w) (hlive : x.c.live.getLsbD l = true) : (compressed x o).at l = o.at l := by
  have h64 : l < 64 := BitVec.lt_of_getLsbD hlive
  by_cases hs : SameWords x o
  · rw [compressed_same hs]
    exact (hs l h64 hlive).symm
  · by_cases hline : OnLine x o
    · rw [compressed_line hs hline]
      obtain ⟨-, -, hwords⟩ := hline
      exact (hwords l h64 hlive).symm
    · rw [compressed_gen hs hline]
      exact normShape_gen_at _ _ _ hl

end

/-! PERM (R236). -/

theorem getLsbD_allLanes {w l : Nat} (hw : w ≤ 64) : (allLanes w).getLsbD l = decide (l < w) := by
  rw [allLanes, BitVec.getLsbD_ofNat, Nat.testBit_two_pow_sub_one]
  by_cases h : l < w
  · simp [h]; omega
  · simp [h]

theorem xmap_lt {c : Crew} {xc l : Nat} (h : l < c.w) : xmap c xc l < c.w := by
  have hmod : ∀ n, n % c.w < c.w := fun n => Nat.mod_lt n (by omega)
  unfold xmap
  split
  · exact h
  case h_6 =>
    show c.w - 1 - l < c.w
    omega
  all_goals exact hmod _

/-- The lane of source A that PERM reads for lane l. -/
def permFrom (f : L3) (x : Cx) (l : Nat) : Nat := ((x.readSrc f.srcB 0).at l).toNat % x.c.w

/-- Whether that lane is live behind the pattern of source A (R227). -/
def permHas (f : L3) (x : Cx) (l : Nat) : Bool := x.c.live.getLsbD (xmap x.c f.xa.toNat (permFrom f x l))

/-- The word that PERM gives lane l. -/
def permWord (f : L3) (x : Cx) (l : Nat) : Word := if permHas f x l then (x.readSrc f.srcA 0).at (permFrom f x l) else 0

/-- Whether PERM's result is U where the acting lanes agree. -/
def permUni (f : L3) (x : Cx) : Bool :=
  (x.readSrc f.srcB 0).isU || ((x.readSrc f.srcA 0).isU && x.c.live == allLanes x.c.w)

section
variable {f : L3} {x : Cx}

theorem permWord_const_of_index (h : (x.readSrc f.srcB 0).isU = true) (l l' : Nat) : permWord f x l = permWord f x l' := by
  have hfrom : permFrom f x l = permFrom f x l' := by rw [permFrom, isU_at h l l', permFrom]
  rw [permWord, permHas, hfrom, permWord, permHas]

/-- In a crew whose lanes are all live every lane that PERM reads is there. -/
theorem permHas_full (hw : x.c.w ≤ 64) (h0 : x.c.w ≠ 0) (hl : x.c.live = allLanes x.c.w) (l : Nat) : permHas f x l = true := by
  rw [permHas, hl, getLsbD_allLanes hw]
  exact decide_eq_true (xmap_lt (Nat.mod_lt _ (Nat.pos_of_ne_zero h0)))

theorem permWord_const_of_element (hw : x.c.w ≤ 64) (ha : (x.readSrc f.srcA 0).isU = true) (hl : x.c.live = allLanes x.c.w)
    (l l' : Nat) : permWord f x l = permWord f x l' := by
  by_cases h0 : x.c.w = 0
  · have hnone : ∀ l, permHas f x l = false := fun l => by
      rw [permHas, hl, getLsbD_allLanes hw]
      exact decide_eq_false (by omega)
    rw [permWord, permWord, hnone, hnone]
    rfl
  · rw [permWord, permWord, permHas_full hw h0 hl, permHas_full hw h0 hl]
    exact isU_at ha _ _

theorem permBody_ok {r : List (List Opd)} (hd : dstCheck x.c f.dst 1 true = .ok ()) (hr : x.peek [f.srcA, f.srcB] = .ok r)
    (hb : x.deadCheck (x.emptyRead f.srcB) = .ok ())
    (ha : x.deadCheck (x.emptyAt f.srcA (((laneList x.act).filter (permHas f x)).map (permFrom f x))) = .ok ())
    (hp : x.poisonCheck [x.readSrc f.srcB 0, { sh := (x.readSrc f.srcA 0).sh, poison := lanesWhere x.c.w (fun l =>
      permHas f x l && (x.readSrc f.srcA 0).poison.getLsbD (permFrom f x l)) }] = .ok ()) :
    permBody f x = .ok (x.writeResult f.dst f.ocw (some 3) [f.srcA, f.srcB] [uniIf x (permUni f x) (permWord f x)]) := by
  obtain ⟨⟨⟩, hsrcs, hr⟩ := bind_inv hr
  obtain ⟨⟨⟩, howed, -⟩ := bind_inv hr
  unfold permHas permFrom at ha hp
  unfold permBody
  simp only [hd, hsrcs, howed, hb, bind_ok, ha, hp]
  rfl

end

/-! OCLD and OCINV (R237, R238). -/

theorem ocldBody_ok {f : L3} {x : Cx} {r : List (List Opd)} (hdst : f.dst = 0x110) (hn : 8 ≤ f.ocw.toNat)
    (hr : ({ x with act := allLanes x.c.w } : Cx).fetchRaw [f.srcA] = .ok r) :
    let c := (x.c.emptySrcs [f.srcA]).supersede (.oc (f.ocw.toNat - 8)) (allLanes x.c.w)
    let e : Reg := { shape := normShape x.c.w (nthOpd r 0).sh, poison := (nthOpd r 0).poison }
    ocldBody f x = .ok ⟨x.s, { c with oc := mput c.oc (f.ocw.toNat - 8) e }, true⟩ := by
  simp only [ocldBody, needOpnd_of (beq_iff_eq.mpr hdst), needOpnd_of (decide_eq_true hn), bind_ok, hr]
  rfl

theorem ocinvBody_ok {f : L3} {x : Cx} (hm : f.mod6.toNat = 0 ∨ f.mod6.toNat / 8 = 1) :
    ocinvBody f x = .ok ⟨x.s, if x.act = 0 then x.c else
      { x.c with oc := if f.mod6.toNat = 0 then [] else mdel x.c.oc (f.mod6.toNat - 8) }, true⟩ := by
  rw [ocinvBody, needInsn_of (decide_eq_true hm)]
  rfl

/-! IXSET and XSET (R225, R228). -/

@[simp] theorem Crew.emptySrcs_ix (c : Crew) (srcs : List Src) : (c.emptySrcs srcs).ix = c.ix := by
  unfold Crew.emptySrcs
  induction srcs generalizing c with
  | nil => rfl
  | cons s srcs ih =>
    rw [List.foldl_cons, ih]
    split <;> rfl

/-- The values that IXSET leaves in its index register, lane by lane (R225). -/
def ixsetVals (f : LI) (x : Cx) (o : Opd) : List Word :=
  (List.range x.c.w).map (fun l =>
    let add := o.at l + f.imm.signExtend 32
    if x.act.getLsbD l then (if f.md.toNat / 4 = 1 then x.c.ixAt (f.md.toNat % 4) l + add else add)
    else x.c.ixAt (f.md.toNat % 4) l)

theorem ixsetBody_ok {f : LI} {x : Cx} {r : List (List Opd)} (hm : f.md.toNat / 4 < 2) (hr : x.fetch [f.srcA] = .ok r) :
    ixsetBody f x = .ok ⟨x.s, { x.c.emptySrcs [f.srcA] with
      ix := mput x.c.ix (f.md.toNat % 4) (ixsetVals f x (nthOpd r 0)) }, true⟩ := by
  simp only [ixsetBody, needInsn_of (decide_eq_true hm), bind_ok, hr, Crew.emptySrcs_ix]
  rfl

theorem xsetBody_width {f : LI} {x : Cx} (hm : f.md.toNat = 1) :
    xsetBody f x = .ok ⟨x.s, if x.act = 0 then x.c else
      { x.c with xdist := BitVec.ofNat 32 (x.c.w >>> (f.imm.toNat % 8)) }, true⟩ := by
  simp only [xsetBody, hm]
  rfl

theorem xsetBody_word {f : LI} {x : Cx} {r : List (List Opd)} (hm : f.md.toNat = 0 ∨ f.md.toNat = 2)
    (hr : x.once.fetch [f.srcA] = .ok r) :
    let c := x.c.emptySrcs [f.srcA]
    let v := (nthOpd r 0).at x.lane + f.imm.signExtend 32
    xsetBody f x = .ok ⟨x.s, if x.act = 0 then c else if f.md.toNat = 0 then { c with xdist := v } else { c with xsel := v },
      true⟩ := by
  rcases hm with hm | hm
  all_goals
    simp only [xsetBody, hm, hr]
    rfl

end Sys2Proof.Machine

open Sys2Proof Sys2Proof.Machine

/-- Settles O8: each body answers one result or one change of the crew, whose words and shape the lemmas above give. -/
theorem shapeIndexAndCrossbarResult : Obligations.ShapeIndexAndCrossbarResult := by
  unfold Obligations.ShapeIndexAndCrossbarResult
  refine ⟨fun f s x => ⟨?query, ?values, ?perm, ?ocld, ?ocinv⟩, fun f s x => ⟨?ixset, ?width, ?word⟩⟩
  case query =>
    intro hx hm hd hc ho
    refine ⟨_, uniIf_onLanes x _ _, fun hix => ?_, issue_ok hx (shapeBody_query hm hd hc ho)⟩
    exact uniIf_isU (by rw [indexed_false hix]; rfl) (fun l => tagCode_const hix l x.lane)
  case values =>
    intro r hx hm hd hr o same line
    refine ⟨_, ?words, ?general, ?same, ?line, ?neither, issue_ok hx (shapeBody_values hm hd hr)⟩
    case words =>
      intro l hl hlive
      split
      · exact normShape_gen_at _ _ _ hl
      · exact compressed_at hl hlive
    case general =>
      intro hg hw
      rw [if_pos hg]
      exact uniIf_isG _ rfl hw
    all_goals
      intro hc
      have hg : ¬ f.mod6.toNat % 4 = 1 := by omega
      rw [if_neg hg]
    case same => exact fun hs => ⟨_, compressed_same hs⟩
    case line => exact fun hs hl => compressed_line hs hl
    case neither =>
      intro hs hl hw
      rw [compressed_gen hs hl]
      exact normShape_gen_isG _ hw
  case perm =>
    intro hx hd hr hb from_ has ha hurt hp
    refine ⟨_, uniIf_onLanes x (permUni f x) (permWord f x), fun hu => ?index, fun hw hu hl => ?element, fun hb' hno hw => ?general,
      issue_ok hx (permBody_ok hd hr hb ha hp)⟩
    case index => exact uniIf_isU (by rw [permUni, hu]; rfl) (fun l => permWord_const_of_index hu l x.lane)
    case element =>
      exact uniIf_isU (by rw [permUni, hu, hl, beq_self_eq_true]; exact Bool.or_true _)
        (fun l => permWord_const_of_element hw hu hl l x.lane)
    case general =>
      refine uniIf_isG _ ?_ hw
      rw [permUni, hb', Bool.false_or]
      simpa using hno
  case ocld => exact fun r hx hdst hn hr => issue_ok hx (ocldBody_ok hdst hn hr)
  case ocinv => exact fun hx hm => issue_ok hx (ocinvBody_ok hm)
  case ixset =>
    intro r hx hm hr n add
    refine ⟨_, issue_ok hx (ixsetBody_ok hm hr), fun l hl => ?_, fun k hk => ?_, rfl⟩
    · rw [Crew.ixAt, mgetD, mget_mput_same]
      exact getD_map_range _ _ _ _ hl
    · rw [mgetD, mget_mput_ne _ _ _ _ hk, mgetD]
  case width => exact fun hx hm => issue_ok hx (xsetBody_width hm)
  case word => exact fun r hx hm hr => issue_ok hx (xsetBody_word hm hr)
end

section
/-!
PROOFS. The coherence instructions: RWB, RINV and RWI (R102 to R105), FREEZE, THAW and FRZQ (R115 to R125), CRDECL, CRREL and
PROMOTE (R106 to R112, R126, R127).
-/

namespace Sys2Proof.Machine

/-! An issue slot whose body faults. -/

/-- The load set's say keeps a crew's fence. -/
theorem State.loadSetCrew_fence {s : State} {opc : Nat} {c c1 : Crew} (h : s.loadSetCrew opc c = some c1) : c1.fence = c.fence := by
  unfold State.loadSetCrew at h
  split at h
  · cases h; rfl
  · split at h <;> cases h
    rfl

/-- An instruction that executes and whose body faults is recorded with its fault (R436), but past a speculative fence, where
the crew waits (R202). -/
theorem issue_fault {s : State} {opc len : Nat} {g : Guard} {x : Cx} {body : Cx → Iss Rsl} {e : FaultRec}
    (h : s.issueCx opc len g = some x) (hb : body x = .error (.fault e)) (hf : x.c.fence = none) :
    issue s opc len g body = .next (x.s.crewFault x.id e) := by
  obtain ⟨c, c1, hc, hp, hl, hcan, hfence, hhold, hrole, hg, howed, hx⟩ := issueCx_unfold h
  have hslot : issueBody ⟨{ s with opSeq := s.opSeq + 1 }, s.focus, c1.agePaths, x.p, len, 0, s.opSeq⟩ opc g body =
      .error (.fault e) := by
    rw [hx] at hb
    simp only [issueBody, hrole, hg, howed, needInsn, needIssue]
    exact hb
  have hcf : c.fence = none := by
    rw [hx] at hf
    exact (State.loadSetCrew_fence hl).symm.trans hf
  unfold issue
  simp only [hc, hp, hl, hcan, hfence, hhold, hslot, hcf]
  rw [hx]
  rfl

/-! RWB, RINV and RWI (R102 to R105). -/

theorem rangeOpnds_all {f : LE} (x : Cx) (h : f.md.getLsbD 0 = true) : rangeOpnds f x = .ok none := if_pos h

theorem rangeOpnds_read {f : LE} {x : Cx} {r : List (List Opd)} (h : f.md.getLsbD 0 = false)
    (hr : x.once.fetch (rangeSrcs f) = .ok r) :
    rangeOpnds f x = .ok (some (pairAt (nthRun r 0) x.lane, ((nthOpd r 1).at x.lane).toNat)) := by
  unfold rangeOpnds
  rw [h, hr]
  rfl

/-- What a range instruction does to the lines of an L1 that a test picks: 0 RWB, 1 RINV, 2 RWI (R102). -/
def rangeEff : Nat → State → Nat → (Line → Bool) → State
  | 0 => State.writeBackWhere
  | 1 => fun s core p => (s.dropCleanWhere core p).dropReplicaWhere core p
  | _ => State.l1Rwi

/-- The crew after a range instruction (R104): a counted one is in S until the messages that it sent, numbers from sent on, are
acknowledged. -/
def Cx.rangeCrew (x : Cx) (c : Crew) (op sent : Nat) (s : State) : Crew :=
  let ids := (s.net.filter (fun m => decide (sent ≤ m.id))).map (·.id)
  if op != 1 then
    if ids.isEmpty then (c.raise cS x.op).lower cS x.op else { c.raise cS x.op with rwOps := c.rwOps ++ [(x.op, ids)] }
  else c

theorem Cx.rangeCrew_counted {x : Cx} {c : Crew} {op sent : Nat} {s : State} (hop : (op != 1) = true) :
    (if ((s.net.filter (fun m => decide (sent ≤ m.id))).map (·.id)).isEmpty = true then
        (pure ⟨s, (c.raise cS x.op).lower cS x.op, true⟩ : Iss Rsl)
      else pure ⟨s, { c.raise cS x.op with
        rwOps := c.rwOps ++ [(x.op, (s.net.filter (fun m => decide (sent ≤ m.id))).map (·.id))] }, true⟩) =
      .ok ⟨s, x.rangeCrew c op sent s, true⟩ := by
  unfold Cx.rangeCrew
  rw [if_pos hop]
  split <;> rfl

/-- A range instruction's body where t is the device after translation with the range's parts, none of them where it acts on
all lines. -/
theorem rangeBody_ok {op : Nat} {f : LE} {x : Cx} {r : List (List Opd)} {t : State × List Part}
    (hroom : (op != 1) = true → x.c.cnt cS < 63) (hact : x.act ≠ 0)
    (hr : f.md.getLsbD 0 = false → x.once.fetch (rangeSrcs f) = .ok r)
    (ht : if f.md.getLsbD 0 then t = (x.s, [])
      else x.parts x.s .range (pairAt (nthRun r 0) x.lane) ((nthOpd r 1).at x.lane).toNat = .ok t)
    (hq : (op != 1) = true → x.c.storesTo x.s.devnum (fun dev ln =>
      f.md.getLsbD 0 || t.1.placeIn (t.2.map (fun p => (p.tgt, p.n))) dev ln) = false) :
    let s1 := rangeEff op t.1 x.c.core (fun l => f.md.getLsbD 0 || t.1.lineIn (t.2.map (fun p => (p.tgt, p.n))) l)
    rangeBody op f x = .ok ⟨s1, x.rangeCrew (x.c.emptySrcs (rangeSrcs f)) op t.1.opSeq s1, true⟩ := by
  have hstores : needIssue (!(op != 1) || !x.c.storesTo x.s.devnum (fun dev ln =>
      f.md.getLsbD 0 || t.1.placeIn (t.2.map (fun p => (p.tgt, p.n))) dev ln)) = .ok () := by
    refine needIssue_of ?_
    cases hop : op != 1
    · rfl
    · rw [hq hop]; rfl
  cases hall : f.md.getLsbD 0 <;> rw [hall] at ht hstores
  case' true =>
    obtain rfl : t = (x.s, []) := ht
    simp only [rangeBody, rangeOpnds_all x hall, bind_ok, if_neg hact]
  case' false =>
    have hparts : x.parts x.s .range (pairAt (nthRun r 0) x.lane) ((nthOpd r 1).at x.lane).toNat = .ok t := ht
    simp only [rangeBody, rangeOpnds_read hall (hr hall), bind_ok, if_neg hact, hparts]
  all_goals
    simp only [Bool.true_or, Bool.false_or] at hstores
    rcases op with _ | _ | op
    case succ.zero =>
      simp only [pure_bind, bind_ok, hstores]
      rfl
    all_goals
      simp only [counterRoom_of (hroom rfl), pure_bind, bind_ok, hstores]
      apply Cx.rangeCrew_counted
      rfl

/-- Any instruction that issues the body of one of the operations acts as that operation does. -/
theorem rangeActs_of_issue {i : Instr} {opc : Nat} {f : LE} (op : Nat)
    (he : ∀ s, exec i s = issue s opc 8 f.g (rangeBody op f)) : RangeActs i opc f (op != 1) (rangeEff op) := by
  intro s x r t hx hroom all srcs hact hr ht hq s1 ids c
  exact (he s).trans (issue_ends hx (rangeBody_ok hroom hact hr ht hq))

/-! FREEZE and THAW (R115, R116, R121): what their bodies answer where their operands give the start va and the length n of a
region whose pages are the parts t. -/

/-- The complete entry of a region that a THAW names (R121). -/
def thawHit (t : State × List Part) (n : Nat) : Option (Nat × Freeze) :=
  (contiguous t.2).bind (fun b => t.1.freezes.find? (fun e => e.2.state == .frozen && e.2.base == b && e.2.len == n))

/-- The device after a THAW of a complete entry, at the state q and the number that it has taken (R121, R122). -/
def State.thawEntry (q : State × Word) (e : Nat × Freeze) : State :=
  if 1 < e.2.count then
    ({ q.1 with freezes := mput q.1.freezes e.1 { e.2 with count := e.2.count - 1 } }).thawComplete q.2
  else
    let far := e.2.presence.filter (fun d => d != q.1.devnum)
    ((({ q.1 with freezes := mput q.1.freezes e.1 { e.2 with state := .thawing, tseq := q.2, asked := far },
                  outbox := q.1.outbox ++ far.map (fun d => OutMsg.collect d e.1) } : State).dropEntry e.1).thawFree e.1)

section
variable {f : LE} {x : Cx} {r : List (List Opd)} {t : State × List Part} {va : Dword} {n : Nat}
  (hd : dstCheck x.c f.dst 1 true = .ok ()) (hr : x.Reads [(f.srcA 2).plain, (f.srcB 1).plain] r)
  (hva : pairAt (nthRun r 0) x.lane = va) (hn : ((nthOpd r 1).at x.lane).toNat = n) (ht : x.parts x.s .range va n = .ok t)

include hd hr hva hn ht

theorem freezeBody_fails (hm : f.md.toNat < 2) (hrng : t.1.partsInRange t.2 = false) (hwhy : freezeReason t.2 va n ≠ 0) :
    freezeBody f x = .ok ⟨t.1, x.writeWord (x.c.emptySrcs [(f.srcA 2).plain, (f.srcB 1).plain]).waitPoint f.dst
      (freezeFail (freezeReason t.2 va n)), true⟩ := by
  obtain ⟨hact, hfetch⟩ := hr
  simp only [freezeBody, needInsn_of (decide_eq_true hm), hd, hfetch, bind_ok, if_neg hact, hva, hn, ht, hrng, if_pos hwhy]
  rfl

theorem freezeBody_waits (hm : f.md.toNat < 2) (hrng : t.1.partsInRange t.2 = false) (hwhy : freezeReason t.2 va n = 0) :
    freezeBody f x = .ok ⟨t.1, (x.c.emptySrcs [(f.srcA 2).plain, (f.srcB 1).plain]).waitAt (x.waitFor 8 0x8A 0 va f.dst 8
      (.freeze 0 0 ((contiguous t.2).getD 0) n (f.md == 1) []) (headLeaf t.2) (headLevel t.2)), true⟩ := by
  obtain ⟨hact, hfetch⟩ := hr
  simp only [freezeBody, needInsn_of (decide_eq_true hm), hd, hfetch, bind_ok, if_neg hact, hva, hn, ht, hrng,
    if_neg (not_not_intro hwhy)]
  rfl

theorem thawBody_none (hhit : thawHit t n = none) :
    thawBody f x = .ok ⟨t.1, x.writeWord (x.c.emptySrcs [(f.srcA 2).plain, (f.srcB 1).plain]) f.dst 0, true⟩ := by
  obtain ⟨hact, hfetch⟩ := hr
  unfold thawHit at hhit
  simp only [thawBody, hd, hfetch, bind_ok, if_neg hact, hva, hn, ht, hhit]
  rfl

theorem thawBody_hit {e : Nat × Freeze} (hhit : thawHit t n = some e) :
    thawBody f x = .ok ⟨State.thawEntry t.1.thawTake e,
      x.writeWord (x.c.emptySrcs [(f.srcA 2).plain, (f.srcB 1).plain]) f.dst t.1.thawTake.2, true⟩ := by
  obtain ⟨hact, hfetch⟩ := hr
  unfold thawHit at hhit
  simp only [thawBody, hd, hfetch, bind_ok, if_neg hact, hva, hn, ht, hhit]
  rfl

end

/-! FRZQ (R125). -/

section
variable {f : LE} {x : Cx}

theorem frzqSeqBody_ok (hd : dstCheck x.c f.dst 1 true = .ok ()) :
    frzqSeqBody f x = .ok ⟨x.s, x.writeWord x.c f.dst x.s.thawDone, true⟩ := by
  rw [frzqSeqBody, hd]
  rfl

theorem frzqFreeBody_ok (hd : dstCheck x.c f.dst 1 true = .ok ()) :
    frzqFreeBody f x = .ok ⟨x.s, x.writeWord x.c f.dst (BitVec.ofNat 32 (256 - x.s.freezes.length)), true⟩ := by
  rw [frzqFreeBody, hd]
  rfl

variable {r : List (List Opd)} {t : State} {a : LaneAcc}

/-- What FRZQ.addr answers for the byte's access a, at the state t after its translation: by where the byte is homed. -/
def frzqAnswer (f : LE) (x : Cx) (va : Dword) (t : State) (a : LaneAcc) : Iss Rsl :=
  let c := x.c.emptySrcs [(f.srcA 2).plain]
  match a.tgt with
  | .hbm pa => .ok ⟨t, x.writeWord c f.dst (t.frzqWord pa), true⟩
  | .peer dev pa =>
    if !t.peerPath dev then .error (.fault (a.failRec 17 x.p.pc 4))
    else .ok ⟨(t.askPeer (x.c.tag x.id x.p.pc va a.leaf a.level) x.op x.lane dev pa 0 .frzq).1,
      c.pendDests x.op 0 false (regDests c f.dst 0 x.act (.u 0) 0), true⟩
  | _ => .ok ⟨t, x.writeWord c f.dst 0, true⟩

theorem frzqAddrBody_eq (hm : f.md = 0) (hd : dstCheck x.c f.dst 1 true = .ok ()) (hr : x.Reads [(f.srcA 2).plain] r)
    (ht : x.translateAll x.s .range 1 [(x.lane, pairAt (nthRun r 0) x.lane)] = .ok (t, [a])) :
    frzqAddrBody f x = frzqAnswer f x (pairAt (nthRun r 0) x.lane) t a := by
  obtain ⟨hact, hfetch⟩ := hr
  simp only [frzqAddrBody, needInsn_of (beq_iff_eq.mpr hm), hd, hfetch, bind_ok, if_neg hact, ht]
  rfl

end

/-! CRDECL, CRREL and PROMOTE. -/

section
variable {f : LE} {x : Cx} {r : List (List Opd)}

theorem crrelBody_waits {t : State} {a : LaneAcc} (del : Bool) (hd : dstCheck x.c f.dst 1 true = .ok ())
    (hr : x.Reads [(f.srcA 2).plain] r)
    (ht : x.translateAll x.s .range 1 [(x.lane, pairAt (nthRun r 0) x.lane)] = .ok (t, [a])) :
    crrelBody del f x = .ok ⟨t, (x.c.emptySrcs [(f.srcA 2).plain]).waitAt
        (x.waitFor 8 0x8E 0 (pairAt (nthRun r 0) x.lane) f.dst 8
          (.crrel (match a.tgt with | .hbm pa => pa | _ => Config.hbmBytes) del) a.leaf a.level), true⟩ := by
  obtain ⟨hact, hfetch⟩ := hr
  simp only [crrelBody, hd, hfetch, bind_ok, if_neg hact, ht, List.head?_cons, Option.map_some]
  cases a.tgt <;> rfl

/-- The operands of a PROMOTE (R126): the victim core, and for a range its length and start. -/
def promoteSrcs (f : LE) : List Src :=
  if f.md.getLsbD 0 then [(f.srcB 1).plain] else [(f.srcB 1).plain, f.srcD 1, (f.srcA 2).plain]

theorem promoteBody_waits {v : Nat} {t : State × List Part} (hd : f.md.getLsbD 0 = false → dstCheck x.c f.dst 1 true = .ok ())
    (hr : x.Reads (promoteSrcs f) r) (hv : ((nthOpd r 0).at x.lane).toNat = v) (hcore : v < 256)
    (hup : x.s.clusterUp (clusterOf v) = true)
    (ht : if f.md.getLsbD 0 then t = (x.s, [])
      else x.parts x.s .range (pairAt (nthRun r 2) x.lane) ((nthOpd r 1).at x.lane).toNat = .ok t) :
    promoteBody f x = .ok ⟨t.1, (x.c.emptySrcs (promoteSrcs f)).waitAt (x.waitFor 8 0x8F 0 0 0x110 8
      (.promote v (t.2.map (fun p => (p.tgt, p.n))) (f.md.getLsbD 0) 0 [])), true⟩ := by
  have hvictim : (x.act == 0 || (decide (v < 256) && x.s.clusterUp (clusterOf v))) = true := by simp [hcore, hup]
  obtain ⟨hact, -, hpeek, hdead, hpoison⟩ := reads_parts hr
  unfold promoteSrcs at hpeek hdead ⊢
  cases hall : f.md.getLsbD 0 <;> simp only [hall, if_true, Bool.false_eq_true, if_false] at hd ht hpeek hdead ⊢
  all_goals
    simp only [promoteBody, hall, if_true, Bool.false_eq_true, if_false, hd, hpeek, bind_ok, hv, needOpnd_of hvictim, hdead,
      if_neg hact, ht, hpoison]
    rfl

/-- The step of CRDECL that zeroes the i-th of the holder vectors of a range at their home (R106, R107). -/
def zeroHolder (die hbase howner : Nat) (s : State) (i : Nat) : Except Nat State :=
  if s.reach die (hbase + 16 * i) = false then .error 17
  else s.homeStore howner (maskedCells (hbase + 16 * i) ((leBytes 16 0).map some)) false

theorem zeroHolder_eq (die hbase howner : Nat) : (fun (s : State) (i : Nat) =>
    if (!s.reach die (hbase + 16 * i)) = true then .error 17
    else s.homeStore howner (maskedCells (hbase + 16 * i) ((leBytes 16 0).map some)) false) = zeroHolder die hbase howner := by
  funext s i
  simp only [zeroHolder, Bool.not_eq_true']

section
variable {t h : State × List Part} {s1 : State} {e n : Nat} {va hva : Dword}

theorem crdeclBody_ok (hm : f.md.toNat < 5) (hd : dstCheck x.c f.dst 2 true = .ok ())
    (hr : x.Reads [f.srcD 2, (f.srcA 2).plain, (f.srcB 1).plain] r)
    (hhva : pairAt (nthRun r 0) x.lane = hva) (hva' : pairAt (nthRun r 1) x.lane = va) (hn : ((nthOpd r 2).at x.lane).toNat = n)
    (hal : va.toNat % 128 = 0 ∧ n % 128 = 0 ∧ n ≠ 0 ∧ n ≤ 2 ^ 30 ∧ hva.toNat % 16 = 0)
    (ht : x.parts x.s .range va n = .ok t) (hh : x.parts t.1 .holder hva (n / 128 * 16) = .ok h)
    (hplain : plainParts t.2 = true) (hhplain : plainParts h.2 = true)
    (hmeet : rangesMeet ((contiguous t.2).getD 0) n ((contiguous h.2).getD 0) (n / 128 * 16) = false)
    (hfree : mfree (mgetD h.1.ranges (x.c.core / 128) []) 16 = some e) (hin : h.1.partsInRange t.2 = false)
    (hfrz : h.1.freezeOver ((contiguous t.2).getD 0) n = false)
    (hz : (List.range (n / 128)).foldlM (zeroHolder (x.c.core / 128) ((contiguous h.2).getD 0) ((h.2.head?.map (·.owner)).getD 0)) h.1
      = .ok s1) :
    let rng : CRange := { oper := f.md.toNat, base := (contiguous t.2).getD 0, len := n,
                          owner := ((t.2.head?.map (·.owner)).getD 0), hbase := (contiguous h.2).getD 0,
                          howner := ((h.2.head?.map (·.owner)).getD 0), forced := false }
    let tab := mput (mgetD h.1.ranges (x.c.core / 128) []) e rng
    crdeclBody f x = .ok ⟨State.sweep { s1 with ranges := mput s1.ranges (x.c.core / 128) tab } ((contiguous t.2).getD 0) n,
      (x.c.emptySrcs [f.srcD 2, (f.srcA 2).plain, (f.srcB 1).plain]).waitPoint, true⟩ := by
  obtain ⟨hact, -, hpeek, hdead, hpoison⟩ := reads_parts hr
  simp only [crdeclBody, needInsn_of (decide_eq_true hm), hd, hpeek, bind_ok, if_neg hact, hhva, hva', hn,
    needOpnd_of (decide_eq_true hal), hdead, ht, hh, hplain, hhplain, hmeet, hfree, hin, hpoison, hfrz, zeroHolder_eq, hz]
  rfl

end
end

end Sys2Proof.Machine

open Sys2Proof Sys2Proof.Machine

/-- Settles O20: the three instructions issue one body, which differs in what it does to the lines and in whether it counts. -/
theorem cacheRangeResult : Obligations.CacheRangeResult := by
  unfold Obligations.CacheRangeResult
  exact fun f => ⟨rangeActs_of_issue 0 (fun _ => rfl), rangeActs_of_issue 1 (fun _ => rfl), rangeActs_of_issue 2 (fun _ => rfl)⟩

/-- Settles O21: each instruction by what its body answers; FRZQ.addr by where the byte is homed. -/
theorem freezeInstructionResult : Obligations.FreezeInstructionResult := by
  unfold Obligations.FreezeInstructionResult
  refine ⟨?regions, ?queries⟩
  case regions =>
    intro f s x r t hd hr va n c ht
    refine ⟨fun hx hm hrng => ⟨fun hwhy => ?fails, fun hwhy => ?waits⟩, ?thaw⟩
    case fails => exact issueW_ends hx (freezeBody_fails hd hr rfl rfl ht hm hrng hwhy)
    case waits => exact issueW_ends hx (freezeBody_waits hd hr rfl rfl ht hm hrng hwhy)
    case thaw =>
      intro hx hit
      refine ⟨fun hhit => issue_ends hx (thawBody_none hd hr rfl rfl ht hhit), ?_⟩
      intro e hhit q far
      have hthaw : exec (.thaw f) s = .next (x.ends (State.thawEntry q e) (x.writeWord c f.dst q.2)) :=
        issue_ends hx (thawBody_hit hd hr rfl rfl ht hhit)
      unfold State.thawEntry at hthaw
      exact ⟨fun hcount => by rwa [if_pos hcount] at hthaw, fun hcount => by rwa [if_neg hcount] at hthaw⟩
  case queries =>
    intro f s x hx hd
    refine ⟨issue_ends hx (frzqSeqBody_ok hd), issue_ends hx (frzqFreeBody_ok hd), fun r t a hm hr ht => ?_⟩
    intro c
    have hbody := frzqAddrBody_eq hm hd hr ht
    unfold frzqAnswer at hbody
    refine ⟨fun pa htgt => ?_, fun dev pa htgt hpath hfence => ?_, fun dev pa htgt hpath => ?_, fun off htgt => ?_⟩
    · rw [htgt] at hbody
      exact issue_ends hx hbody
    · simp only [htgt, hpath] at hbody
      exact issue_fault hx hbody hfence
    · simp only [htgt, hpath] at hbody
      exact issue_ends hx hbody
    · rcases htgt with htgt | htgt <;> rw [htgt] at hbody <;> exact issue_ends hx hbody

/-- Settles O22: CRDECL completes in its slot; CRREL and PROMOTE end in a wait, which is looked at at once. -/
theorem commutativeRangeAndPromoteResult : Obligations.CommutativeRangeAndPromoteResult := by
  unfold Obligations.CommutativeRangeAndPromoteResult
  intro f s x r
  refine ⟨?declares, ?releases, ?promotes⟩
  case declares =>
    intro t h s1 e hx hm hd hr hva va n hva128 hn128 hn0 hn30 hhva16 ht hh hplain hhplain base hbase tab hmeet hfree hin hfrz rng hz
    exact issue_ends hx (crdeclBody_ok hm hd hr rfl rfl rfl ⟨hva128, hn128, hn0, hn30, hhva16⟩ ht hh hplain hhplain hmeet hfree hin
      hfrz hz)
  case releases =>
    intro t a hx hd hr ht
    exact ⟨issueW_ends hx (crrelBody_waits false hd hr ht), issueW_ends hx (crrelBody_waits true hd hr ht)⟩
  case promotes =>
    intro hx all srcs hd hr v hcore hup t ht
    exact issueW_ends hx (promoteBody_waits hd hr rfl hcore hup ht)
end

section
/-!
PROOFS. A host-window reply whose request an earlier session of the identity carried (R466, R474).
-/

namespace Sys2Proof.Machine

theorem exec_hostWindowReply (s : State) (r : HostReply) : exec (.hostWindowReply r) s = .next (s.hostReply r) := rfl

/-- An accepted reply that answers no request of its session is dropped and counted (R474). -/
theorem State.hostReply_unasked {s t : State} {r : HostReply} (ha : s.accept r.ident r.seq = some t) (hn : t.hostAsked r = none) :
    s.hostReply r = t.portDrop r.port := by
  simp only [State.hostReply, ha, hn]

/-- A write to the host window that was sent in session 0 of identity 0 and has had no reply. -/
def staleReq : HostReq :=
  { id := 4, tag := { crew := 0, ctx := 0, entry := 0, pc := 0, va := 0 }, reqid := 0, ident := 0, ctx := 0, crew := 0, op := 4,
    lane := 0, write := true, len := 1, off := 0, data := [0], sent := true, held := none, sess := 0 }

/-- The device as its reset leaves it, but for that request and session 1 of the same identity, now open. -/
def staleState : State :=
  { State.reset with hostReqs := [staleReq], sessions := [(0, { slot := 0, root := 0, reqid := 0, num := 1 })] }

/-- A reply in session 1 with that request's number. -/
def staleReply : HostReply := { port := 0, ident := 0, seq := 0, reqid := 0, op := 0x82, len := 0, status := 0, data := [] }

/-- The state with the reply's sequence number accepted. -/
def staleAccepted : State :=
  { staleState with sessions := [(0, { slot := 0, root := 0, reqid := 0, rxseq := 1, num := 1 })] }

theorem staleState_accept : staleState.accept staleReply.ident staleReply.seq = some staleAccepted := rfl

/-- The reply is dropped: the request is of another session. -/
theorem exec_staleReply : exec (.hostWindowReply staleReply) staleState = .next (staleAccepted.portDrop 0) := by
  rw [exec_hostWindowReply, State.hostReply_unasked staleState_accept rfl]
  rfl

theorem staleDrop_hostReqs : (staleAccepted.portDrop 0).hostReqs = [staleReq] := rfl

theorem staleAnswer_hostReqs : (staleAccepted.answer staleReq.asPeer 0 []).hostReqs = [] := rfl

end Sys2Proof.Machine

open Sys2Proof Sys2Proof.Machine

/-- Refutes O34: the statement takes a host-window reply for the answer to any request with its identity and REQID, but the
model also asks that the session which brings the reply has carried the request. In staleState a request of session 0 waits and a
reply with its number comes in session 1: it is dropped and the request stays, where the statement has it answered. -/
theorem not_messageAndRemoteEventResult : ¬ Obligations.MessageAndRemoteEventResult := by
  unfold Obligations.MessageAndRemoteEventResult
  rintro ⟨-, -, -, hhost, -⟩
  obtain ⟨-, haccepted⟩ := hhost staleState staleReply
  obtain ⟨hasked, -⟩ := haccepted staleAccepted staleState_accept
  obtain ⟨hwrite, -, -⟩ := hasked staleReq rfl
  have hanswer : exec (.hostWindowReply staleReply) staleState = .next (staleAccepted.answer staleReq.asPeer 0 []) :=
    hwrite rfl rfl rfl rfl
  rw [exec_staleReply] at hanswer
  have hreqs := congrArg State.hostReqs (Host.Outcome.next.inj hanswer)
  rw [staleDrop_hostReqs, staleAnswer_hostReqs] at hreqs
  cases hreqs
end

section
/-!
PROOFS. Memory instructions issue: loads are put in flight (R134 to R136), stores, register saves and atomics enter the store
queue (R138 to R141, R145 to R148, R239, R240).
-/

namespace Sys2Proof.Machine

/-! LDG and LDC (R134 to R136). -/

theorem Crew.foldl_supersede_loads (ds : List PDest) (c : Crew) :
    (ds.foldl (fun c d => c.supersede d.dst d.lanes) c).loads = c.loads := by
  induction ds generalizing c with
  | nil => rfl
  | cons d ds ih => exact ih (c.supersede d.dst d.lanes)

@[simp] theorem Crew.pendDests_loads (c : Crew) (op win : Nat) (ready : Bool) (ds : List PDest) :
    (c.pendDests op win ready ds).loads = c.loads := foldl_supersede_loads ds c

theorem bind_of_ok {α β : Type} {a : Iss α} {v : α} {k : α → Iss β} (h : a = .ok v) : (a >>= k) = k v := by
  rw [h, bind_ok]

/-- Whether a load makes one access for the crew (R135, R136). -/
def loadUni (opc : Nat) (f : LM) (base : List Opd) : Bool :=
  opc == 0x82 || ((match place f.dst with | some (.reg _) => true | _ => false) && base.all (·.isU))

/-- The load that LDG and LDC put in flight with their lanes' accesses (R134). -/
def loadEntry (opc : Nat) (f : LM) (x : Cx) (base : List Opd) (accs : List LaneAcc) : LoadOp :=
  { op := x.op, pc := x.p.pc, pol := f.pol.toNat, uni := loadUni opc f base, sign := f.wt.getLsbD 0, accs := accs, got := [],
    passed := false, vrest := none }

/-- An instruction that issues the body of a load puts one in flight, or with no acting lane only goes on. -/
theorem loadIssues_of_issue {i : Instr} {opc : Nat} {f : LM} (he : ∀ s, exec i s = issue s opc 8 f.g (loadBody opc f)) :
    LoadIssues i opc f := by
  intro s x b t c hx hm hd hb hG base lanes only hal hdead ht hp hc
  refine ⟨fun hact => (he s).trans (issue_ends hx ?idle),
    fun hact => ⟨loadEntry opc f x base t.2, rfl, rfl, rfl, rfl, rfl, rfl, rfl, (he s).trans (issue_ends hx ?entry)⟩⟩
  all_goals
    subst only lanes base
    simp only [loadBody, needInsn_of hm, hd, hb, counterRoom_of hG, hal, hdead, bind_ok]
    refine (bind_of_ok ht).trans ((bind_of_ok hp).trans ((bind_of_ok hc).trans ?_))
  case idle => exact if_pos hact
  case entry =>
    rw [Crew.pendDests_loads]
    exact if_neg hact

/-! STG and STM (R138 to R141). -/

/-- The data registers of STG, and of STM with the register of its byte mask (R138, R139). -/
def storeData (opc : Nat) (f : LM) : Src :=
  if opc == 0x86 then f.srcData (wtRegs f.wt + 1) false false else f.srcData (wtRegs f.wt) (wtRegs f.wt == 1) true

/-- The byte mask of a lane's store, all bytes for STG (R139). -/
def storeMask (opc : Nat) (f : LM) (run : List Opd) (l : Nat) : Word :=
  if opc == 0x86 then (run.getD (wtRegs f.wt) ⟨.u 0, 0⟩).at l else 0xFFFFFFFF

/-- An instruction that issues the body of a store queues its entry, or with no acting lane only goes on. -/
theorem storeIssues_of_issue {i : Instr} {opc : Nat} {f : LM} (he : ∀ s, exec i s = issue s opc 8 f.g (storeBody opc f)) :
    StoreIssues i opc f (storeData opc f) (storeMask opc f) := by
  intro s x r t hx hm hr hS hq hal hdead ht hp
  refine ⟨fun hact => (he s).trans (issue_ends hx ?idle), fun hact => (he s).trans (issue_ends hx ?entry)⟩
  all_goals
    unfold storeData at hr hdead
    simp only [storeBody, needInsn_of hm, hr, counterRoom_of hS, queueRoom_of hq, hal, hdead, bind_ok, ht, hp]
  case idle => exact if_pos hact
  case entry => exact if_neg hact

/-! VSAVE (R239, R240). -/

theorem slotAddr_of {f : LM} {x : Cx} {base : List Opd} (h : (lmAddr f base x.lane).toNat % 16 = 0) :
    slotAddr f x base = .ok (lmAddr f base x.lane) := if_neg (by simp [h])

/-- The accesses with which VSAVE writes the bytes of a slot, piece by piece (R239). -/
def slotAccs (bs : List (Byte × Bool)) (ps : List (Nat × Dword × Nat)) (as : List LaneAcc) : List LaneAcc :=
  (as.zip ps).map (fun e =>
    ({ e.1 with n := e.2.2.2, bytes := ((bs.drop e.2.1).take e.2.2.2).map (fun b => some b.1),
                poison := ((bs.drop e.2.1).take e.2.2.2).any (·.2) } : LaneAcc))

theorem vsaveBody_ok {f : LM} {x : Cx} {n : Nat} {b : List (List Opd)} {va : Dword} {t : State × List LaneAcc}
    (hm : memLegal 0x7B f = true) (hn : slotDst f x = .ok n) (hb : x.peek [f.srcBase] = .ok b) (ho : x.c.owed (.reg n) = false)
    (hS : x.c.cnt cS < 63) (hq : x.c.sq.length < 64) (hdead : x.deadReads [f.srcBase] = .ok ()) (hact : x.act ≠ 0)
    (hva : lmAddr f (nthRun b 0) x.lane = va) (hal : va.toNat % 16 = 0)
    (ht : x.translateAll x.s .store 0 ((sectorPieces 20 va (slotBytes x.c (mget x.c.regs n)).length 0).map
      (fun p => (x.lane, p.2.1))) = .ok t)
    (hp : ({ x with act := oneLane x.lane } : Cx).poisonCheck b.flatten = .ok ()) :
    let bs := slotBytes x.c (mget x.c.regs n)
    vsaveBody f x = .ok ⟨t.1, (x.c.raise cS x.op).enqueue x.op x.p.pc (.store f.pol.toNat)
      (slotAccs bs (sectorPieces 20 va bs.length 0) t.2) false 8, true⟩ := by
  subst hva
  simp only [vsaveBody, needInsn_of hm, hn, hb, ho, needIssue_of, Bool.not_false, counterRoom_of hS, queueRoom_of hq, slotAddr_of hal,
    hdead, bind_ok, if_neg hact, ht, hp]
  rfl

/-! ATOM and RED (R145 to R148). -/

/-- The opcode of ATOM, which returns what it found, and of RED (R145). -/
def atomOpc (ret : Bool) : Nat := if ret then 0x84 else 0x85

/-- The counter that an atomic raises (R152). -/
def atomCtr (ret : Bool) : Nat := if ret then cA else cS

/-- The data registers of an atomic: both operands for a compare-and-swap (R145). -/
def atomData (ret : Bool) (f : LM) : Src :=
  if ret then f.srcData (if f.md = 9 then 2 * wtRegs f.wt else wtRegs f.wt) false false
  else f.srcData (wtRegs f.wt) (wtRegs f.wt == 1) true

/-- The lanes' accesses with their operands (R147). -/
def atomAccs (f : LM) (run : List Opd) (as : List LaneAcc) : List LaneAcc :=
  as.map (fun a =>
    ({ a with x := BitVec.ofNat 64 (leNat (dataBytes (run.take (wtRegs f.wt)) a.lane (wtBytes f.wt))),
              y := BitVec.ofNat 64 (leNat (dataBytes (run.drop (wtRegs f.wt)) a.lane (wtBytes f.wt))) } : LaneAcc))

/-- The crew after an atomic: its entry is queued, and an ATOM's destinations are pending (R26, R147). -/
def atomQueued (ret : Bool) (f : LM) (x : Cx) (accs : List LaneAcc) : Crew :=
  let c := (x.c.raise (atomCtr ret) x.op).enqueue x.op x.p.pc (.atom f.wt f.md ret) accs (f.pol.getLsbD 1) f.scp.toNat f.pol
  if ret then c.pendDests x.op f.la.toNat false
    ((List.range (wtRegs f.wt)).map (fun n => regDests c f.dst n x.act (.u (BitVec.ofNat 32 n)) 0)).flatten else c

/-- An acquiring ATOM holds the crew's later accesses (R148). -/
def atomHeld (ret : Bool) (f : LM) (x : Cx) (c : Crew) : Crew :=
  if ret && f.pol.getLsbD 0 then
    { c with hold := some { ops := [x.op], narrow := true, inval := x.s.scopeWide x.c f.scp.toNat } }
  else c

theorem atomBody_ok {ret : Bool} {f : LM} {x : Cx} {r : List (List Opd)} {t : State × List LaneAcc}
    (hm : memLegal (atomOpc ret) f = true) (hr : x.peek [atomData ret f, f.srcBase] = .ok r)
    (hroom : x.c.cnt (atomCtr ret) < 63) (hq : x.c.sq.length < 64)
    (hal : x.aligned (wtBytes f.wt) (lmAddr f (nthRun r 1)) = .ok ()) (hdead : x.deadReads [atomData ret f, f.srcBase] = .ok ())
    (ht : x.translateAll x.s .atomic (wtBytes f.wt) ((laneList x.act).map (fun l => (l, lmAddr f (nthRun r 1) l))) = .ok t)
    (hp : x.poisonCheck r.flatten = .ok ()) (hact : x.act ≠ 0) :
    atomBody (atomOpc ret) f x =
      .ok ⟨t.1, atomHeld ret f x (atomQueued ret f x (atomAccs f (nthRun r 0) t.2)), true⟩ := by
  have hret : (atomOpc ret == 0x84) = ret := by cases ret <;> rfl
  unfold atomData at hr hdead
  unfold atomCtr at hroom
  simp only [atomBody, hret, beq_iff_eq, needInsn_of hm, hr, counterRoom_of hroom, queueRoom_of hq, hal, hdead, bind_ok, ht, hp,
    if_neg hact]
  rfl

theorem atomIssues_of_issue {i : Instr} {ret : Bool} {f : LM}
    (he : ∀ s, exec i s = issue s (atomOpc ret) 8 f.g (atomBody (atomOpc ret) f)) : AtomIssues i ret f := by
  intro s x r t opc k data ctr hx hm hr hroom hq hal hdead ht hp hact accs c d
  have hexec := (he s).trans (issue_ends hx (atomBody_ok hm hr hroom hq hal hdead ht hp hact))
  refine ⟨fun hacq => ?acquires, fun hno => ?plain⟩
  case acquires => rwa [atomHeld, if_pos (by simpa using hacq)] at hexec
  case plain => rwa [atomHeld, if_neg (by simpa using hno)] at hexec

end Sys2Proof.Machine

open Sys2Proof Sys2Proof.Machine

/-- Settles O11: both loads issue one body. -/
theorem loadsIssue : Obligations.LoadsIssue := by
  unfold Obligations.LoadsIssue
  exact fun f => ⟨loadIssues_of_issue (fun _ => rfl), loadIssues_of_issue (fun _ => rfl)⟩

/-- Settles O12: STG and STM issue one body, with the data and the mask of their opcode; VSAVE answers its slot's pieces. -/
theorem storesIssue : Obligations.StoresIssue := by
  unfold Obligations.StoresIssue
  intro f s x
  refine ⟨storeIssues_of_issue (fun _ => rfl), storeIssues_of_issue (fun _ => rfl), ?vsave⟩
  intro n b t hx hm hn hb ho hS hq hdead hact va bs ps hal ht hp accs
  exact issue_ends hx (vsaveBody_ok hm hn hb ho hS hq hdead hact rfl hal ht hp)

/-- Settles O13: both atomics issue one body. -/
theorem atomicsIssue : Obligations.AtomicsIssue := by
  unfold Obligations.AtomicsIssue
  exact fun f => ⟨atomIssues_of_issue (fun _ => rfl), atomIssues_of_issue (fun _ => rfl)⟩
end

section
/-!
PROOFS. PREF (R151), VREST (R239, R241), and the in-flight counters as WAITC and CNTRD read them (R154 to R156).
-/

namespace Sys2Proof.Machine

/-! PREF (R151). -/

theorem fetchRaw_of_fetch {x : Cx} {srcs : List Src} {r : List (List Opd)} (h : x.fetch srcs = .ok r) :
    x.fetchRaw srcs = .ok r ∧ x.poisonCheck r.flatten = .ok () := by
  obtain ⟨r', hraw, h⟩ := bind_inv h
  obtain ⟨⟨⟩, hp, h⟩ := bind_inv h
  cases h
  exact ⟨hraw, hp⟩

theorem prefBody_ok {f : LM} {x : Cx} {b : List (List Opd)} {c : Crew} (hm : memLegal 0x83 f = true)
    (hb : x.fetch [f.srcBase] = .ok b) (hc : x.fencePref ((laneList x.act).map (lmAddr f (nthRun b 0))) = .ok c) :
    prefBody f x =
      .ok ⟨(laneList x.act).foldl (fun s l => prefetch x f.pol.toNat s l (lmAddr f (nthRun b 0) l)) x.s, c, true⟩ := by
  obtain ⟨hraw, hp⟩ := fetchRaw_of_fetch hb
  have haddrs : ((laneList x.act).map (fun l => (l, lmAddr f (nthRun b 0) l))).map (·.2) =
      (laneList x.act).map (lmAddr f (nthRun b 0)) := List.map_map
  simp only [prefBody, needInsn_of hm, hraw, hp, bind_ok, haddrs, hc, List.foldl_map]
  rfl

/-! VREST (R241). -/

/-- The load of a slot's header that VREST puts in flight (R241). -/
def headerLoad (f : LM) (x : Cx) (n : Nat) (accs : List LaneAcc) : LoadOp :=
  { op := x.op, pc := x.p.pc, pol := f.pol.toNat, uni := false, sign := false, accs := accs.map (fun a => { a with lane := 0 }),
    got := [], passed := false, vrest := some (n, x.lane) }

theorem vrestBody_ok {f : LM} {x : Cx} {n : Nat} {b : List (List Opd)} {va : Dword} {t : State × List LaneAcc}
    (hm : memLegal 0x7C f = true) (hn : slotDst f x = .ok n) (hb : x.peek [f.srcBase] = .ok b) (hG : x.c.cnt cG < 63)
    (hdead : x.deadReads [f.srcBase] = .ok ()) (hact : x.act ≠ 0) (hf : x.c.fence = none)
    (hva : lmAddr f (nthRun b 0) x.lane = va) (hal : va.toNat % 16 = 0) (ht : x.translateAll x.s .load 16 [(x.lane, va)] = .ok t)
    (hp : ({ x with act := oneLane x.lane } : Cx).poisonCheck b.flatten = .ok ()) :
    vrestBody f x = .ok ⟨t.1, { (x.c.raise cG x.op) with loads := x.c.loads ++ [headerLoad f x n t.2] }, false⟩ := by
  subst hva
  simp only [vrestBody, needInsn_of hm, hn, hb, counterRoom_of hG, slotAddr_of hal, hdead, bind_ok, if_neg hact, ht, hp, hf,
    needIssue_of, Option.isNone_none]
  rfl

/-! WAITC (R154, R155). -/

/-- The wait of a WAITC for counter sel, or for all of them, to come down to a threshold (R154): it holds the registers that the
crew's instruction has emptied. -/
def Cx.waitcWait (x : Cx) (c : Crew) (sel thr : Nat) : Wait :=
  { x.waitFor 1 sel (BitVec.ofNat 32 thr) 0 0x110 8 (.waitc sel) with
    undo := x.c.regs.filter (fun e => (mget c.regs e.1).isNone) }

/-- What a WAITC leaves at its wait point (R154, R155). -/
def Cx.waitcCrew (x : Cx) (c : Crew) (sel thr : Nat) : Crew :=
  if waitcHolds c sel thr then c else { c with wait := some (x.waitcWait c sel thr) }

/-- The end of a WAITC's body, with a lane to act in. -/
theorem Cx.waitcCrew_eq (x : Cx) (c : Crew) (sel thr : Nat) (hact : x.act ≠ 0) :
    (if decide (x.act = 0) || waitcHolds c sel thr then (pure ⟨x.s, c, true⟩ : Iss Rsl)
      else pure ⟨x.s, { c with wait := some (x.waitcWait c sel thr) }, true⟩) =
      .ok ⟨x.s, x.waitcCrew c sel thr, true⟩ := by
  rw [decide_eq_false hact, Bool.false_or, Cx.waitcCrew]
  split <;> rfl

theorem waitcBody_imm {f : LE} {x : Cx} (hm : f.md.toNat < 6) (hsa : f.sa = 0x110) (hact : x.act ≠ 0) :
    waitcBody f x = .ok ⟨x.s, x.waitcCrew x.c.waitPoint f.md.toNat f.fn.toNat, true⟩ := by
  rw [← x.waitcCrew_eq _ _ _ hact]
  simp only [waitcBody, needInsn_of (decide_eq_true hm), beq_iff_eq.mpr hsa, if_true, bind_ok]
  rfl

theorem waitcBody_register {f : LE} {x : Cx} {r : List (List Opd)} (hm : f.md.toNat < 6) (hsa : f.sa ≠ 0x110) (hact : x.act ≠ 0)
    (hr : x.once.fetch [{ (f.srcA 1).plain with zero := false }] = .ok r) :
    waitcBody f x =
      .ok ⟨x.s, x.waitcCrew (x.c.emptySrcs [f.srcA 1]).waitPoint f.md.toNat ((nthOpd r 0).at x.lane).toNat, true⟩ := by
  rw [← x.waitcCrew_eq _ _ _ hact]
  simp only [waitcBody, needInsn_of (decide_eq_true hm), beq_eq_false_iff_ne.mpr hsa, Bool.false_eq_true, if_false, hr, bind_ok]
  rfl

/-- A WAITC goes on where the counters meet its threshold, and else waits for them. -/
theorem exec_waitc {f : LE} {s : State} {x : Cx} {c : Crew} {thr : Nat} (hx : s.issueCx 0xA3 8 f.g = some x)
    (hb : waitcBody f x = .ok ⟨x.s, x.waitcCrew c f.md.toNat thr, true⟩) :
    (waitcHolds c f.md.toNat thr = true → exec (.waitc f) s = .next (s.awake (x.ends x.s c) State.tryWaitc)) ∧
    (waitcHolds c f.md.toNat thr = false →
      ∃ w : Wait, w.op = .waitc f.md.toNat ∧ w.val = BitVec.ofNat 32 thr ∧ w.pc = x.p.pc ∧
        exec (.waitc f) s = .next (s.awake (x.ends x.s { c with wait := some w }) State.tryWaitc)) := by
  have hexec : exec (.waitc f) s = .next (s.awake (x.ends x.s (x.waitcCrew c f.md.toNat thr)) State.tryWaitc) := issueW_ends hx hb
  refine ⟨fun hmet => ?goes, fun hunmet => ⟨x.waitcWait c f.md.toNat thr, rfl, rfl, rfl, ?waits⟩⟩
  case goes => rwa [Cx.waitcCrew, if_pos hmet] at hexec
  case waits => rwa [Cx.waitcCrew, if_neg (by simp [hunmet])] at hexec

/-! CNTRD (R156). -/

theorem Crew.counterWord_eq (c : Crew) : c.counterWord =
    BitVec.ofNat 32 (c.cnt cG + 2 ^ 6 * c.cnt cS + 2 ^ 12 * c.cnt cA + 2 ^ 18 * c.cnt cX + 2 ^ 24 * c.cnt cM) := by
  simp only [Crew.counterWord, Nat.mul_comm]

theorem cntrdBody_ok {f : LE} {x : Cx} (hd : dstCheck x.c f.dst 1 true = .ok ()) :
    cntrdBody f x = .ok ⟨x.s, x.writeWord x.c f.dst x.c.counterWord, true⟩ := by
  rw [cntrdBody, hd]
  rfl

end Sys2Proof.Machine

open Sys2Proof Sys2Proof.Machine

/-- Settles O14: PREF, VREST and CNTRD complete in their slot; WAITC by whether the counters meet its threshold. -/
theorem prefetchRestoreAndCounterResult : Obligations.PrefetchRestoreAndCounterResult := by
  unfold Obligations.PrefetchRestoreAndCounterResult
  refine ⟨fun f s x => ⟨?pref, ?vrest⟩, fun f s x => ⟨?imm, ?register, ?cntrd⟩⟩
  case pref => exact fun b c hx hm hb hc => issue_ok hx (prefBody_ok hm hb hc)
  case vrest =>
    intro n b t hx hm hn hb hG hdead hact hf va hal ht hp
    exact ⟨headerLoad f x n t.2, rfl, rfl, rfl, List.length_map _,
      issue_ok hx (vrestBody_ok hm hn hb hG hdead hact hf rfl hal ht hp)⟩
  case imm => exact fun hx hm hsa hact => exec_waitc hx (waitcBody_imm hm hsa hact)
  case register => exact fun r hx hm hsa hact hr => exec_waitc hx (waitcBody_register hm hsa hact hr)
  case cntrd =>
    intro hx hd
    rw [← Crew.counterWord_eq]
    exact issue_ends hx (cntrdBody_ok hd)
end

section
/-!
PROOFS. What a trap handler does to its frame (R440, R442, R444), SNAP (R445) and YIELDPT (R446).
-/

namespace Sys2Proof.Machine

section
variable {f : LE} {x : Cx} {t : Frame} {r : List (List Opd)}

/-! TRET and TRET.skip. -/

/-- How far past its trapping instruction a trap is left: TRET goes to RPC, and so does TRET.skip on a HELPER frame (R444). -/
def Frame.skipLen (t : Frame) (skip : Bool) : Option Nat := if !skip || t.cause.toNat % 256 == 8 then none else some t.len

theorem Frame.skipLen_skip (t : Frame) : t.skipLen true = if t.cause.toNat % 256 = 8 then none else some t.len := by
  simp [Frame.skipLen]

theorem tretBody_leaves (skip : Bool) (hm : f.md.toNat < 4) (ht : x.c.frames.getLast? = some t) (hact : x.act ≠ 0) :
    tretBody skip f x = .ok ⟨x.s, x.c.leaveTrap (t.skipLen skip), false⟩ := by
  simp only [tretBody, needInsn_of (decide_eq_true hm), bind_ok, ht, if_neg hact]
  rfl

theorem tretBody_idle (skip : Bool) (hm : f.md.toNat < 4) (ht : x.c.frames.getLast? = some t) (hact : x.act = 0) :
    tretBody skip f x = .ok ⟨x.s, x.c, true⟩ := by
  simp only [tretBody, needInsn_of (decide_eq_true hm), bind_ok, ht, if_pos hact]
  rfl

/-! TRET.get and TRET.set. -/

theorem tretGetBody_ok {v : Dword} (ht : x.c.frames.getLast? = some t) (hact : x.act ≠ 0) (hd : dstCheck x.c f.dst 2 false = .ok ())
    (hr : x.once.peek [f.srcA 1] = .ok r) (hi : ((nthOpd r 0).at x.lane).toNat < 8)
    (hdead : x.once.deadReads [f.srcA 1] = .ok ()) (hp : x.once.poisonCheck r.flatten = .ok ())
    (hv : t.dw ((nthOpd r 0).at x.lane).toNat = v) :
    let c := x.c.emptySrcs [f.srcA 1]
    tretGetBody f x = .ok ⟨x.s, c.putDests
      (regDests c f.dst 0 x.act (.u (loWord v)) 0 ++ regDests c f.dst 1 x.act (.u (hiWord v)) 0), true⟩ := by
  subst hv
  simp only [tretGetBody, ht, hd, hr, bind_ok, if_neg hact, needOpnd_of (decide_eq_true hi), hdead, hp]
  rfl

theorem tretSetBody_ok (ht : x.c.frames.getLast? = some t) (hact : x.act ≠ 0)
    (hr : x.once.peek [f.srcA 1, { f.srcB 2 with zero := false }] = .ok r) (hi : (nthOpd r 0).at x.lane = 1)
    (hdead : x.once.deadReads [f.srcA 1, { f.srcB 2 with zero := false }] = .ok ())
    (hp : x.once.poisonCheck r.flatten = .ok ()) :
    let c := x.c.emptySrcs [f.srcA 1, { f.srcB 2 with zero := false }]
    tretSetBody f x = .ok ⟨x.s,
      { c with frames := c.frames.dropLast ++ [{ t with rpc := pairAt (nthRun r 1) x.lane }] }, true⟩ := by
  simp only [tretSetBody, ht, hr, bind_ok, if_neg hact, needOpnd_of (beq_iff_eq.mpr hi), hdead, hp]
  rfl

/-! SNAP and YIELDPT. -/

theorem snapBody_ok (hm : f.md = 0) (hd : dstCheck x.c f.dst 1 true = .ok ()) (hact : x.act ≠ 0) :
    let on := x.s.snap.progen && x.s.snap.arm
    snapBody f x = .ok ⟨if on then x.s.trigger else x.s, x.writeWord x.c f.dst (if on then x.s.snap.gen + 1 else 0), true⟩ := by
  simp only [snapBody, needInsn_of (beq_iff_eq.mpr hm), hd, bind_ok, if_neg hact]
  rfl

theorem yieldptBody_goes (hm : f.md = 0) (h : x.act = 0 ∨ x.c.yreq = false ∨ x.c.recruit.isSome = true) :
    yieldptBody f x = .ok ⟨x.s, x.c.waitPoint, true⟩ := by
  have hstays : (decide (x.act = 0) || !x.c.yreq || x.c.recruit.isSome) = true := by simpa [or_assoc] using h
  simp only [yieldptBody, needInsn_of (beq_iff_eq.mpr hm), bind_ok, if_pos hstays]
  rfl

theorem yieldptBody_waits (hm : f.md = 0) (hact : x.act ≠ 0) (hy : x.c.yreq = true) (hr : x.c.recruit = none) :
    yieldptBody f x = .ok ⟨x.s, x.c.waitAt (x.waitFor 9 0 0 0 0x110 8 .yielded), true⟩ := by
  have hevict : ¬ (decide (x.act = 0) || !x.c.yreq || x.c.recruit.isSome) = true := by
    rw [decide_eq_false hact, hy, hr]
    decide
  simp only [yieldptBody, needInsn_of (beq_iff_eq.mpr hm), bind_ok, if_neg hevict]
  rfl

end

end Sys2Proof.Machine

open Sys2Proof Sys2Proof.Machine

/-- Settles O19: each instruction by what its body answers under the case's conditions. -/
theorem trapReturnSnapshotAndYieldResult : Obligations.TrapReturnSnapshotAndYieldResult := by
  unfold Obligations.TrapReturnSnapshotAndYieldResult
  refine ⟨fun f s x t hx ht => ⟨?plain, ?skip, ?idle, ?get, ?set⟩, fun f s x hm => ⟨?snap, ?goes, ?waits⟩⟩
  case plain => exact fun hm hact => issue_ok hx (tretBody_leaves false hm ht hact)
  case skip =>
    intro hm hact
    rw [← t.skipLen_skip]
    exact issue_ok hx (tretBody_leaves true hm ht hact)
  case idle => exact fun hm hact => ⟨issue_ok hx (tretBody_idle false hm ht hact), issue_ok hx (tretBody_idle true hm ht hact)⟩
  case get => exact fun r hact hd hr hi hdead hp => issue_ok hx (tretGetBody_ok ht hact hd hr hi hdead hp rfl)
  case set => exact fun r hact hr hi hdead hp => issue_ok hx (tretSetBody_ok ht hact hr hi hdead hp)
  case snap => exact fun hx hd hact => issue_ok hx (snapBody_ok hm hd hact)
  case goes => exact fun hx h => issueW_ends hx (yieldptBody_goes hm h)
  case waits => exact fun hx hact hy hr => issueW_ends hx (yieldptBody_waits hm hact hy hr)
end

section
/-!
PROOFS. Instructions that wait for a number or a barrier: SEQWAIT in its three forms (R175), and the byte-counting barriers' BBINIT,
BBARR and BBWAIT (R180 to R184).
-/

namespace Sys2Proof.Machine

/-! The alignment of one lane's address (R131). -/

theorem lanesWhere_none {w : Nat} {p : Nat → Bool} (h : ∀ l, p l = false) : lanesWhere w p = 0 := by
  unfold lanesWhere
  induction List.range w with
  | nil => rfl
  | cons l ls ih =>
    rw [List.foldl_cons, h l]
    exact ih

theorem aligned_of {x : Cx} {n : Nat} {addr : Nat → Dword} (h : ∀ l, (addr l).toNat % n = 0) : x.aligned n addr = .ok () :=
  if_pos (lanesWhere_none (fun l => by simp [h l]))

/-! An instruction with no lane to act in reads no empty register and consumes no poison (R218, R436). -/

theorem Cx.lanes_idle {x : Cx} (h : x.act = 0) : x.lanes = [] := by
  rw [Cx.lanes, h]
  rfl

theorem emptyRead_idle {x : Cx} (h : x.act = 0) (s : Src) : x.emptyRead s = none := by
  rw [Cx.emptyRead, Cx.lanes_idle h, Cx.emptyAt]
  cases place s.d <;> rfl

theorem deadReads_idle {x : Cx} (h : x.act = 0) (ss : List Src) : x.deadReads ss = .ok () := by
  unfold Cx.deadReads
  induction ss with
  | nil => rfl
  | cons s ss ih =>
    rw [List.forIn_cons, emptyRead_idle h]
    exact ih

theorem poisonCheck_idle {x : Cx} (h : x.act = 0) (os : List Opd) : x.poisonCheck os = .ok () := by
  have hnone : ∀ m : Lanes, lowest (m &&& x.act) = none := fun m => by rw [h]; simp [lowest]
  rw [Cx.poisonCheck, hnone]

theorem fetch_of_peek {x : Cx} {ss : List Src} {r : List (List Opd)} (hr : x.peek ss = .ok r) (hd : x.deadReads ss = .ok ())
    (hp : x.poisonCheck r.flatten = .ok ()) : x.fetch ss = .ok r := by
  obtain ⟨⟨⟩, hcheck, hr⟩ := bind_inv hr
  obtain ⟨⟨⟩, howed, hr⟩ := bind_inv hr
  cases hr
  obtain ⟨⟨⟩, hdead, -⟩ := bind_inv hd
  rw [Cx.fetch, Cx.fetchRaw, hcheck, bind_ok, howed, bind_ok, hdead, bind_ok, pure_bind, hp]
  rfl

theorem Cx.once_idle {x : Cx} (h : x.act = 0) : x.once.act = 0 := if_pos h

theorem fetch_idle {x : Cx} {ss : List Src} {r : List (List Opd)} (h : x.act = 0) (hr : x.peek ss = .ok r) : x.fetch ss = .ok r :=
  fetch_of_peek hr (deadReads_idle h ss) (poisonCheck_idle h _)

/-! SEQWAIT (R175): where it waits, and where it has no lane to act in. -/

section
variable {f : LE} {x : Cx} {r : List (List Opd)}

/-- The crew at a SEQWAIT's wait point, waiting for a number to reach v (R175, R456). -/
def Cx.seqWaits (x : Cx) (f : LE) (srcs : List Src) (v : Word) (a : Dword) (op : WaitOp) : Crew :=
  (x.c.emptySrcs srcs).waitAt (x.waitFor 2 (seqDet f) v a 0x110 (orderScope f) op)

theorem seqChainBody_waits {h : Nat} (hs : orderScope f < 7) (hform : f.fn.toNat % 4 ≠ 3) (hr : x.Reads [f.srcA 1, f.srcB 1] r)
    (hh : ((nthOpd r 0).at x.lane).toNat = h) (hch : (x.s.chainOf x.c.ctx h).isSome = true) :
    seqChainBody f x =
      .ok ⟨x.s, x.seqWaits f [f.srcA 1, f.srcB 1] ((nthOpd r 1).at x.lane) (BitVec.ofNat 64 h) (.seqChain h), true⟩ := by
  obtain ⟨hact, -, hpeek, hdead, hp⟩ := reads_parts hr
  simp only [seqChainBody, needInsn_of (decide_eq_true (And.intro hs hform)), hpeek, bind_ok, if_neg hact, hh,
    needOpnd_of hch, hdead, hp]
  rfl

theorem seqChainBody_idle (hs : orderScope f < 7) (hform : f.fn.toNat % 4 ≠ 3) (hr : x.once.peek [f.srcA 1, f.srcB 1] = .ok r)
    (hact : x.act = 0) : seqChainBody f x = .ok ⟨x.s, (x.c.emptySrcs [f.srcA 1, f.srcB 1]).waitPoint, true⟩ := by
  simp only [seqChainBody, needInsn_of (decide_eq_true (And.intro hs hform)), hr, bind_ok, if_pos hact]
  rfl

theorem seqThawBody_waits (hs : orderScope f < 7) (hr : x.Reads [f.srcB 1] r) :
    seqThawBody f x = .ok ⟨x.s, x.seqWaits f [f.srcB 1] ((nthOpd r 0).at x.lane) 0 .seqThaw, true⟩ := by
  obtain ⟨hact, hfetch⟩ := hr
  simp only [seqThawBody, needInsn_of (decide_eq_true hs), hfetch, bind_ok, if_neg hact]
  rfl

theorem seqThawBody_idle (hs : orderScope f < 7) (hr : x.once.peek [f.srcB 1] = .ok r) (hact : x.act = 0) :
    seqThawBody f x = .ok ⟨x.s, (x.c.emptySrcs [f.srcB 1]).waitPoint, true⟩ := by
  simp only [seqThawBody, needInsn_of (decide_eq_true hs), fetch_idle (Cx.once_idle hact) hr, bind_ok, if_pos hact]
  rfl

theorem seqMemBody_waits {t : State} {a : LaneAcc} {va : Dword} (hs : orderScope f < 7) (hr : x.Reads [f.srcA 2, f.srcB 1] r)
    (hva : pairAt (nthRun r 0) x.lane = va) (hal : va.toNat % 4 = 0) (ht : x.translateAll x.s .load 4 [(x.lane, va)] = .ok (t, [a])) :
    seqMemBody f x = .ok ⟨t, x.seqWaits f [f.srcA 2, f.srcB 1] ((nthOpd r 1).at x.lane) va (.seqMem a), true⟩ := by
  obtain ⟨hact, -, hpeek, hdead, hp⟩ := reads_parts hr
  simp only [seqMemBody, needInsn_of (decide_eq_true hs), hpeek, bind_ok, if_neg hact, hva, aligned_of (fun _ => hal),
    hdead, ht, hp]
  rfl

theorem seqMemBody_idle (hs : orderScope f < 7) (hr : x.once.peek [f.srcA 2, f.srcB 1] = .ok r) (hact : x.act = 0) :
    seqMemBody f x = .ok ⟨x.s, (x.c.emptySrcs [f.srcA 2, f.srcB 1]).waitPoint, true⟩ := by
  simp only [seqMemBody, needInsn_of (decide_eq_true hs), hr, bind_ok, if_pos hact]
  rfl

/-! BBINIT, BBARR and BBWAIT (R182 to R184). -/

theorem barrierBody_ok {rel : Bool} {kind : Nat → SqKind} {t : State × List LaneAcc} {va : Dword}
    (hs : rel = true → orderScope f < 7) (hr : x.Reads [f.srcA 2, f.srcB 1] r) (hS : x.c.cnt cS < 63) (hq : x.c.sq.length < 64)
    (hva : pairAt (nthRun r 0) x.lane = va) (hal : va.toNat % 16 = 0) (ht : x.translateAll x.s .atomic 16 [(x.lane, va)] = .ok t) :
    barrierBody f rel kind x = .ok ⟨t.1, x.queued [f.srcA 2, f.srcB 1] cS (kind ((nthOpd r 1).at x.lane).toNat) t.2 rel
      (if rel then orderScope f else 8), true⟩ := by
  have hscope : (!rel || decide (orderScope f < 7)) = true := by
    cases rel with
    | false => rfl
    | true => exact decide_eq_true (hs rfl)
  obtain ⟨hact, -, hpeek, hdead, hp⟩ := reads_parts hr
  simp only [barrierBody, needInsn_of hscope, hpeek, counterRoom_of hS, queueRoom_of hq, bind_ok, if_neg hact, hva,
    aligned_of (fun _ => hal), hdead, ht, hp]
  rfl

theorem bbwaitBody_waits {t : State × LaneAcc} {va : Dword} (hs : orderScope f < 7) (hd : dstCheck x.c f.dst 1 true = .ok ())
    (hr : x.Reads [f.srcA 2, f.srcB 1] r) (hva : pairAt (nthRun r 0) x.lane = va) (hal : va.toNat % 16 = 0)
    (ht : x.phaseAcc va = .ok t) :
    bbwaitBody f x = .ok ⟨t.1, (x.c.emptySrcs [f.srcA 2, f.srcB 1]).waitAt
      (x.waitFor 3 (orderScope f) ((nthOpd r 1).at x.lane &&& 0xFFFF) va f.dst (orderScope f) (.bbwait t.2)), true⟩ := by
  obtain ⟨hact, -, hpeek, hdead, hp⟩ := reads_parts hr
  simp only [bbwaitBody, needInsn_of (decide_eq_true hs), hd, hpeek, bind_ok, if_neg hact, hva, aligned_of (fun _ => hal),
    hdead, ht, hp]
  rfl

end

theorem barrierStores_of_issue {i : Instr} {opc : Nat} {f : LE} {rel : Bool} {kind : Nat → SqKind}
    (he : ∀ s, exec i s = issue s opc 8 f.g (barrierBody f rel kind)) : BarrierStores i opc f rel kind := by
  intro s x r t hx hs hr hS hq hal ht
  exact (he s).trans (issue_ends hx (barrierBody_ok hs hr hS hq rfl hal ht))

end Sys2Proof.Machine

open Sys2Proof Sys2Proof.Machine

/-- Settles O24: each form of SEQWAIT, and BBWAIT, ends in a wait that is looked at at once; BBINIT and BBARR issue one body. -/
theorem sequenceWaitAndByteBarrierResult : Obligations.SequenceWaitAndByteBarrierResult := by
  unfold Obligations.SequenceWaitAndByteBarrierResult
  refine ⟨fun f s x r hx hs => ?seqwait,
    fun f => ⟨barrierStores_of_issue (fun _ => rfl), barrierStores_of_issue (fun _ => rfl), ?bbwait⟩⟩
  case seqwait =>
    intro waits
    refine ⟨fun hform hr hch => ?chain, fun hr => ?thaw, fun t a hr hal ht => ?mem,
      fun q hact => ⟨fun hform hr => ?chainIdle, fun hr => ?thawIdle, fun hr => ?memIdle⟩⟩
    case chain => exact issueW_ends hx (seqChainBody_waits hs hform hr rfl hch)
    case thaw => exact issueW_ends hx (seqThawBody_waits hs hr)
    case mem => exact issueW_ends hx (seqMemBody_waits hs hr rfl hal ht)
    case chainIdle => exact issueW_ends hx (seqChainBody_idle hs hform hr hact)
    case thawIdle => exact issueW_ends hx (seqThawBody_idle hs hr hact)
    case memIdle => exact issueW_ends hx (seqMemBody_idle hs hr hact)
  case bbwait =>
    intro s x r t hx hs hd hr hal ht
    exact issueW_ends hx (bbwaitBody_waits hs hd hr rfl hal ht)
end

section
/-!
PROOFS. The chains' engine (R157 to R163, R176): what a change of one chain leaves as it was, and the completion of a performed
entry.
-/

namespace Sys2Proof.Machine

/-! A change of one chain. -/

theorem mmod_congr {α : Type} {m : NatMap α} {k : Nat} {v : α} {f g : α → α} (hm : mget m k = some v) (hfg : f v = g v) :
    mmod m k f = mmod m k g := by
  induction m with
  | nil => rfl
  | cons e r ih =>
    unfold mget at hm
    unfold mmod
    split at hm
    · next hj =>
      cases hm
      rw [if_pos hj, if_pos hj, hfg]
    · next hj => rw [if_neg hj, if_neg hj, ih hm]

@[simp] theorem State.modChain_crews (s : State) (h : Nat) (f : Chain → Chain) : (s.modChain h f).crews = s.crews := rfl

theorem State.modChain_same {s : State} {h : Nat} {ch : Chain} (hc : mget s.chains h = some ch) (f : Chain → Chain) :
    mget (s.modChain h f).chains h = some (f ch) := by
  rw [State.modChain, mget_mmod_same, hc]
  rfl

theorem State.modChain_congr {s : State} {h : Nat} {ch : Chain} (hc : mget s.chains h = some ch) {f g : Chain → Chain}
    (hfg : f ch = g ch) : s.modChain h f = s.modChain h g := by
  rw [State.modChain, State.modChain, mmod_congr hc hfg]

theorem State.modChain_ne {k h : Nat} (hk : k ≠ h) (s : State) (f : Chain → Chain) :
    mget (s.modChain h f).chains k = mget s.chains k := mget_mmod_ne _ _ _ _ hk

theorem State.setPhase_same {s : State} {h : Nat} {ch : Chain} {e : Entry} (hc : mget s.chains h = some ch) (he : ch.cur = some e)
    (n : Nat) : mget (s.setPhase h n).chains h = some { ch with cur := some { e with phase := n } } := by
  rw [State.setPhase, State.modChain_same hc, he]
  rfl

/-! What a token's posting and a counter's fall leave as it was (R153, R329). -/

@[simp] theorem State.postToken_chains (s : State) (key tok : Nat) : (s.postToken key tok).chains = s.chains := by
  unfold State.postToken; split <;> rfl
@[simp] theorem State.postToken_crews (s : State) (key tok : Nat) : (s.postToken key tok).crews = s.crews := by
  unfold State.postToken; split <;> rfl
@[simp] theorem State.postToken_ctxs (s : State) (key tok : Nat) : (s.postToken key tok).ctxs = s.ctxs := by
  unfold State.postToken; split <;> rfl

theorem State.postToken_modChain (s : State) (h key tok : Nat) (f : Chain → Chain) :
    (s.modChain h f).postToken key tok = (s.postToken key tok).modChain h f := by
  unfold State.postToken; split <;> rfl

@[simp] theorem State.lowerOp_chains (s : State) (id k op : Nat) : (s.lowerOp id k op).chains = s.chains := by
  unfold State.lowerOp; split <;> rfl
@[simp] theorem State.lowerOp_clusters (s : State) (id k op : Nat) : (s.lowerOp id k op).clusters = s.clusters := by
  unfold State.lowerOp; split <;> rfl

theorem State.lowerOp_crews_congr {s t : State} (h : s.crews = t.crews) (id k op : Nat) :
    (s.lowerOp id k op).crews = (t.lowerOp id k op).crews := by
  unfold State.lowerOp
  rw [h]
  split <;> simp [h]

/-- The X counters of crews' submissions fall (R163, step 5). -/
def State.lowerXops (s : State) (xs : List (Nat × Nat × Word)) : State := xs.foldl (fun s x => s.lowerOp x.1 cX x.2.1) s

@[simp] theorem State.lowerXops_chains (xs : List (Nat × Nat × Word)) (s : State) : (s.lowerXops xs).chains = s.chains := by
  induction xs generalizing s with
  | nil => rfl
  | cons x xs ih => exact (ih _).trans (s.lowerOp_chains x.1 cX x.2.1)

@[simp] theorem State.lowerXops_clusters (xs : List (Nat × Nat × Word)) (s : State) : (s.lowerXops xs).clusters = s.clusters := by
  induction xs generalizing s with
  | nil => rfl
  | cons x xs ih => exact (ih _).trans (s.lowerOp_clusters x.1 cX x.2.1)

theorem State.lowerXops_crews_congr (xs : List (Nat × Nat × Word)) {s t : State} (h : s.crews = t.crews) :
    (s.lowerXops xs).crews = (t.lowerXops xs).crews := by
  induction xs generalizing s t with
  | nil => exact h
  | cons x xs ih => exact ih (State.lowerOp_crews_congr h x.1 cX x.2.1)

/-! The steps of a completion (R163). -/

/-- Chain h runs and stands at a step of the completion of its entry e, with no request open. -/
structure State.Completing (s : State) (h : Nat) (ch : Chain) (e : Entry) : Prop where
  chain : mget s.chains h = some ch
  runs : s.chainRuns ch = true
  cur : ch.cur = some e
  done : e.done = true
  ids : ch.ids = []

section
variable {s : State} {h : Nat} {ch : Chain} {e : Entry}

theorem State.Completing.setPhase (hs : s.Completing h ch e) (n : Nat) :
    (s.setPhase h n).Completing h { ch with cur := some { e with phase := n } } { e with phase := n } :=
  ⟨State.setPhase_same hs.chain hs.cur n, hs.runs, rfl, hs.done, hs.ids⟩

theorem State.Completing.postToken (hs : s.Completing h ch e) (key tok : Nat) : (s.postToken key tok).Completing h ch e where
  chain := by rw [State.postToken_chains, hs.chain]
  runs := by simpa only [State.chainRuns, State.ctxRuns, State.postToken_ctxs] using hs.runs
  cur := hs.cur
  done := hs.done
  ids := hs.ids

theorem State.completeStep_noBarrier (hs : s.Completing h ch e) (hp : e.phase = 1) (hb : e.bbsig = false) :
    s.completeStep h = s.setPhase h 3 := by
  simp [State.completeStep, hs.chain, hs.runs, hs.cur, hs.done, hs.ids, hp, hb]

theorem State.completeStep_token (hs : s.Completing h ch e) (hp : e.phase = 3) :
    s.completeStep h = (s.postToken (clKey ch.ctx (32 * (h / 256) + e.tclu)) e.token).setPhase h 4 := by
  simp [State.completeStep, hs.chain, hs.runs, hs.cur, hs.done, hs.ids, hp]

theorem State.completeStep_seq (hs : s.Completing h ch e) (hp : e.phase = 4) : s.completeStep h = s.chainSeq h ch false := by
  simp [State.completeStep, hs.chain, hs.runs, hs.cur, hs.done, hs.ids, hp]

/-- The chain after a completion: it is free for its next entry (R163, step 5; R176). -/
def Chain.entryLeft (ch : Chain) (n : Word) : Chain :=
  { ch with
    cur := none, buf := [], ids := [], acked := [], units := [], beats := 0, mqGot := 0, back := [], backPhase := 0, step := none,
    xops := ch.xops.filter (fun x => !seqGe n x.2.2), ready := ch.ready.filter (fun k => k != n.toNat),
    nops := ch.nops.filter (fun k => k != n.toNat) }

/-- The state after COMPSEQ of chain h, whose submissions are xs, has risen to n and its entry has left. -/
def State.entryLeft (s : State) (h : Nat) (xs : List (Nat × Nat × Word)) (n : Word) : State :=
  ((s.modChain h (fun c => { c with compseq := n })).lowerXops (xs.filter (fun x => seqGe n x.2.2))).modChain h
    (fun c => c.entryLeft n)

theorem State.entryLeft_same (hc : mget s.chains h = some ch) (xs : List (Nat × Nat × Word)) (n : Word) :
    mget (s.entryLeft h xs n).chains h = some (({ ch with compseq := n } : Chain).entryLeft n) :=
  State.modChain_same ((congrArg (mget · h) (State.lowerXops_chains _ _)).trans (State.modChain_same hc _)) _

theorem State.entryLeft_ne {k : Nat} (hk : k ≠ h) (s : State) (xs : List (Nat × Nat × Word)) (n : Word) :
    mget (s.entryLeft h xs n).chains k = mget s.chains k := by
  rw [State.entryLeft, State.modChain_ne hk, State.lowerXops_chains, State.modChain_ne hk]

theorem State.entryLeft_clusters (s : State) (h : Nat) (xs : List (Nat × Nat × Word)) (n : Word) :
    (s.entryLeft h xs n).clusters = s.clusters := State.lowerXops_clusters _ _

theorem State.entryLeft_crews {s t : State} (hst : s.crews = t.crews) (h : Nat) (xs : List (Nat × Nat × Word)) (n : Word) :
    (s.entryLeft h xs n).crews = (t.lowerXops (xs.filter (fun x => seqGe n x.2.2))).crews := State.lowerXops_crews_congr _ hst

/-- With no SEQADDR, COMPSEQ rises and the chain goes on. -/
theorem State.chainSeq_noAddress (hc : mget s.chains h = some ch) (ha : ch.seqaddr = 0) :
    s.chainSeq h ch false = s.entryLeft h ch.xops (ch.compseq + 1) := by
  have hup : s.modChain h (fun c => { c with compseq := c.compseq + 1 }) =
      s.modChain h (fun c => { c with compseq := ch.compseq + 1 }) := State.modChain_congr hc rfl
  simp only [State.chainSeq, ha, if_true, Bool.false_eq_true, if_false, State.modChain_same hc]
  rw [hup]
  rfl

/-- One turn of a completion that began at COMPSEQ n: it goes on until the entry has left the chain. -/
def State.completeTurn (s : State) (h : Nat) (n : Word) : State :=
  if ((mget s.chains h).map (fun c => c.compseq == n || c.cur.isSome)).getD false then s.completeStep h else s

theorem State.completeEntry_eq (hc : mget s.chains h = some ch) :
    s.completeEntry h = (List.range 6).foldl (fun s _ => s.completeTurn h ch.compseq) s := by
  rw [State.completeEntry, hc]
  rfl

/-- A completion of three steps. -/
theorem State.completeEntry_of_turns {s1 s2 s3 : State} (hc : mget s.chains h = some ch) (h1 : s.completeTurn h ch.compseq = s1)
    (h2 : s1.completeTurn h ch.compseq = s2) (h3 : s2.completeTurn h ch.compseq = s3) (hstay : s3.completeTurn h ch.compseq = s3) :
    s.completeEntry h = s3 := by
  rw [State.completeEntry_eq hc]
  simp only [show List.range 6 = [0, 1, 2, 3, 4, 5] from rfl, List.foldl_cons, List.foldl_nil, h1, h2, h3, hstay]

theorem State.Completing.turn (hs : s.Completing h ch e) (n : Word) : s.completeTurn h n = s.completeStep h := by
  simp [State.completeTurn, hs.chain, hs.cur]

theorem State.completeTurn_left {n : Word} (hc : mget s.chains h = some ch) (hn : ch.compseq ≠ n) (hcur : ch.cur = none) :
    s.completeTurn h n = s := by
  simp [State.completeTurn, hc, hn, hcur]

/-- Where the token has been posted, COMPSEQ rises and the entry leaves. -/
theorem State.Completing.seqTurn (hs : s.Completing h ch e) (hp : e.phase = 4) (ha : ch.seqaddr = 0) (n : Word) :
    s.completeTurn h n = s.entryLeft h ch.xops (ch.compseq + 1) :=
  (hs.turn n).trans ((State.completeStep_seq hs hp).trans (State.chainSeq_noAddress hs.chain ha))

/-- A performed entry with no barrier, of a chain with no SEQADDR, completes at once (R163, R176). -/
theorem State.completeEntry_performed (hs : s.Completing h ch e) (hp : e.phase = 1) (hb : e.bbsig = false) (ha : ch.seqaddr = 0) :
    s.completeEntry h = (((s.setPhase h 3).postToken (clKey ch.ctx (32 * (h / 256) + e.tclu)) e.token).setPhase h 4).entryLeft h
      ch.xops (ch.compseq + 1) := by
  have hs3 := hs.setPhase 3
  have hs4 := (hs3.postToken (clKey ch.ctx (32 * (h / 256) + e.tclu)) e.token).setPhase 4
  refine State.completeEntry_of_turns hs.chain ((hs.turn _).trans (State.completeStep_noBarrier hs hp hb))
    ((hs3.turn _).trans (State.completeStep_token hs3 rfl)) (hs4.seqTurn rfl ha _) ?_
  exact State.completeTurn_left (State.entryLeft_same hs4.chain _ _) (by simp [Chain.entryLeft]) rfl

end

end Sys2Proof.Machine

open Sys2Proof Sys2Proof.Machine

/-- Settles O30: the entry's completion step by step, and what each step leaves as it was. -/
theorem chainEntryCompletes : Obligations.ChainEntryCompletes := by
  unfold Obligations.ChainEntryCompletes
  intro s h ch e hc hr hcur hd hp hb hi ha
  have hs : s.Completing h ch e := ⟨hc, hr, hcur, hd, hi⟩
  have hs4 := ((hs.setPhase 3).postToken (clKey ch.ctx (32 * (h / 256) + e.tclu)) e.token).setPhase 4
  refine ⟨_, _, congrArg Host.Outcome.next (State.completeEntry_performed hs hp hb ha), State.entryLeft_same hs4.chain _ _,
    rfl, rfl, rfl, ?clusters, State.entryLeft_crews ?crews _ _ _, fun k hk => ?others⟩
  case clusters =>
    rw [State.entryLeft_clusters, State.setPhase, State.setPhase, State.postToken_modChain]
    rfl
  case crews => simp [State.setPhase]
  case others =>
    rw [State.entryLeft_ne hk, State.setPhase, State.modChain_ne hk, State.postToken_chains, State.setPhase, State.modChain_ne hk]
end

section
/-!
PROOFS. Submissions to a chain (R170 to R174): CHPUSH, TXFER and QFENCE reserve a slot of a chain with room, CHTAIL publishes.
-/

namespace Sys2Proof.Machine

section
variable {f : LE} {x : Cx} {r : List (List Opd)} {h : Nat} {ch : Chain} {t : State × List LaneAcc}

/-- A chain with room is neither NOCHAIN nor CHDEAD (R159, R171). -/
theorem needChain_of (hch : x.s.chainOf x.c.ctx h = some ch) (hroom : ch.full = false) (fld : Nat) : x.needChain h fld = .ok ch := by
  simp only [Cx.needChain, hch, hroom, Bool.false_and, Bool.not_false, needOpnd_of, bind_ok]
  rfl

theorem chpushBody_ok (hsb : f.sb.toNat ≤ 240) (hd : dstCheck x.c f.dst 1 true = .ok ())
    (hr : x.Reads [f.srcA 1, { f.srcB 16 with dead := false, zero := false }] r) (hS : x.c.cnt cS < 63) (hq : x.c.sq.length < 64)
    (hh : ((nthOpd r 0).at x.lane).toNat = h) (hch : x.s.chainOf x.c.ctx h = some ch) (hroom : ch.full = false)
    (ht : x.translateAll x.s .store 64 [(x.lane, ch.slot ch.wptr)] = .ok t) :
    chpushBody f x = .ok ⟨t.1.reserve x.id h ch, x.writeWord (x.queued [f.srcA 1] cS (.store 2) (t.2.map (fun a =>
      ({ a with bytes := ((nthRun r 1).map (fun o => leBytes 4 (o.at x.lane).toNat)).flatten.map some } : LaneAcc))) false 8)
      f.dst ch.wptr, true⟩ := by
  obtain ⟨hact, -, hpeek, hdead, hp⟩ := reads_parts hr
  simp only [chpushBody, hd, needOpnd_of (decide_eq_true hsb), hpeek, counterRoom_of hS, queueRoom_of hq, bind_ok, if_neg hact, hh,
    needChain_of hch hroom, hdead, hroom, Bool.false_eq_true, if_false, ht, hp]
  rfl

theorem txferBody_ok (hs : orderScope f < 7) (hd : dstCheck x.c f.dst 1 true = .ok ()) (hr : x.Reads [f.srcD 1, f.srcA 2, f.srcB 2] r)
    (hX : x.c.cnt cX < 63) (hq : x.c.sq.length < 64) (hh : ((nthOpd r 0).at x.lane).toNat = h)
    (hch : x.s.chainOf x.c.ctx h = some ch) (hroom : ch.full = false)
    (ht : x.translateAll x.s .store 64 [(x.lane, ch.slot ch.wptr)] = .ok t) :
    txferBody f x = .ok ⟨t.1.reserve x.id h ch, x.writeWord (x.queued [f.srcD 1, f.srcA 2, f.srcB 2] cX (.txfer h ch.wptr.toNat
      (txferEntry (f.fn.getLsbD 0) (pairAt (nthRun r 1) x.lane) (pairAt (nthRun r 2) x.lane))) t.2 true (orderScope f))
      f.dst ch.wptr, true⟩ := by
  obtain ⟨hact, -, hpeek, hdead, hp⟩ := reads_parts hr
  simp only [txferBody, needInsn_of (decide_eq_true hs), hd, hpeek, counterRoom_of hX, queueRoom_of hq, bind_ok, if_neg hact, hh,
    needChain_of hch hroom, hdead, hroom, Bool.false_eq_true, if_false, ht, hp]
  rfl

theorem qfenceBody_ok {mask : BitVec 16} (hs : orderScope f < 7) (hd : dstCheck x.c f.dst 1 true = .ok ())
    (hr : x.Reads [f.srcA 1, f.srcB 1] r) (hX : x.c.cnt cX < 63) (hq : x.c.sq.length < 64)
    (hh : ((nthOpd r 0).at x.lane).toNat = h) (hmask : ((nthOpd r 1).at x.lane).setWidth 16 = mask)
    (hfour : ((List.range 16).filter (fun i => mask.getLsbD i && i != h % 16)).length ≤ 4)
    (hch : x.s.chainOf x.c.ctx h = some ch) (hroom : ch.full = false)
    (ht : x.translateAll x.s .store 64 [(x.lane, ch.slot ch.wptr)] = .ok t) :
    qfenceBody f x = .ok ⟨t.1.reserve x.id h ch, x.writeWord (x.queued [f.srcA 1, f.srcB 1] cX (.qfence h ch.wptr.toNat mask)
      t.2 true (orderScope f)) f.dst ch.wptr, true⟩ := by
  obtain ⟨hact, -, hpeek, hdead, hp⟩ := reads_parts hr
  simp only [qfenceBody, needInsn_of (decide_eq_true hs), hd, hpeek, counterRoom_of hX, queueRoom_of hq, bind_ok, if_neg hact, hh,
    hmask, needOpnd_of (decide_eq_true hfour), needChain_of hch hroom, hdead, hroom, Bool.false_eq_true, if_false, ht, hp]
  rfl

theorem chtailBody_ok (hs : orderScope f < 7) (hr : x.Reads [f.srcA 1] r) (hX : x.c.cnt cX < 63) (hq : x.c.sq.length < 64)
    (hh : ((nthOpd r 0).at x.lane).toNat = h) (hch : (x.s.chainOf x.c.ctx h).isSome = true) :
    chtailBody f x = .ok ⟨x.s, x.queued [f.srcA 1] cX (.chtail h) [] true (orderScope f), true⟩ := by
  obtain ⟨hact, -, hpeek, hdead, hp⟩ := reads_parts hr
  simp only [chtailBody, needInsn_of (decide_eq_true hs), hpeek, counterRoom_of hX, queueRoom_of hq, bind_ok, if_neg hact, hh,
    needOpnd_of hch, hdead, hp]
  rfl

end

end Sys2Proof.Machine

open Sys2Proof Sys2Proof.Machine

/-- Settles O23: with room in the chain, the counter and the queue, each body reaches its queue entry. -/
theorem chainSubmissionResult : Obligations.ChainSubmissionResult := by
  unfold Obligations.ChainSubmissionResult
  refine fun f => ⟨fun hsb => ?chpush, fun hs => ⟨?txfer, ?qfence, ?chtail⟩⟩
  case chpush =>
    intro s x r ch t hx hd hr hS hq h _ hch hroom ht
    exact issueW_ends hx (chpushBody_ok hsb hd hr hS hq rfl hch hroom ht)
  case txfer =>
    intro s x r ch t hx hd hr hX hq h _ hch hroom ht
    exact issueW_ends hx (txferBody_ok hs hd hr hX hq rfl hch hroom ht)
  case qfence =>
    intro s x r ch t hx hd hr hX hq h hfour hch hroom ht
    exact issueW_ends hx (qfenceBody_ok hs hd hr hX hq rfl rfl hfour hch hroom ht)
  case chtail =>
    intro s x r hx hr hX hq hch
    exact issue_ends hx (chtailBody_ok hs hr hX hq rfl hch)
end

section
/-!
PROOFS. The work of a chain's engine (R161, R162, R164 to R168, R178, R185 to R187, R347): its entries begin, a FILL's beat of one
sector of local memory, joins, metadata and an abandoned scale-out transfer.
-/

namespace Sys2Proof.Machine

/-! Entries begin (R161, R162). -/

/-- Chain h runs with no entry in hand, and reads its next entry, published and unmarked, as the bytes bs of a legal one; s1 is the
state after the read. -/
structure State.ReadsEntry (s : State) (h : Nat) (ch : Chain) (s1 : State) (bs : List Byte) : Prop where
  chain : mget s.chains h = some ch
  runs : s.chainRuns ch = true
  cur : ch.cur = none
  ready : ch.ready.contains ch.next.toNat = true
  nops : ch.nops.contains ch.next.toNat = false
  read : s.chainRead h ch (ch.slot ch.next) 64 = (s1, some (bs, false))
  legal : s1.entryOk h (entryOf bs) = true

/-- A COPY's or FILL's entry as it is in hand once its shape records have been read (R162, R166, R167). -/
def Entry.withTile (e : Entry) (ch : Chain) (g : Option Group) (src : Option ShapeRec) (d : ShapeRec) : Entry :=
  { e with src := src, dst := some d, ranks := d.ranks g,
           prog := if ch.back.length = (d.ranks g).length then ch.back else (d.ranks g).map (fun _ => 0),
           count := d.count * etBytes d.etype * (d.ranks g).length }

section
variable {s s1 : State} {h : Nat} {ch : Chain} {bs : List Byte}

theorem State.ReadsEntry.due (hs : s.ReadsEntry h ch s1 bs) :
    (!s.chainRuns ch || ch.cur.isSome || !ch.ready.contains ch.next.toNat) = false := by
  rw [hs.runs, hs.cur, hs.ready]
  rfl

theorem State.beginEntry_nop (hs : s.ReadsEntry h ch s1 bs) (hk : (entryOf bs).kind = 0) :
    s.beginEntry h 0 = s1.setEntry h { entryOf bs with done := true } := by
  simp only [State.beginEntry, hs.chain, hs.due, hs.nops, hs.read, hs.legal, hk, Bool.not_true, Bool.false_eq_true, if_false, ne_eq,
    not_true_eq_false]

theorem State.beginEntry_bbarr (hs : s.ReadsEntry h ch s1 bs) (hk : (entryOf bs).kind = 5) :
    s.beginEntry h 5 = s1.setEntry h { entryOf bs with done := true, count := ((entryOf bs).dws.getD 1 0).toNat } := by
  simp only [State.beginEntry, hs.chain, hs.due, hs.nops, hs.read, hs.legal, hk, Bool.not_true, Bool.false_eq_true, if_false, ne_eq,
    not_true_eq_false]

theorem State.beginEntry_copy {s2 s3 : State} {src d : ShapeRec} (hs : s.ReadsEntry h ch s1 bs) (hk : (entryOf bs).kind = 1)
    (hcoll : (entryOf bs).coll = false) (hsrc : s1.readShape h ch ((entryOf bs).dws.getD 1 0) false = (s2, some src))
    (hd : s2.readShape h ch ((entryOf bs).dws.getD 2 0) true = (s3, some d)) :
    s.beginEntry h 1 = s3.beginTile h ch (entryOf bs) (some src) d ((entryOf bs).dws.getD 2 0) := by
  simp only [State.beginEntry, hs.chain, hs.due, hs.nops, hs.read, hs.legal, hk, hcoll, hsrc, hd, Bool.not_true,
    Bool.false_eq_true, if_false, ne_eq, not_true_eq_false]

theorem State.beginEntry_fill {s2 : State} {d : ShapeRec} (hs : s.ReadsEntry h ch s1 bs) (hk : (entryOf bs).kind = 2)
    (hd : s1.readShape h ch ((entryOf bs).dws.getD 1 0) true = (s2, some d)) :
    s.beginEntry h 2 = s2.beginTile h ch (entryOf bs) none d ((entryOf bs).dws.getD 1 0) := by
  simp only [State.beginEntry, hs.chain, hs.due, hs.nops, hs.read, hs.legal, hk, hd, Bool.not_true, Bool.false_eq_true, if_false, ne_eq,
    not_true_eq_false]

theorem State.beginTile_copy {e : Entry} {src d : ShapeRec} (dva : Dword) (het : src.etype = d.etype) (hn : src.count = d.count)
    (hmax : d.count * etBytes d.etype ≤ 2 ^ 32) (hrop : ropOk false d.rop d.etype = true) :
    s.beginTile h ch e (some src) d dva = s.setEntry h (e.withTile ch (s.groupFor ch.ctx d) (some src) d) := by
  simp only [State.beginTile, het, hn, hrop, beq_self_eq_true, Option.isSome_some, decide_eq_false (Nat.not_lt.mpr hmax)]
  rfl

theorem State.beginTile_fill {e : Entry} {d : ShapeRec} (dva : Dword) (hrop : ropOk false d.rop d.etype = true) :
    s.beginTile h ch e none d dva = s.setEntry h (e.withTile ch (s.groupFor ch.ctx d) none d) := by
  simp only [State.beginTile, hrop]
  rfl

end

/-! A FILL's beat (R166, R186). -/

section
variable {s : State} {h : Nat} {ch : Chain} {e : Entry}

theorem nextRank_one {k n : Nat} (hk : k < n) : nextRank [k] n = some (0, k) := by
  simp [nextRank, hk]

theorem ShapeRec.shift_noGrid {d : ShapeRec} (hg : d.gdim = 0) (g : Option Group) (rank : Nat) : d.shift g rank = 0 := if_pos hg

theorem soRank_noGrid {n : Nat} (hn : n = 0) (g : Option Group) (rank : Nat) : soRank g n rank = none := if_pos hn

theorem State.txeBeat_fill {d : ShapeRec} (hc : mget s.chains h = some ch) (hr : s.chainRuns ch = true) (he : ch.cur = some e)
    (hn : e.done = false) (hk : e.kind = 2) (hd : e.dst = some d) : s.txeBeat h = s.tileBeat h ch e d := by
  simp [State.txeBeat, hc, hr, he, hn, hk, hd]

/-- A unit of bytes that its local home stores is acknowledged at once (R186). -/
theorem State.performUnit_stored {s2 : State} {d : ShapeRec} {i pa : Nat} {u : WUnit} {t : Xlate} (ht : t.tgt = .hbm pa)
    (hreach : s.reach (h / 256) pa = true) (hrop : u.rop = false)
    (hstore : s.homeStore t.owner (maskedCells pa u.bytes) u.poison = .ok s2) :
    s.performUnit h ch d i u t = s2.modChain h (fun c => { c with acked := c.acked ++ [i] }) := by
  simp [State.performUnit, ht, hreach, hrop, hstore]

/-- Chain ch stands before a beat of its FILL e, at element k0 of a tile d of no grid that combines nothing. -/
structure Chain.AtFill (ch : Chain) (e : Entry) (d : ShapeRec) (k0 : Nat) : Prop where
  cur : ch.cur = some e
  src : e.src = none
  dst : e.dst = some d
  grid : d.gdim = 0
  rop : d.rop = 0
  prog : e.prog = [k0]
  more : k0 < d.count
  acked : ch.acked = []
  ids : ch.ids = []

/-- Unit u of chain h's beat is translated to local HBM, at t, which leaves s1, and stored there, which leaves s2. -/
structure State.StoresUnit (s : State) (h : Nat) (ch : Chain) (u : WUnit) (s1 : State) (t : Xlate) (pa : Nat) (s2 : State) : Prop where
  xlate : s.translate (320 + h / 16) ch.ctx u.va .txeWrite = (s1, .ok t)
  tgt : t.tgt = .hbm pa
  reach : s1.reach (h / 256) pa = true
  bytes : u.rop = false
  before : mget s1.chains h = some ch
  store : (s1.modChain h (fun c => { c with units := [u.va] })).homeStore t.owner (maskedCells pa u.bytes) u.poison = .ok s2
  after : mget s2.chains h = some { ch with units := [u.va] }

/-- A beat whose units have all been acknowledged ends (R186). -/
theorem State.beatDone_acked {d : ShapeRec} {k0 : Nat} {us : List Dword} {as : List Nat} (hf : ch.AtFill e d k0)
    (hc : mget s.chains h = some { ch with units := us, acked := as }) (hu : us ≠ []) (hack : ∀ i < us.length, i ∈ as) :
    s.beatDone h = s.modChain h (fun c => c.endBeat 0 (k0 + (beatElems d 0 d.count (d.count - k0) k0).length)) := by
  have hall : (List.range us.length).all (fun i => as.contains i) = true :=
    List.all_eq_true.mpr (fun i hi => List.contains_iff_mem.mpr (hack i (List.mem_range.mp hi)))
  have hu : us.isEmpty = false := by simpa using hu
  simp only [State.beatDone, hc, hf.cur, Option.bind_some, hf.dst, Option.map_some, hf.prog, nextRank_one hf.more,
    ShapeRec.shift_noGrid hf.grid, hu, hf.ids, hall]
  rfl

/-- A FILL's beat of one unit of local memory: it is translated, stored and acknowledged, and the beat ends (R186). -/
theorem State.tileBeat_fill {d : ShapeRec} {k0 pa : Nat} {ks : List Nat} {u : WUnit} {t : Xlate} {s1 s2 : State}
    (hr : s.chainRuns ch = true) (hf : ch.AtFill e d k0) (hks : beatElems d 0 d.count (d.count - k0) k0 = ks)
    (hunits : beatUnits d 0 (fun _ => 0)
      (ks.zip (ks.map (fun _ => (leBytes (etBytes d.etype) (e.dws.getD 2 0).toNat, false)))) [] = [u])
    (hu : s.StoresUnit h ch u s1 t pa s2) :
    s.tileBeat h ch e d = (s2.modChain h (fun c => { c with acked := c.acked ++ [0] })).modChain h
      (fun c => c.endBeat 0 (k0 + ks.length)) := by
  have hdue : [u].zipIdx.filter (fun u => !ch.acked.contains u.2 && !ch.ids.any (fun r => r.2 == u.2)) = [(u, 0)] := by
    rw [hf.acked, hf.ids]
    rfl
  have hgo : ((mget (s1.modChain h (fun c => { c with units := [u.va] })).chains h).map
      (fun c => c.stopped.isSome)).getD true = false := by
    rw [State.modChain_same hu.before]
    simpa [State.chainRuns] using (Bool.and_eq_true_iff.mp hr).2
  have hstored := State.performUnit_stored (s := s1.modChain h (fun c => { c with units := [u.va] })) (ch := ch) (d := d) (i := 0)
    hu.tgt hu.reach hu.bytes hu.store
  have hdone := State.beatDone_acked hf (State.modChain_same hu.after (fun c => { c with acked := c.acked ++ [0] }))
    (List.cons_ne_nil _ _) (by simp)
  rw [hks] at hdone
  simp only [State.tileBeat, hf.prog, nextRank_one hf.more, ShapeRec.shift_noGrid hf.grid, hf.src, hks, hunits, soRank_noGrid hf.grid,
    hf.rop, if_true, hdue, State.unitXlate, List.foldl_cons, List.foldl_nil, hu.xlate, List.nil_append, List.zip_cons_cons,
    List.zip_nil_right, List.map_cons, List.map_nil, hgo, Bool.false_eq_true, if_false, hstored, hdone]

end

/-! Joins, metadata and scale-out (R178, R185, R187, R347). -/

section
variable {s : State} {h : Nat} {ch : Chain} {e : Entry}

/-- A chain with an entry in hand begins none. -/
theorem State.beginEntry_busy (hc : mget s.chains h = some ch) (he : ch.cur = some e) (kind : Nat) : s.beginEntry h kind = s := by
  simp [State.beginEntry, hc, he]

/-- Chain h's join with the chain and number that a pair names has been reached: the chain is of its die and context (R178). -/
def State.Joined (s : State) (h : Nat) (ch : Chain) (p : Dword) : Prop :=
  bits p 0 9 / 256 = h / 256 ∧ ∃ c, mget s.chains (bits p 0 9) = some c ∧ c.ctx = ch.ctx ∧
    seqGe c.compseq (BitVec.ofNat 32 (bits p 32 32)) = true

/-- The pairs of a QFENCE entry that name another chain. -/
def Entry.joins (e : Entry) (h : Nat) : List Dword := ((e.dws.drop 1).take 4).filter (fun p => p.getLsbD 31 && bits p 0 9 != h)

theorem Entry.mem_joins {p : Dword} : p ∈ e.joins h ↔ p ∈ (e.dws.drop 1).take 4 ∧ p.getLsbD 31 = true ∧ bits p 0 9 ≠ h := by
  simp only [Entry.joins, List.mem_filter, Bool.and_eq_true, bne_iff_ne]

theorem State.joinEntry_joined (hc : mget s.chains h = some ch) (hr : s.chainRuns ch = true) (he : ch.cur = some e)
    (hn : e.done = false) (hk : e.kind = 3) (hjoin : ∀ p ∈ e.joins h, s.Joined h ch p) :
    s.joinEntry h = s.setEntry h { e with done := true } := by
  have hbound : (e.joins h).any (fun p => bits p 0 9 / 256 != h / 256 ||
      !((mget s.chains (bits p 0 9)).map (fun c => c.ctx == ch.ctx)).getD false) = false := by
    refine List.any_eq_false.mpr (fun p hp => ?_)
    obtain ⟨hdie, c, hc, hctx, -⟩ := hjoin p hp
    simp [hdie, hc, hctx]
  have hreached : (e.joins h).all (fun p => ((mget s.chains (bits p 0 9)).map (fun c =>
      seqGe c.compseq (BitVec.ofNat 32 (bits p 32 32)))).getD false) = true := by
    refine List.all_eq_true.mpr (fun p hp => ?_)
    obtain ⟨-, c, hc, -, hseq⟩ := hjoin p hp
    simp [hc, hseq]
  rw [Entry.joins] at hbound hreached
  simp only [State.joinEntry, State.beginEntry_busy hc he, hc, he, hr, hk, hn, hbound, hreached]
  rfl

theorem State.mqfillEntry_fills {s2 : State} {bs : List Byte} {p : Bool} {d2 : Dword} {key q : Nat}
    (hc : mget s.chains h = some ch) (hr : s.chainRuns ch = true) (he : ch.cur = some e) (hn : e.done = false) (hk : e.kind = 4)
    (hd2 : e.dws.getD 2 0 = d2) (hkey : clKey ch.ctx (32 * (h / 256) + bits d2 16 5) = key) (hq : bits d2 22 2 = q)
    (hmore : ch.mqGot < bits d2 0 16) (hroom : (mgetD (s.clus key).mq q []).length < 32)
    (hread : s.chainRead h ch (e.dws.getD 1 0 + BitVec.ofNat 64 (64 * ch.mqGot)) 64 = (s2, some (bs, p))) :
    s.mqfillEntry h = (s2.modClus key (fun k =>
        { k with mq := mput k.mq q (mput (mgetD k.mq q []) (mgetD k.mqIn q 0) bs),
                 mqIn := mput k.mqIn q (mgetD k.mqIn q 0 + 1) })).modChain h
        (fun c => { c with mqGot := c.mqGot + 1, buf := [], cur := c.cur.map (fun e =>
          { e with done := decide (bits d2 0 16 ≤ c.mqGot + 1) }) }) := by
  unfold State.mqfillEntry
  simp only [State.beginEntry_busy hc he, hc, he, hr, hk, hn, hd2, hkey, hq, if_neg (Nat.not_le.mpr hmore),
    if_neg (Nat.not_le.mpr hroom), hread]
  rfl

end

end Sys2Proof.Machine

open Sys2Proof Sys2Proof.Machine

/-- Settles O29: an entry in hand as its kind's rule gives, and one step of work of each kind. -/
theorem chainEntryBeginsAndWorks : Obligations.ChainEntryBeginsAndWorks := by
  unfold Obligations.ChainEntryBeginsAndWorks
  refine ⟨fun s s1 h ch bs hc hr hcur hready hnops hread hok => ?begins, fun s h ch e hc hr hcur hn => ?works⟩
  case begins =>
    intro e tile
    have hs : s.ReadsEntry h ch s1 bs := ⟨hc, hr, hcur, hready, hnops, hread, hok⟩
    refine ⟨fun hk => ?nop, fun hk => ?bbarr, fun s2 s3 src d hk hcoll hsrc hd het hcount hmax hrop hg => ?copy,
      fun s2 d hk hd hrop hg => ?fill⟩
    case nop => exact congrArg Host.Outcome.next (State.beginEntry_nop hs hk)
    case bbarr => exact congrArg Host.Outcome.next (State.beginEntry_bbarr hs hk)
    case copy =>
      have hb := (State.beginEntry_copy hs hk hcoll hsrc hd).trans (State.beginTile_copy _ het hcount hmax hrop)
      rw [hg] at hb
      exact congrArg Host.Outcome.next hb
    case fill =>
      have hb := (State.beginEntry_fill hs hk hd).trans (State.beginTile_fill _ hrop)
      rw [hg] at hb
      exact congrArg (fun t => Host.Outcome.next (t.txeBeat h)) hb
  case works =>
    refine ⟨?beat, fun hk hjoin => ?join, fun s2 bs p hk => ?mqfill, fun r hreq => ?abandon⟩
    case beat =>
      intro d k0 u t s1 s2 pa hk hsrc hd hg hrop _ hp hk0 hack hi ks hunits hx ht hreach hurop hc1 hstore hc2
      exact congrArg Host.Outcome.next ((State.txeBeat_fill hc hr hcur hn hk hd).trans
        (State.tileBeat_fill hr ⟨hcur, hsrc, hd, hg, hrop, hp, hk0, hack, hi⟩ rfl hunits ⟨hx, ht, hreach, hurop, hc1, hstore, hc2⟩))
    case join =>
      refine congrArg Host.Outcome.next (State.joinEntry_joined hc hr hcur hn hk (fun p hp => ?_))
      obtain ⟨hmem, hset, hother⟩ := Entry.mem_joins.mp hp
      exact hjoin p hmem hset hother
    case mqfill =>
      intro d2 key q hmore hroom hread
      exact congrArg Host.Outcome.next (State.mqfillEntry_fills hc hr hcur hn hk rfl rfl rfl hmore hroom hread)
    case abandon =>
      show execScaleOutAbandon h s = _
      rw [execScaleOutAbandon, hreq]
end

section
/-!
PROOFS. The ordering instructions (R196 to R201): ACQ, REL and FENCE.
-/

namespace Sys2Proof.Machine

section
variable {f : LE} {x : Cx}

/-- With no lane to act in, the body of an ordering instruction of a legal scope leaves the crew as it is, whatever it does
where a lane acts. -/
theorem orderBody_idle {rest : Iss Rsl} (hs : orderScope f < 7) (hact : x.act = 0) :
    (needInsn (decide (orderScope f < 7)) >>= fun _ => if x.act = 0 then return { s := x.s, c := x.c, adv := true } else rest) =
      .ok ⟨x.s, x.c, true⟩ := by
  rw [needInsn_of (decide_eq_true hs), bind_ok, if_pos hact]
  rfl

/-! What the bodies answer where a lane acts. -/

theorem acqBody_acts (hs : orderScope f < 7) (hact : x.act ≠ 0) :
    let r := acquireHold x.s x.c (!f.md.getLsbD 3 && x.s.scopeWide x.c (orderScope f))
    acqBody f x = .ok ⟨r.1, r.2, true⟩ := by
  simp only [acqBody, needInsn_of (decide_eq_true hs), bind_ok, if_neg hact]
  rfl

theorem relBody_acts (hs : orderScope f < 7) (hact : x.act ≠ 0) (hS : x.c.cnt cS < 63) (hq : x.c.sq.length < 64) :
    relBody f x = .ok ⟨x.s, (x.c.raise cS x.op).enqueue x.op x.p.pc (.rel (f.md.getLsbD 3)) [] true (orderScope f), true⟩ := by
  simp only [relBody, needInsn_of (decide_eq_true hs), counterRoom_of hS, queueRoom_of hq, bind_ok, if_neg hact]
  rfl

/-- The run that a FENCE begins: nothing has issued past it and nothing has conflicted with it (R200, R201). -/
def Cx.fenceRun (x : Cx) (f : LE) : FenceRun :=
  { op := x.op, ns := f.md.getLsbD 3 || x.c.isHelper, scope := orderScope f, pc := x.p.pc, issued := 0, lines := [],
    conflict := false, rollbacks := 0 }

theorem fenceBody_acts (hs : orderScope f < 7) (hact : x.act ≠ 0) (hS : x.c.cnt cS < 63) (hq : x.c.sq.length < 64) :
    fenceBody f x = .ok ⟨if x.s.scopeWide x.c (orderScope f) then x.s.dropCleanWhere x.c.core (fun _ => true) else x.s,
      { ((x.c.raise cS x.op).enqueue x.op x.p.pc .fence [] true (orderScope f)) with fence := some (x.fenceRun f) }, true⟩ := by
  simp only [fenceBody, needInsn_of (decide_eq_true hs), counterRoom_of hS, queueRoom_of hq, bind_ok, if_neg hact]
  rfl

end

/-- A FENCE whose body answers ends as any instruction does, and the crew it leaves is kept for a rollback (R203). -/
theorem exec_fence {f : LE} {s : State} {x : Cx} {t : State} {c : Crew} (hx : s.issueCx 0xA0 8 f.g = some x)
    (hb : fenceBody f x = .ok ⟨t, c, true⟩) : exec (.fence f) s = .next ((x.ends t c).takeShot s.focus s.opSeq) := by
  show execFence f s = _
  rw [execFence, issue_ends hx hb]

end Sys2Proof.Machine

open Sys2Proof Sys2Proof.Machine

/-- Settles O15: each instruction by what its body answers with and without a lane to act in; FENCE also keeps the crew it
leaves. -/
theorem orderingInstructionsIssue : Obligations.OrderingInstructionsIssue := by
  unfold Obligations.OrderingInstructionsIssue
  refine fun f s x => ⟨?acq, ?rel, ?fence, ?acqIdle, ?relIdle, ?fenceIdle⟩
  case acq => exact fun hx hs hact => issue_ends hx (acqBody_acts hs hact)
  case rel => exact fun hx hs hact hS hq => issue_ends hx (relBody_acts hs hact hS hq)
  case fence =>
    intro hx hs hact hS hq
    exact ⟨x.fenceRun f, rfl, rfl, rfl, rfl, rfl, rfl, rfl, rfl, exec_fence hx (fenceBody_acts hs hact hS hq)⟩
  case acqIdle => exact fun hx hs hact => issue_ends hx (orderBody_idle hs hact)
  case relIdle => exact fun hx hs hact => issue_ends hx (orderBody_idle hs hact)
  case fenceIdle => exact fun hx hs hact => exec_fence hx (orderBody_idle hs hact)
end

section
/-!
PROOFS. What a write of a register leaves in it, by the lanes that act (R212, R215).
-/

namespace Sys2Proof

theorem mget_mdel_of_none {α : Type} {m : NatMap α} {k : Nat} (h : mget m k = none) : mget (mdel m k) k = none := by
  induction m with
  | nil => rfl
  | cons e m ih =>
    obtain ⟨j, v⟩ := e
    by_cases hj : j = k
    · simp [mget, hj] at h
    · simp only [mget, mdel, if_neg hj] at h ⊢
      exact ih h

end Sys2Proof

namespace Sys2Proof.Machine

theorem mget_putReg_ne (m : NatMap Reg) {n k : Nat} (r : Option Reg) (h : k ≠ n) : mget (putReg m n r) k = mget m k := by
  cases r with
  | none => exact mget_mdel_ne m n k h
  | some r => exact mget_mput_ne m n k r h

/-- A register that is put is read back; one that is to be empty has to be empty before. -/
theorem mget_putReg_same {m : NatMap Reg} {n : Nat} {r : Option Reg} (h : r = none → mget m n = none) :
    mget (putReg m n r) n = r := by
  cases r with
  | none => exact mget_mdel_of_none (h rfl)
  | some r => exact mget_mput_same m n r

theorem normShape_at {w l : Nat} (sh : Shape) (h : l < w) : (normShape w sh).at l = sh.at l := by
  unfold normShape
  split
  · next hw =>
    obtain rfl : l = 0 := by omega
    rfl
  · rfl

/-! The rule of R215: none, all or some of the crew's lanes act. -/

/-- The words and tag of a register before a write, an empty one counting as U zero (R215). -/
def shapeBefore (old : Option Reg) : Shape := (old.map (·.shape)).getD (.u 0)

theorem shapeBefore_at (old : Option Reg) (l : Nat) : (shapeBefore old).at l = regAt old l := by
  cases old <;> rfl

/-- The word of a lane after a write in some lanes: the result's where the lane acts, else what the register held. -/
def wordAfter (old : Option Reg) (act : Lanes) (sh : Shape) (l : Nat) : Word :=
  if act.getLsbD l then sh.at l else regAt old l

/-- What a register holds after a write in some lanes: the natural shape where it held that already, else those words. -/
def shapeAfter (w : Nat) (old : Option Reg) (act : Lanes) (sh : Shape) : Shape :=
  if shapeBefore old = normShape w sh then normShape w sh else normShape w (gen w (wordAfter old act sh))

section
variable {w : Nat} {old : Option Reg} {live act : Lanes} {sh : Shape} {poison : Lanes}

theorem writeShape_idle (h : act = 0) : writeShape w old live act sh poison = old := if_pos h

theorem writeShape_all (hact : act ≠ 0) (hall : live &&& ~~~act = 0) :
    ∃ r, writeShape w old live act sh poison = some r ∧ r.shape = normShape w sh := by
  rw [writeShape, if_neg hact, if_pos hall]
  exact ⟨_, rfl, rfl⟩

theorem writeShape_some (hact : act ≠ 0) (hsome : live &&& ~~~act ≠ 0) :
    ∃ r, writeShape w old live act sh poison = some r ∧
      r.shape = shapeAfter w old act sh := by
  have hold : (old.getD { shape := .u 0, poison := 0 }).shape = shapeBefore old := by cases old <;> rfl
  simp only [writeShape, shapeAfter, if_neg hact, if_neg hsome, hold]
  split
  · next hsame => exact ⟨_, rfl, hsame⟩
  · simp only [shapeBefore_at]
    exact ⟨_, rfl, rfl⟩

theorem shapeAfter_at {l : Nat} (hl : l < w) : (shapeAfter w old act sh).at l = wordAfter old act sh l := by
  unfold shapeAfter
  split
  · next hsame =>
    have hbefore : regAt old l = sh.at l := by rw [← shapeBefore_at, hsame, normShape_at sh hl]
    rw [normShape_at sh hl, wordAfter, hbefore, ite_self]
  · exact normShape_gen_at w l _ hl

theorem shapeAfter_same (h : shapeBefore old = normShape w sh) : shapeAfter w old act sh = normShape w sh := if_pos h

theorem shapeAfter_isG (h : shapeBefore old ≠ normShape w sh) (hw : 1 < w) : ∃ ws, shapeAfter w old act sh = .g ws := by
  rw [shapeAfter, if_neg h]
  exact normShape_gen_isG _ hw

/-- Only a write in no lane, to an empty register, leaves a register empty. -/
theorem writeShape_none (h : writeShape w old live act sh poison = none) : old = none := by
  by_cases hact : act = 0
  · rwa [writeShape_idle hact] at h
  · by_cases hall : live &&& ~~~act = 0
    · obtain ⟨r, hr, -⟩ := writeShape_all (w := w) (old := old) (sh := sh) (poison := poison) hact hall
      simp [hr] at h
    · obtain ⟨r, hr, -⟩ := writeShape_some (w := w) (old := old) (sh := sh) (poison := poison) hact hall
      simp [hr] at h

end

@[simp] theorem Crew.writeReg_reg_same (c : Crew) (n : Nat) (act : Lanes) (sh : Shape) (poison : Lanes) :
    mget (c.writeReg n act sh poison).regs n = writeShape c.w (mget c.regs n) c.live act sh poison :=
  mget_putReg_same writeShape_none

theorem Crew.writeReg_reg_ne (c : Crew) {n k : Nat} (act : Lanes) (sh : Shape) (poison : Lanes) (h : k ≠ n) :
    mget (c.writeReg n act sh poison).regs k = mget c.regs k := mget_putReg_ne _ _ h

end Sys2Proof.Machine

open Sys2Proof Sys2Proof.Machine

/-- Settles O54: R215's three cases, each by what writeShape answers in it. -/
theorem registerWriteFollowsLanes : Obligations.RegisterWriteFollowsLanes := by
  unfold Obligations.RegisterWriteFollowsLanes
  intro c n act sh poison _ old new
  have hnew : new = writeShape c.w old c.live act sh poison := c.writeReg_reg_same n act sh poison
  refine ⟨fun k hk => c.writeReg_reg_ne act sh poison hk, fun hact => ?idle, fun hact hall => ?all, fun hact hsome => ?some⟩
  case idle => rw [hnew, writeShape_idle hact]
  case all => exact hnew ▸ writeShape_all hact hall
  case some =>
    obtain ⟨r, hr, hshape⟩ := writeShape_some (w := c.w) (old := old) (sh := sh) (poison := poison) hact hsome
    exact ⟨r, hnew.trans hr, fun l hl => hshape ▸ shapeAfter_at hl, fun hsame => hshape ▸ shapeAfter_same hsame,
      fun hother hw => hshape ▸ shapeAfter_isG hother hw⟩
end

section
/-!
PROOFS. Carries, selection, comparisons and predicates: IADDC and ISUBB (R250), ICMP (R254), SEL (R255), PLOP (R256) and PMOV
(R257).
-/

namespace Sys2Proof.Machine

section
variable {f : L3} {x : Cx} {r : List (List Opd)}

/-! IADDC and ISUBB: the exact integer, which the destination holds modulo 2^32 and whose range gives the carry out. -/

/-- A + B + carry in of IADDC, A − B − carry in of ISUBB (R250). -/
def carrySum (sub : Bool) (f : L3) (x : Cx) (r : List (List Opd)) (l : Nat) : Int :=
  if sub then (laneVal (nthRun r 0) 32 l : Int) - laneVal (nthRun r 1) 32 l - carryIn x.c f.mod6.toNat l
  else (laneVal (nthRun r 0) 32 l : Int) + laneVal (nthRun r 1) 32 l + carryIn x.c f.mod6.toNat l

/-- The carry or borrow out of that integer (R250). -/
def carryOut (sub : Bool) (v : Int) : Bool := if sub then decide (v < 0) else decide ((2 : Int) ^ 32 ≤ v)

theorem addcBody_ok {sub : Bool} {opc : Nat} (hl : intLegal opc f.mod6 = true) (hd : dstCheck x.c f.dst 1 true = .ok ())
    (ho : x.c.owed (.pred (f.mod6.toNat % 16)) = false) (hr : x.fetch (srcsAB f 1 1 none) = .ok r) :
    ∃ u, let o := x.writeResult f.dst f.ocw (some 0) (srcsAB f 1 1 none) [uniIf x u (fun l => wordI (carrySum sub f x r l))]
      addcBody sub opc f x = .ok ⟨o.s, (o.c.supersede (.pred (f.mod6.toNat % 16)) x.act).writePred (f.mod6.toNat % 16) x.act
        (lanesWhere x.c.w (fun l => carryOut sub (carrySum sub f x r l))), o.adv⟩ := by
  refine ⟨r.flatten.all (·.isU) && (f.mod6.toNat / 16 != 0 || x.predUni (f.mod6.toNat % 16)), ?_⟩
  simp only [addcBody, needInsn_of hl, hd, ho, needIssue_of, Bool.not_false, hr, bind_ok]
  rfl

theorem wordI_add (a b c : Nat) : wordI ((a : Int) + b + c) = BitVec.ofNat 32 (a + b + c) := by
  rw [wordI, ← Int.natCast_add, ← Int.natCast_add, BitVec.ofInt_natCast]

theorem wordI_sub (a b c : Nat) : wordI ((a : Int) - b - c) = BitVec.ofNat 32 a - BitVec.ofNat 32 (b + c) := by
  rw [wordI, Int.sub_sub, ← Int.natCast_add, Int.sub_eq_add_neg, BitVec.ofInt_add, BitVec.ofInt_neg, BitVec.ofInt_natCast,
    BitVec.ofInt_natCast, BitVec.sub_eq_add_neg]

theorem carryOut_add (a b c : Nat) : carryOut false ((a : Int) + b + c) = decide (2 ^ 32 ≤ a + b + c) :=
  decide_eq_decide.mpr (by omega)

theorem carryOut_sub (a b c : Nat) : carryOut true ((a : Int) - b - c) = decide (a < b + c) :=
  decide_eq_decide.mpr (by omega)

/-! SEL. -/

/-- The word of register i that SEL gives a lane (R255). -/
def selWord (f : L3) (x : Cx) (r : List (List Opd)) (i l : Nat) : Word :=
  (if (x.c.pred (f.mod6.toNat % 16)).getLsbD l != f.mod6.getLsbD 4 then (nthRun r 0).getD i ⟨.u 0, 0⟩
    else (nthRun r 1).getD i ⟨.u 0, 0⟩).at l

theorem selBody_ok {k : Nat} (hk : (if f.mod6.getLsbD 5 then 2 else 1) = k) (hl : intLegal 0x1F f.mod6 = true)
    (hd : dstCheck x.c f.dst k true = .ok ()) (ho : x.c.owed (.pred (f.mod6.toNat % 16)) = false)
    (hr : x.fetch (srcsAB f k k none) = .ok r) :
    ∃ u, selBody f x = .ok (x.writeResult f.dst f.ocw (some 0) (srcsAB f k k none)
      ((List.range k).map (fun i => uniIf x u (selWord f x r i)))) := by
  refine ⟨r.flatten.all (·.isU) && (x.predUni (f.mod6.toNat % 16) ||
    ((nthRun r 0).map (·.at 0)) == ((nthRun r 1).map (·.at 0))), ?_⟩
  have hword : ∀ i, selWord f x r i = fun l => if (x.c.pred (f.mod6.toNat % 16)).getLsbD l != f.mod6.getLsbD 4
      then ((nthRun r 0).getD i ⟨.u 0, 0⟩).at l else ((nthRun r 1).getD i ⟨.u 0, 0⟩).at l :=
    fun i => funext fun l => apply_ite (Opd.at · l) ..
  simp only [selBody, hk, needInsn_of hl, hd, ho, needIssue_of, Bool.not_false, hr, bind_ok, hword]
  rfl

/-! Comparisons: to a predicate, or to a register. -/

section
variable {legal : Bool} {k latch : Nat} {cond : List (List Opd) → Nat → Bool}

theorem cmpBody_pred {n : Nat} (hl : legal = true) (hn : predOf f.dst = some n) (hr : x.fetch (srcsAB f k k none) = .ok r) :
    cmpBody legal f k latch cond x = .ok (x.writePredResult n latch (srcsAB f k k none) (r.flatten.all (·.isU)) (cond r)) := by
  simp only [cmpBody, needInsn_of hl, hn, hr, bind_ok]
  rfl

theorem cmpBody_reg (hl : legal = true) (hn : predOf f.dst = none) (hd : dstCheck x.c f.dst 1 true = .ok ())
    (hr : x.fetch (srcsAB f k k none) = .ok r) :
    cmpBody legal f k latch cond x = .ok (x.writeResult f.dst f.ocw (some latch) (srcsAB f k k none)
      [uniIf x (r.flatten.all (·.isU)) (fun l => if cond r l then 0xFFFFFFFF else 0)]) := by
  simp only [cmpBody, needInsn_of hl, hn, hd, hr, bind_ok]
  rfl

end

/-! Predicate operands, PLOP and PMOV. -/

theorem predSrc_of_predOf {d : Desig} {n : Nat} (h : predOf d = some n) (zero : Bool) (fld : Nat) :
    predSrc d zero fld = .ok (some n) := by
  unfold predOf at h
  split at h
  · next hp =>
    cases h
    simp only [predSrc, hp]
  · cases h

theorem plopBody_ok {d : Nat} {a b : Option Nat} (hl : intLegal 0x21 f.mod6 = true) (hd : predOf f.dst = some d)
    (ha : predSrc f.sa true 1 = .ok a) (hb : predSrc f.sb true 2 = .ok b) (hoa : x.predOwed a = false)
    (hob : x.predOwed b = false) :
    plopBody f x = .ok (x.writePredResult d 0 [] (x.predSame a f.xa.toNat && x.predSame b f.xb.toNat) (fun l =>
      f.mod6.getLsbD ((if x.predBit a f.xa.toNat l then 2 else 0) + (if x.predBit b f.xb.toNat l then 1 else 0)))) := by
  simp only [plopBody, needInsn_of hl, predSrc_of_predOf hd, ha, hb, hoa, hob, Bool.not_false, Bool.and_self, needIssue_of,
    bind_ok]
  rfl

/-- PMOV to a word: 1 or 0 by the predicate's bit behind the pattern (R257). -/
theorem pmovBody_word {a : Nat} (hm : f.mod6 = 0) (hd : dstCheck x.c f.dst 1 true = .ok ()) (ha : predOf f.sa = some a)
    (ho : x.c.owed (.pred a) = false) :
    pmovBody f x = .ok (x.writeResult f.dst f.ocw (some 0) []
      [uniIf x (x.predUni a) (fun l => if x.predBit (some a) f.xa.toNat l then 1 else 0)]) := by
  simp only [pmovBody, hm, hd, predSrc_of_predOf ha, Cx.predOwed, ho, bind_ok]
  rfl

/-- PMOV to a pair: the predicate's live lanes (R257). -/
theorem pmovBody_pair {a : Nat} (hm : f.mod6 = 1) (hd : dstCheck x.c f.dst 2 true = .ok ()) (ha : predOf f.sa = some a)
    (ho : x.c.owed (.pred a) = false) :
    pmovBody f x = .ok (x.writeResult f.dst f.ocw (some 0) []
      [.u (loWord (x.c.pred a &&& x.c.live)), .u (hiWord (x.c.pred a &&& x.c.live))]) := by
  simp only [pmovBody, hm, hd, predSrc_of_predOf ha, Cx.predOwed, ho, bind_ok]
  rfl

/-- PMOV of words to a predicate: whether each is not 0 (R257). -/
theorem pmovBody_nonzero {d : Nat} (hm : f.mod6 = 2) (hd : predOf f.dst = some d) (hr : x.fetch [f.srcA] = .ok r) :
    pmovBody f x = .ok (x.writePredResult d 0 [f.srcA] (nthOpd r 0).isU (fun l => (nthOpd r 0).at l != 0)) := by
  simp only [pmovBody, hm, predSrc_of_predOf hd, hr, bind_ok]
  rfl

/-- PMOV of a mask to a predicate: the bits of the pair that the operand lane holds (R257). -/
theorem pmovBody_mask {d : Nat} (hm : f.mod6 = 3) (hd : predOf f.dst = some d)
    (hr : x.once.fetch [{ f.srcA with k := 2 }] = .ok r) :
    pmovBody f x = .ok (x.writePredResult d 0 [{ f.srcA with k := 2 }] ((nthRun r 0).all (·.isU))
      (fun l => (pairAt (nthRun r 0) x.lane).getLsbD l)) := by
  simp only [pmovBody, hm, predSrc_of_predOf hd, hr, bind_ok]
  rfl

end

end Sys2Proof.Machine

open Sys2Proof Sys2Proof.Machine

/-- Settles O2: each instruction by what its body answers; a result that may be U or G holds its words in the acting lanes
either way. -/
theorem carrySelectionAndPredicateResult : Obligations.CarrySelectionAndPredicateResult := by
  unfold Obligations.CarrySelectionAndPredicateResult
  refine ⟨fun f s => ⟨?iaddc, ?isubb, ?sel⟩, fun f s => ⟨?icmpPred, ?icmpReg, ?plop, ?word, ?pair, ?nonzero, ?mask⟩⟩
  case iaddc =>
    intro x r hx hl hd ho hr v
    obtain ⟨u, hbody⟩ := addcBody_ok (sub := false) hl hd ho hr
    simp only [carrySum, Bool.false_eq_true, if_false, wordI_add, carryOut_add] at hbody
    exact ⟨_, uniIf_onLanes x u _, issue_ok hx hbody⟩
  case isubb =>
    intro x r hx hl hd ho hr a b
    obtain ⟨u, hbody⟩ := addcBody_ok (sub := true) hl hd ho hr
    simp only [carrySum, if_true, wordI_sub, carryOut_sub] at hbody
    exact ⟨_, uniIf_onLanes x u _, issue_ok hx hbody⟩
  case sel =>
    intro x r hx hl hd ho hr
    obtain ⟨u, hbody⟩ := selBody_ok rfl hl hd ho hr
    refine ⟨_, by rw [List.length_map, List.length_range], fun i hi => ?_, issue_ok hx hbody⟩
    rw [List.length_map, List.length_range] at hi
    rw [getD_map_range _ _ _ _ hi]
    exact uniIf_onLanes x u (selWord f x r i)
  case icmpPred => exact fun x r n hx hl hn hr => ⟨_, issue_ok hx (cmpBody_pred hl hn hr)⟩
  case icmpReg => exact fun x r hx hl hn hd hr => ⟨_, uniIf_onLanes x _ _, issue_ok hx (cmpBody_reg hl hn hd hr)⟩
  case plop => exact fun x d a b hx hl hd ha hb hoa hob => ⟨_, issue_ok hx (plopBody_ok hl hd ha hb hoa hob)⟩
  case word => exact fun x a hx hm hd ha ho => ⟨_, uniIf_onLanes x _ _, issue_ok hx (pmovBody_word hm hd ha ho)⟩
  case pair => exact fun x a hx hm hd ha ho => issue_ok hx (pmovBody_pair hm hd ha ho)
  case nonzero => exact fun x d r hx hm hd hr => ⟨_, issue_ok hx (pmovBody_nonzero hm hd hr)⟩
  case mask => exact fun x d r hx hm hd hr => issue_ok hx (pmovBody_mask hm hd hr)
end

section
/-!
PROOFS. The integer, logic, shift, bit-field and address instructions (R248 to R253, R258 to R265): the words that each form's
result holds in every lane, its affine case included.
-/

namespace Sys2Proof.Machine

/-! Results up to the width of their registers. -/

/-- Values that agree in the bits of a form's registers are one result. -/
theorem RegForm.Completes.congr {m : RegForm} {i : Instr} {v v' : Cx → List (List Opd) → Nat → Nat} (h : m.Completes i v)
    (hv : ∀ x r l, v x r l % 2 ^ (32 * m.k) = v' x r l % 2 ^ (32 * m.k)) : m.Completes i v' := by
  intro s x r hx hl hd hr
  obtain ⟨shs, hexec, hlen, hwords, huni⟩ := h s x r hx hl hd hr
  exact ⟨shs, hexec, hlen, fun l hw => (hwords l hw).trans (hv x r l), huni⟩

theorem tyWide_bits (m6 : BitVec 6) : 32 * (tyWide m6 / 32) = tyWide m6 := by
  rcases tyWide_cases m6 with h | h <;> rw [h]

section
variable {i : Instr} {opc len : Nat} {f : L3} {imm : Option Word}

theorem Int2.congr {fn fn' : Nat → Bool → Bool → Nat → Nat → Nat} (h : Int2 i opc len f imm fn)
    (hfn : ∀ w sg sat a b, fn w sg sat a b % 2 ^ w = fn' w sg sat a b % 2 ^ w) : Int2 i opc len f imm fn' :=
  RegForm.Completes.congr h (fun x r l => by
    simp only [L3Form, tyWide_bits]
    exact hfn _ _ _ _ _)

theorem Shift2.congr {fn fn' : Nat → Nat → Nat → Nat} (h : Shift2 i opc len f imm fn)
    (hfn : ∀ w a k, fn w a k % 2 ^ w = fn' w a k % 2 ^ w) : Shift2 i opc len f imm fn' :=
  RegForm.Completes.congr h (fun x r l => by
    simp only [L3Form, tyWide_bits]
    exact hfn _ _ _)

end

/-! The words of affine operands (R248): a sum, a product by a U and a negation are taken word by word. -/

theorem wordI_toNat (x : Int) : (wordI x).toNat = wrapN 32 x % 2 ^ 32 := by
  rw [wordI, BitVec.toNat_ofInt, wrapN]
  omega

theorem wordI_intOf (sg : Bool) (a : Word) : wordI (intOf 32 sg a.toNat) = a := by
  apply BitVec.eq_of_toNat_eq
  have := a.isLt
  rw [wordI_toNat, wrapN, intOf, signed]
  split
  · split <;> omega
  · omega

theorem wordI_add_words (sg : Bool) (a b : Word) : wordI (intOf 32 sg a.toNat + intOf 32 sg b.toNat) = a + b := by
  rw [wordI, BitVec.ofInt_add, ← wordI, ← wordI, wordI_intOf, wordI_intOf]

theorem wordI_sub_words (sg : Bool) (a b : Word) : wordI (intOf 32 sg a.toNat - intOf 32 sg b.toNat) = a - b := by
  rw [wordI, Int.sub_eq_add_neg, BitVec.ofInt_add, BitVec.ofInt_neg, ← wordI, ← wordI, wordI_intOf, wordI_intOf,
    BitVec.sub_eq_add_neg]

theorem wordI_neg_word (a : Word) : wordI (-(signed 32 a.toNat)) = -a := by
  rw [wordI, BitVec.ofInt_neg, ← wordI]
  exact congrArg _ (wordI_intOf true a)

theorem affOf_isU {sh : Shape} {p : Word × Word} (h : affOf sh = some p) (hu : sh.IsU) : p.2 = 0 := by
  obtain ⟨w, rfl⟩ := hu
  cases h
  rfl

theorem mkAff_isU {b st : Word} (h : st = 0) : (mkAff b st).IsU := ⟨b, if_pos h⟩

theorem word_zero_mul (v : Word) : 0 * v = 0 := BitVec.zero_mul

theorem word_zero_add (v : Word) : 0 + v = v := BitVec.zero_add v

theorem mkAff_add_at (p q : Word × Word) (l : Nat) :
    (mkAff (p.1 + q.1) (p.2 + q.2)).at l = p.1 + BitVec.ofNat 32 l * p.2 + (q.1 + BitVec.ofNat 32 l * q.2) := by
  rw [mkAff_at]; grind

theorem mkAff_sub_at (p q : Word × Word) (l : Nat) :
    (mkAff (p.1 - q.1) (p.2 - q.2)).at l = p.1 + BitVec.ofNat 32 l * p.2 - (q.1 + BitVec.ofNat 32 l * q.2) := by
  rw [mkAff_at]; grind

theorem mkAff_neg_at (p : Word × Word) (l : Nat) :
    (mkAff (-p.1) (-p.2)).at l = -(p.1 + BitVec.ofNat 32 l * p.2) := by
  rw [mkAff_at]; grind

theorem mkAff_mul_at (p : Word × Word) (v : Word) (l : Nat) :
    (mkAff (p.1 * v) (p.2 * v)).at l = (p.1 + BitVec.ofNat 32 l * p.2) * v := by
  rw [mkAff_at, BitVec.add_mul, BitVec.mul_assoc]

/-! The two-source forms (R249, R251 to R253, R258). -/

/-- The affine case of IADD and ISUB (R248). -/
def addAff (sub : Bool) (a b : Shape) : Option Shape := do
  let p ← affOf a
  let q ← affOf b
  return if sub then mkAff (p.1 - q.1) (p.2 - q.2) else mkAff (p.1 + q.1) (p.2 + q.2)

theorem addAff_some {sub : Bool} {a b : Shape} {p q : Word × Word} (ha : affOf a = some p) (hb : affOf b = some q) :
    addAff sub a b = some (if sub then mkAff (p.1 - q.1) (p.2 - q.2) else mkAff (p.1 + q.1) (p.2 + q.2)) := by
  simp only [addAff, ha, hb]
  rfl

theorem affOf_of_addAff {sub : Bool} {a b sh : Shape} (h : addAff sub a b = some sh) :
    ∃ p q, affOf a = some p ∧ affOf b = some q := by
  cases ha : affOf a with
  | none => simp [addAff, ha] at h
  | some p =>
    cases hb : affOf b with
    | none => simp [addAff, ha, hb] at h
    | some q => exact ⟨p, q, rfl, rfl⟩

/-- The exact integer of IADD or ISUB (R249). -/
def addVal (sub : Bool) (w : Nat) (sg sat : Bool) (a b : Nat) : Nat :=
  narrow w sg sat (if sub then intOf w sg a - intOf w sg b else intOf w sg a + intOf w sg b)

theorem addAff_ok (sub sg : Bool) : AffOk (addAff sub) (addVal sub 32 sg false) := by
  intro a b sh h
  obtain ⟨p, q, ha, hb⟩ := affOf_of_addAff h
  rw [addAff_some ha hb, Option.some.injEq] at h
  subst h
  refine ⟨fun l => ?value, fun hua hub => ?uniform⟩
  case value =>
    cases sub
    · simp only [addVal, narrow, Bool.false_eq_true, if_false, ← wordI_toNat, wordI_add_words, mkAff_add_at, affOf_at ha, affOf_at hb]
    · simp only [addVal, narrow, Bool.false_eq_true, if_false, if_true, ← wordI_toNat, wordI_sub_words, mkAff_sub_at, affOf_at ha, affOf_at hb]
  case uniform =>
    have hp := affOf_isU ha hua
    have hq := affOf_isU hb hub
    cases sub
    · exact mkAff_isU (by rw [hp, hq]; rfl)
    · exact mkAff_isU (by rw [hp, hq]; rfl)

/-- The affine case of IMUL (R248). -/
def mulAff (a b : Shape) : Option Shape :=
  match a, b with
  | .a p q, .u v => some (mkAff (p * v) (q * v))
  | .u v, .a p q => some (mkAff (p * v) (q * v))
  | _, _ => none

theorem mul_toNat_mod (a b : Word) : (a * b).toNat = a.toNat * b.toNat % 2 ^ 32 % 2 ^ 32 := by
  rw [BitVec.toNat_mul, Nat.mod_mod]

theorem mulAff_ok : AffOk mulAff (fun a b => a * b % 2 ^ 32) := by
  intro a b sh h
  unfold mulAff at h
  split at h
  · next p q v =>
    cases h
    exact ⟨fun l => by rw [mkAff_mul_at (p, q), mul_toNat_mod]; rfl, fun hu => nomatch hu⟩
  · next v p q =>
    cases h
    exact ⟨fun l => by rw [mkAff_mul_at (p, q), BitVec.mul_comm, mul_toNat_mod]; rfl, fun _ hu => nomatch hu⟩
  · cases h

section
variable {i : Instr} {opc len : Nat} {f : L3} {imm : Option Word}

theorem add_completes {sub : Bool} (he : ∀ s, exec i s = issue s opc len f.g (addBody sub opc f imm)) :
    Int2 i opc len f imm (addVal sub) :=
  int2_completes (aff := addAff sub) he (addAff_ok sub _)

theorem mul_completes (he : ∀ s, exec i s = issue s 0x04 len f.g (mulBody f imm)) :
    Int2 i 0x04 len f imm (fun _ _ _ a b => a * b) :=
  Int2.congr (int2_completes (aff := mulAff) he mulAff_ok) (fun _ _ _ _ _ => Nat.mod_mod _ _)

theorem mulh_completes (he : ∀ s, exec i s = issue s 0x05 len f.g (mulhBody f)) :
    Int2 i 0x05 len f none (fun w sg _ a b => wrapN w ((intOf w sg a * intOf w sg b) / (2 : Int) ^ w)) :=
  int2_completes he (noAff_ok _)

theorem div_completes {rem : Bool} (he : ∀ s, exec i s = issue s opc len f.g (divBody rem opc f)) :
    Int2 i opc len f none (fun w sg _ a b => if rem then (divRem w sg a b).2 else (divRem w sg a b).1) :=
  int2_completes he (noAff_ok _)

theorem minmax_completes {mx : Bool} (he : ∀ s, exec i s = issue s opc len f.g (minmaxBody mx opc f imm)) :
    Int2 i opc len f imm (fun w sg _ a b => if mx then (if intOf w sg a < intOf w sg b then b else a)
      else (if intOf w sg b < intOf w sg a then b else a)) :=
  int2_completes he (noAff_ok _)

theorem logic_completes {k : Nat} (he : ∀ s, exec i s = issue s opc len f.g (logicBody k opc f imm)) :
    Int2 i opc len f imm (fun w _ _ a b => logic k w a b) :=
  int2_completes he (noAff_ok _)

end

/-! The shifts and the one-source forms (R249, R258, R259, R261). -/

section
variable {i : Instr} {len : Nat} {f : L3} {imm : Option Word}

theorem shl_completes (he : ∀ s, exec i s = issue s 0x12 len f.g (shiftBody 0 0x12 f imm)) :
    Shift2 i 0x12 len f imm (fun w a k => if k < w then a * 2 ^ k else 0) :=
  (shift_completes he).congr (fun w a k => by
    simp only [shiftVal, Nat.shiftLeft_eq]
    split
    · exact Nat.mod_mod _ _
    · rfl)

theorem shr_completes (he : ∀ s, exec i s = issue s 0x13 len f.g (shiftBody 1 0x13 f imm)) :
    Shift2 i 0x13 len f imm (fun w a k => if k < w then a / 2 ^ k else 0) :=
  (shift_completes he).congr (fun w a k => by simp only [shiftVal, Nat.shiftRight_eq_div_pow])

theorem neg_completes (he : ∀ s, exec i s = issue s 0x09 len f.g (negBody f)) :
    Int1 i 0x09 len f false (fun w sat a => narrow w true sat (-(signed w a))) := by
  refine int1_completes he (fun a sh h => ?_)
  obtain ⟨p, hp, rfl⟩ := Option.map_eq_some_iff.mp h
  refine ⟨fun l => ?value, fun hu => mkAff_isU (by rw [affOf_isU hp hu]; rfl)⟩
  case value =>
    simp only [narrow, Bool.false_eq_true, if_false, ← wordI_toNat, wordI_neg_word, mkAff_neg_at, affOf_at hp]

/-- A one-source form with no affine case. -/
theorem int1_completes_plain {opc : Nat} {one : Bool} {fn : Nat → Bool → Nat → Nat}
    (he : ∀ s, exec i s = issue s opc len f.g (int1 opc f one fn (fun _ => none))) : Int1 i opc len f one fn :=
  int1_completes he (fun _ _ h => nomatch h)

end

/-! The forms of two fields and of three sources (R251, R260, R262 to R265). -/

/-- A lane-wise result of one or two registers, the same in every lane where every source is U. -/
theorem laneShapes_isResult {m : RegForm} {x : Cx} {r : List (List Opd)} {fn : Nat → Nat} (hk : m.k = 1 ∨ m.k = 2)
    (hu : r.flatten.all (·.isU) = true → ∀ l l', fn l = fn l') : m.Result x r fn (laneShapes x r.flatten m.k fn) :=
  laneShapes_result x r.flatten m.k fn hk hu

/-- The words of a run in a lane, as numbers. -/
def laneWords (os : List Opd) (l : Nat) : List Nat := os.map (fun o => (o.at l).toNat)

theorem laneWords_getD (os : List Opd) (l i : Nat) : (laneWords os l).getD i 0 = ((os.getD i ⟨.u 0, 0⟩).at l).toNat := by
  rw [laneWords, List.getD_eq_getElem?_getD, List.getD_eq_getElem?_getD, List.getElem?_map]
  cases os[i]? <;> rfl

theorem laneVal_word (os : List Opd) (l : Nat) : laneVal os 32 l = (laneWords os l).getD 0 0 := (laneWords_getD os l 0).symm

theorem laneVal_pair (os : List Opd) (l : Nat) :
    laneVal os 64 l = (laneWords os l).getD 0 0 + 2 ^ 32 * (laneWords os l).getD 1 0 := by
  rw [laneWords_getD, laneWords_getD]
  simp only [laneVal, pairAt, pairWord, if_true, BitVec.toNat_append]
  rw [Nat.shiftLeft_eq, Nat.mul_comm, ← Nat.two_pow_add_eq_or_of_lt (BitVec.isLt _), Nat.add_comm]

theorem laneWords_isU {os : List Opd} (h : os.all (·.isU) = true) (l l' : Nat) : laneWords os l = laneWords os l' :=
  List.map_congr_left (fun o ho => by rw [isU_at (List.all_eq_true.mp h o ho) l l'])

section
variable {i : Instr} {opc len : Nat} {f : L3}

theorem intAB_completes {k ka kb : Nat} {fn : List Nat → Nat → Nat} {val : List (List Opd) → Nat → Nat} (hk : k = 1 ∨ k = 2)
    (he : ∀ s, exec i s = issue s opc len f.g (aluBody (intLegal opc f.mod6) f.dst k f.ocw 0 (srcsAB f ka kb none)
      (fun x r => laneShapes x r.flatten k (val r))))
    (hval : ∀ r l, val r l = fn (laneWords (nthRun r 0) l) (laneVal (nthRun r 1) 32 l)) : IntAB i opc len f k ka kb fn := by
  refine completes_of (m := L3Form opc len 0 (intLegal opc f.mod6) f k ka kb none) he (fun x r hl hd hr => aluBody_ok hl hd hr) (fun x r => ?_)
  rw [show val r = _ from funext (hval r)]
  exact laneShapes_isResult hk (fun hu l l' => congr (congrArg fn (laneWords_isU (nthRun_isU hu 0) l l')) (laneVal_isU (nthRun_isU hu 1) 32 l l'))

theorem three_completes {k kc latch : Nat} {legal : Bool} {res : Cx → List (List Opd) → List Shape}
    {val : Cx → List (List Opd) → Nat → Nat} (he : ∀ s, exec i s = issue s opc len f.g (three f kc res legal k latch))
    (hv : ∀ x r, (L3Form3 opc len latch legal f k 1 kc).Result x r (val x r) (res x r)) :
    (L3Form3 opc len latch legal f k 1 kc).Completes i val :=
  completes_of (m := L3Form3 opc len latch legal f k 1 kc) he (fun _ _ hl hd hr => three_ok hl rfl hd hr) hv

theorem int3_completes {fn : Nat → Nat → Nat → Nat}
    (he : ∀ s, exec i s = issue s opc len f.g (three f 1 (fun x r => laneShapes x r.flatten 1 (fun l =>
      fn (laneVal (nthRun r 0) 32 l) (laneVal (nthRun r 1) 32 l) (laneVal (nthRun r 2) 32 l))) (intLegal opc f.mod6) 1 0)) :
    Int3 i opc len f fn :=
  three_completes he (fun _ _ => laneShapes_isResult (.inl rfl) (fun hu l l' => by
    rw [laneVal_isU (nthRun_isU hu 0) 32 l l', laneVal_isU (nthRun_isU hu 1) 32 l l', laneVal_isU (nthRun_isU hu 2) 32 l l']))

end

/-! IMAD and its affine case (R248, R251). -/

/-- The words of an affine product and addend. -/
theorem mkAff_mad_at (p e : Word × Word) (v : Word) (l : Nat) :
    (mkAff (p.1 * v + e.1) (p.2 * v + e.2)).at l = (p.1 + BitVec.ofNat 32 l * p.2) * v + (e.1 + BitVec.ofNat 32 l * e.2) := by
  rw [mkAff_at]; grind

theorem mad_toNat (a b c : Word) : (a * b + c).toNat = imadVal 0 a.toNat b.toNat c.toNat % 2 ^ 32 := by
  rw [BitVec.toNat_add, BitVec.toNat_mul, imadVal, Nat.mod_mod, Nat.mod_add_mod]

/-- An affine IMAD holds the product and sum in every lane, and is U where its sources are. -/
theorem imadAff_ok {a b o sh : Shape} (h : imadAff a b o = some sh) :
    (∀ l, sh.at l = a.at l * b.at l + o.at l) ∧ (a.IsU → b.IsU → o.IsU → sh.IsU) := by
  unfold imadAff at h
  split at h
  · next p q v e he =>
    cases h
    exact ⟨fun l => by rw [mkAff_mad_at (p, q), affOf_at he]; rfl, fun hu => nomatch hu⟩
  · next v p q e he =>
    cases h
    exact ⟨fun l => by rw [mkAff_mad_at (p, q), affOf_at he, BitVec.mul_comm]; rfl, fun _ hu => nomatch hu⟩
  · next u v e he =>
    cases h
    exact ⟨fun l => by rw [mkAff_at, affOf_at he, BitVec.add_assoc]; rfl, fun _ _ hu => mkAff_isU (affOf_isU he hu)⟩
  · cases h

/-- The value that IMAD with an addend of k registers gives a lane. -/
def imadLane (f : L3) (k : Nat) (r : List (List Opd)) (l : Nat) : Nat :=
  imadVal (f.mod6.toNat % 4) (laneVal (nthRun r 0) 32 l) (laneVal (nthRun r 1) 32 l) (laneVal (nthRun r 2) (32 * k) l)

theorem imadLane_isU {f : L3} {k : Nat} {r : List (List Opd)} (hu : r.flatten.all (·.isU) = true) (l l' : Nat) :
    imadLane f k r l = imadLane f k r l' := by
  simp only [imadLane, laneVal_isU (nthRun_isU hu 0) 32 l l', laneVal_isU (nthRun_isU hu 1) 32 l l',
    laneVal_isU (nthRun_isU hu 2) _ l l']

theorem isU_of_nthRun {r : List (List Opd)} {i : Nat} {o : Opd} {os : List Opd} (hu : r.flatten.all (·.isU) = true)
    (h : nthRun r i = o :: os) : o.sh.IsU :=
  isU_iff (List.all_eq_true.mp (h ▸ nthRun_isU hu i) o (List.mem_cons_self ..))

/-- IMAD's words: its affine case in TY 0, else lane by lane. -/
theorem imadRes_isResult (f : L3) {k : Nat} (hk : (if imadWide f.mod6 then 2 else 1) = k) (x : Cx) (r : List (List Opd)) :
    (L3Form3 0x06 8 0 (intLegal 0x06 f.mod6) f k 1 k).Result x r (imadLane f k r) (imadRes f x r) := by
  have hplain : (L3Form3 0x06 8 0 (intLegal 0x06 f.mod6) f k 1 k).Result x r (imadLane f k r)
      (laneShapes x r.flatten k (imadLane f k r)) :=
    laneShapes_isResult (by show k = 1 ∨ k = 2; rw [← hk]; split <;> simp) imadLane_isU
  simp only [imadRes, hk]
  split
  · next p ps q qs o os ht h0 h1 h2 =>
    obtain rfl : k = 1 := by rw [← hk, imadWide, ht]; rfl
    split
    · next sh hsh =>
      obtain ⟨hat, huni⟩ := imadAff_ok hsh
      refine ⟨rfl, fun l _ => ?value, fun hu sh' hm => ?uniform⟩
      case value =>
        rw [wordsAt_one, hat, mad_toNat, imadLane, ht, h0, h1, h2]
        rfl
      case uniform =>
        obtain rfl := List.mem_singleton.mp hm
        exact huni (isU_of_nthRun hu h0) (isU_of_nthRun hu h1) (isU_of_nthRun hu h2)
    · exact hplain
  · exact hplain

end Sys2Proof.Machine

open Sys2Proof Sys2Proof.Machine
/-- Settles O1: each instruction issues the one body of its shape, whose words are its rule's in every lane. -/
theorem integerInstructionResult : Obligations.IntegerInstructionResult := by
  unfold Obligations.IntegerInstructionResult
  refine ⟨fun f => ⟨?iadd, ?isub, ?imul, ?imulh, ?idiv, ?irem, ?imin, ?imax, ?and, ?or, ?xor, ?andn⟩, fun f => ⟨?shl, ?shr, ?sar, ?rol⟩,
    fun f => ⟨?ineg, ?iabs, ?not, ?popc, ?clz, ?ctz, ?brev⟩, fun f => ⟨?imad, ?funsh, ?bfi, ?idot4, ?bfe, ?prmb, ?lea⟩⟩
  case iadd => exact add_completes (sub := false) (fun _ => rfl)
  case isub => exact add_completes (sub := true) (fun _ => rfl)
  case imul => exact mul_completes (fun _ => rfl)
  case imulh => exact mulh_completes (fun _ => rfl)
  case idiv => exact div_completes (rem := false) (fun _ => rfl)
  case irem => exact div_completes (rem := true) (fun _ => rfl)
  case imin => exact minmax_completes (mx := false) (fun _ => rfl)
  case imax => exact minmax_completes (mx := true) (fun _ => rfl)
  case and => exact logic_completes (k := 0) (fun _ => rfl)
  case or => exact logic_completes (k := 1) (fun _ => rfl)
  case xor => exact logic_completes (k := 2) (fun _ => rfl)
  case andn => exact logic_completes (k := 3) (fun _ => rfl)
  case shl => exact shl_completes (fun _ => rfl)
  case shr => exact shr_completes (fun _ => rfl)
  case sar => exact shift_completes (op := 2) (fun _ => rfl)
  case rol => exact shift_completes (op := 3) (fun _ => rfl)
  case ineg => exact neg_completes (fun _ => rfl)
  case iabs | not | popc | clz | ctz | brev => exact int1_completes_plain (fun _ => rfl)
  case imad => exact three_completes (fun _ => rfl) (imadRes_isResult f rfl)
  case funsh | bfi | idot4 => exact int3_completes (fun _ => rfl)
  case bfe => exact intAB_completes (.inl rfl) (fun _ => rfl) (fun _ l => congrArg (bfeVal _ · _) (laneVal_word _ l))
  case prmb => exact intAB_completes (.inl rfl) (fun _ => rfl) (fun _ _ => rfl)
  case lea => exact intAB_completes (.inr rfl) (fun _ => rfl) (fun _ l => congrArg (leaVal _ _ · _) (laneVal_pair _ l))
end

section
/-!
PROOFS. A register instruction's result reaches its destination (R26, R215, R224, R386): its words stand in the registers that
the destination names once the issue slot has ended, whatever older results come in it.
-/

namespace Sys2Proof.Machine

/-! What a write of a result leaves of a crew. -/

/-- The fields that say which lanes, paths and registers a crew has are the same. -/
structure Crew.Alike (c d : Crew) : Prop where
  w : d.w = c.w
  launched : d.launched = c.launched
  exited : d.exited = c.exited
  nregs : d.nregs = c.nregs
  ix : d.ix = c.ix
  paths : d.paths = c.paths
  hgroup : d.hgroup = c.hgroup

theorem Crew.Alike.refl (c : Crew) : c.Alike c := ⟨rfl, rfl, rfl, rfl, rfl, rfl, rfl⟩

theorem Crew.Alike.trans {c d e : Crew} (h : c.Alike d) (h' : d.Alike e) : c.Alike e :=
  ⟨h'.w.trans h.w, h'.launched.trans h.launched, h'.exited.trans h.exited, h'.nregs.trans h.nregs, h'.ix.trans h.ix,
    h'.paths.trans h.paths, h'.hgroup.trans h.hgroup⟩

theorem Crew.Alike.live {c d : Crew} (h : c.Alike d) : d.live = c.live := by rw [Crew.live, h.launched, h.exited, ← Crew.live]

theorem Crew.Alike.foldl {α : Type} {g : Crew → α → Crew} (hg : ∀ (c : Crew) (a : α), c.Alike (g c a)) (l : List α) (c : Crew) :
    c.Alike (l.foldl g c) := by
  induction l generalizing c with
  | nil => exact .refl c
  | cons a l ih => exact (hg c a).trans (ih _)

theorem Crew.supersede_alike (c : Crew) (d : Dst) (m : Lanes) : c.Alike (c.supersede d m) := ⟨rfl, rfl, rfl, rfl, rfl, rfl, rfl⟩

theorem Crew.writeLatch_alike (c : Crew) (n : Nat) (act : Lanes) (sh : Shape) (p : Lanes) : c.Alike (c.writeLatch n act sh p) := by
  unfold Crew.writeLatch
  split
  · exact .refl c
  · split <;> exact ⟨rfl, rfl, rfl, rfl, rfl, rfl, rfl⟩

theorem Crew.writeDest_alike (c : Crew) (d : PDest) (m : Lanes) : c.Alike (c.writeDest d m) := by
  unfold Crew.writeDest
  split
  case h_3 => exact c.writeLatch_alike ..
  all_goals exact ⟨rfl, rfl, rfl, rfl, rfl, rfl, rfl⟩

theorem Crew.putDests_alike (c : Crew) (ds : List PDest) : c.Alike (c.putDests ds) :=
  .foldl (fun (c : Crew) (d : PDest) => (c.supersede_alike d.dst d.lanes).trans (Crew.writeDest_alike _ d d.lanes)) ds c

theorem Crew.emptySrcs_alike (c : Crew) (ss : List Src) : c.Alike (c.emptySrcs ss) :=
  .foldl (fun (c : Crew) s => by split <;> exact ⟨rfl, rfl, rfl, rfl, rfl, rfl, rfl⟩) ss c

/-- The results that wait are no part of it. -/
theorem Crew.setPends_alike (c : Crew) (ps : List Pend) : c.Alike { c with pends := ps } := ⟨rfl, rfl, rfl, rfl, rfl, rfl, rfl⟩

theorem Crew.commit_alike (c : Crew) : c.Alike c.commit :=
  (c.setPends_alike _).trans
    (.foldl (fun c (p : Pend) => .foldl (fun (c : Crew) d => c.writeDest_alike d d.lanes) p.dests c) _ _)

theorem Crew.countWindow_alike (c : Crew) (own : Nat) : c.Alike (c.countWindow own) :=
  (c.setPends_alike _).trans (Crew.commit_alike _)

/-! One lane's word of a register through the writes of destinations. -/

/-- A destination writes a lane of a register. -/
def PDest.Hits (d : PDest) (n l : Nat) : Prop := d.dst = .reg n ∧ d.lanes.getLsbD l = true

/-- No older result is still to be written to a lane of a register. -/
def Crew.Clear (c : Crew) (n l : Nat) : Prop := ∀ p ∈ c.pends, ∀ e ∈ p.dests, ¬ e.Hits n l

/-- The word of a live lane of a register. -/
def Crew.word (c : Crew) (n l : Nat) : Word := regAt (mget c.regs n) l

theorem Crew.writeReg_word {c : Crew} {l : Nat} (hl : l < c.w) (hlive : c.live.getLsbD l = true) (n : Nat) (act : Lanes)
    (sh : Shape) (poison : Lanes) : (c.writeReg n act sh poison).word n l = wordAfter (mget c.regs n) act sh l := by
  rw [Crew.word, Crew.writeReg_reg_same]
  by_cases hact : act = 0
  · rw [writeShape_idle hact, wordAfter, hact]
    simp
  · by_cases hall : c.live &&& ~~~act = 0
    · obtain ⟨r, hr, hshape⟩ := writeShape_all (w := c.w) (old := mget c.regs n) (sh := sh) (poison := poison) hact hall
      have hacts : act.getLsbD l = true := by
        have hnone := congrArg (fun m : Lanes => m.getLsbD l) hall
        simpa [hlive, BitVec.lt_of_getLsbD hlive] using hnone
      rw [hr, regAt, hshape, normShape_at sh hl, wordAfter, if_pos hacts]
    · obtain ⟨r, hr, hshape⟩ := writeShape_some (w := c.w) (old := mget c.regs n) (sh := sh) (poison := poison) hact hall
      rw [hr, regAt, hshape, shapeAfter_at hl]

theorem Crew.writeLatch_regs (c : Crew) (n : Nat) (act : Lanes) (sh : Shape) (p : Lanes) : (c.writeLatch n act sh p).regs = c.regs := by
  unfold Crew.writeLatch
  split
  · rfl
  · split <;> rfl

theorem Crew.writeDest_pends (c : Crew) (d : PDest) (m : Lanes) : (c.writeDest d m).pends = c.pends := by
  unfold Crew.writeDest
  split
  case h_3 =>
    unfold Crew.writeLatch
    split
    · rfl
    · split <;> rfl
  all_goals rfl

section
variable {c : Crew} {n l : Nat} (hl : l < c.w) (hlive : c.live.getLsbD l = true)
include hl hlive

theorem Crew.writeDest_word_hit {d : PDest} (h : d.Hits n l) : (c.writeDest d d.lanes).word n l = d.sh.at l := by
  obtain ⟨hdst, hlane⟩ := h
  rw [Crew.writeDest, hdst]
  exact (Crew.writeReg_word hl hlive ..).trans (if_pos hlane)

theorem Crew.writeDest_word_miss {d : PDest} (h : ¬ d.Hits n l) : (c.writeDest d d.lanes).word n l = c.word n l := by
  unfold Crew.writeDest
  split
  · next k hk =>
    by_cases hkn : n = k
    · subst hkn
      exact (Crew.writeReg_word hl hlive ..).trans (if_neg (fun hlane => h ⟨hk, hlane⟩))
    · rw [Crew.word, Crew.writeReg_reg_ne _ _ _ _ hkn, ← Crew.word]
  · rfl
  · rw [Crew.word, Crew.writeLatch_regs, ← Crew.word]
  · rfl

end

/-- Lanes that a later write leaves pending were pending. -/
theorem Dst.keeps_sub {d : Dst} {pending later : Lanes} {l : Nat} (h : (d.keeps pending later).getLsbD l = true) :
    pending.getLsbD l = true := by
  unfold Dst.keeps at h
  split at h
  · split at h
    · exact h
    · simp at h
  · simp only [BitVec.getLsbD_and, Bool.and_eq_true] at h
    exact h.1

/-- What is pending for a place after a later write is what was, but for the lanes written. -/
theorem Crew.supersede_pending {c : Crew} {d : Dst} {m : Lanes} {p : Pend} {e : PDest} {n l : Nat} (hp : p ∈ (c.supersede d m).pends)
    (he : e ∈ p.dests) (hit : e.Hits n l) :
    (∃ q ∈ c.pends, ∃ e' ∈ q.dests, e'.Hits n l) ∧ ¬ (d = .reg n ∧ m.getLsbD l = true) := by
  obtain ⟨q, hq, rfl⟩ := List.mem_map.mp hp
  obtain ⟨e', he', rfl⟩ := List.mem_map.mp he
  obtain ⟨hdst, hlane⟩ := hit
  split at hdst
  · next hsame =>
    rw [if_pos hsame] at hlane
    refine ⟨⟨q, hq, e', he', hdst, Dst.keeps_sub hlane⟩, fun ⟨hd, hm⟩ => ?_⟩
    simp [hd, Dst.keeps, hm] at hlane
  · next hother =>
    rw [if_neg hother] at hlane
    exact ⟨⟨q, hq, e', he', hdst, hlane⟩, fun ⟨hd, _⟩ => hother (hdst.trans hd.symm)⟩

theorem Crew.Clear.supersede {c : Crew} {n l : Nat} (h : c.Clear n l) (d : Dst) (m : Lanes) : (c.supersede d m).Clear n l :=
  fun _ hp _ he hit =>
    let ⟨⟨q, hq, e', he', hit'⟩, _⟩ := Crew.supersede_pending hp he hit
    h q hq e' he' hit'

theorem Crew.supersede_clear (c : Crew) {d : PDest} {n l : Nat} (h : d.Hits n l) : (c.supersede d.dst d.lanes).Clear n l :=
  fun _ hp _ he hit => (Crew.supersede_pending hp he hit).2 h

theorem Crew.Clear.writeDest {c : Crew} {n l : Nat} (h : c.Clear n l) (d : PDest) : (c.writeDest d d.lanes).Clear n l := by
  rw [Crew.Clear, Crew.writeDest_pends]
  exact h

/-- Destinations of which those that write a lane of a register agree on its word, one at least, leave that word there and
nothing older pending for it. -/
theorem Crew.putDests_word {n l : Nat} {v : Word} {ds : List PDest} (hv : ∀ d ∈ ds, d.Hits n l → d.sh.at l = v) {c : Crew}
    (hl : l < c.w) (hlive : c.live.getLsbD l = true) (h : (c.word n l = v ∧ c.Clear n l) ∨ ∃ d ∈ ds, d.Hits n l) :
    (c.putDests ds).word n l = v ∧ (c.putDests ds).Clear n l := by
  induction ds generalizing c with
  | nil =>
    obtain h | ⟨d, hd, -⟩ := h
    · exact h
    · nomatch hd
  | cons d ds ih =>
    have hsuper := c.supersede_alike d.dst d.lanes
    have halike := hsuper.trans (Crew.writeDest_alike _ d d.lanes)
    have hl' : l < (c.supersede d.dst d.lanes).w := by rwa [hsuper.w]
    have hlive' : (c.supersede d.dst d.lanes).live.getLsbD l = true := by rwa [hsuper.live]
    refine ih (fun e he => hv e (List.mem_cons_of_mem _ he)) (by rwa [halike.w]) (by rwa [halike.live]) ?_
    by_cases hit : d.Hits n l
    · exact .inl ⟨(Crew.writeDest_word_hit hl' hlive' hit).trans (hv d (List.mem_cons_self ..) hit),
        (c.supersede_clear hit).writeDest d⟩
    · obtain ⟨hword, hclear⟩ | ⟨e, he, hite⟩ := h
      · exact .inl ⟨(Crew.writeDest_word_miss hl' hlive' hit).trans hword, (hclear.supersede _ _).writeDest d⟩
      · obtain rfl | he := List.mem_cons.mp he
        · exact absurd hite hit
        · exact .inr ⟨e, he, hite⟩

theorem Crew.writeDests_word {n l : Nat} {ds : List PDest} (hmiss : ∀ d ∈ ds, ¬ d.Hits n l) {c : Crew} (hl : l < c.w)
    (hlive : c.live.getLsbD l = true) : (ds.foldl (fun c d => c.writeDest d d.lanes) c).word n l = c.word n l := by
  induction ds generalizing c with
  | nil => rfl
  | cons d ds ih =>
    have h := c.writeDest_alike d d.lanes
    exact (ih (fun e he => hmiss e (List.mem_cons_of_mem _ he)) (by rwa [h.w]) (by rwa [h.live])).trans
      (Crew.writeDest_word_miss hl hlive (hmiss d (List.mem_cons_self ..)))

theorem Crew.writePends_word {n l : Nat} {ps : List Pend} (hmiss : ∀ p ∈ ps, ∀ d ∈ p.dests, ¬ d.Hits n l) {c : Crew} (hl : l < c.w)
    (hlive : c.live.getLsbD l = true) :
    (ps.foldl (fun c p => p.dests.foldl (fun c d => c.writeDest d d.lanes) c) c).word n l = c.word n l := by
  induction ps generalizing c with
  | nil => rfl
  | cons p ps ih =>
    have h : c.Alike (p.dests.foldl (fun c d => c.writeDest d d.lanes) c) := .foldl (fun c d => c.writeDest_alike d d.lanes) _ c
    exact (ih (fun q hq => hmiss q (List.mem_cons_of_mem _ hq)) (by rwa [h.w]) (by rwa [h.live])).trans
      (Crew.writeDests_word (hmiss p (List.mem_cons_self ..)) hl hlive)

/-- The older results that come in an issue slot leave a word for which none is pending. -/
theorem Crew.countWindow_word {c : Crew} {n l : Nat} (hc : c.Clear n l) (hl : l < c.w) (hlive : c.live.getLsbD l = true) (own : Nat) :
    (c.countWindow own).word n l = c.word n l := by
  refine (Crew.writePends_word (fun p hp => ?_) (by exact hl) (by exact hlive)).trans rfl
  obtain ⟨q, hq, rfl⟩ := List.mem_map.mp (List.mem_filter.mp hp).1
  split <;> exact hc q hq

/-! The destinations of a result. -/

theorem getLsbD_oneLane {k l : Nat} (h : (oneLane k).getLsbD l = true) : l = k := by
  simp only [oneLane, BitVec.getLsbD_shiftLeft, BitVec.getLsbD_one] at h
  simp at h
  omega

theorem lanesWhere_of_getLsbD {w l : Nat} {p : Nat → Bool} (h : (lanesWhere w p).getLsbD l = true) : p l = true := by
  induction w with
  | zero => simp [lanesWhere] at h
  | succ w ih =>
    rw [lanesWhere, List.range_succ, List.foldl_append, List.foldl_cons, List.foldl_nil, ← lanesWhere] at h
    split at h
    · next hw =>
      rw [BitVec.getLsbD_or, Bool.or_eq_true] at h
      obtain h | h := h
      · exact ih h
      · rwa [getLsbD_oneLane h]
    · exact ih h

theorem Crew.Alike.dstPlaces {c d : Crew} (h : c.Alike d) (g : Desig) (j : Nat) (act : Lanes) :
    dstPlaces d g j act = Machine.dstPlaces c g j act := by
  simp only [Machine.dstPlaces, Crew.ixAt, h.w, h.nregs, h.ix]

/-- A word of a result goes in each lane to the register that its designator names there. -/
theorem placeReg_of_dstPlaces {c : Crew} {d : Desig} {i n l : Nat} {act a : Lanes} (h : (n, a) ∈ dstPlaces c d i act)
    (hal : a.getLsbD l = true) : ∃ pl, place d = some pl ∧ placeReg c pl i l = some n := by
  unfold dstPlaces at h
  split at h
  · next m hm =>
    cases List.mem_singleton.mp h
    exact ⟨_, hm, rfl⟩
  · next k hk =>
    obtain ⟨_, -, hn⟩ := List.mem_map.mp h
    cases hn
    have hat := lanesWhere_of_getLsbD hal
    rw [Bool.and_eq_true, beq_iff_eq] at hat
    exact ⟨_, hk, congrArg some hat.2⟩
  · nomatch h

theorem le_of_add_mod_eq {a i j m : Nat} (h : (a + i) % m = (a + j) % m) (hj : j < m) : j ≤ i := by
  have hdiff := Nat.sub_mod_eq_zero_of_mod_eq h.symm
  rw [Nat.add_sub_add_left, Nat.mod_eq_of_lt (by omega)] at hdiff
  exact Nat.le_of_sub_eq_zero hdiff

theorem placeReg_inj {c : Crew} {pl : Place} {i j n l : Nat} (hi : i < c.nregs) (hj : j < c.nregs) (ha : placeReg c pl i l = some n)
    (hb : placeReg c pl j l = some n) : i = j := by
  unfold placeReg at ha hb
  split at ha
  · next m =>
    simp only [Option.some.injEq] at ha hb
    omega
  · next k =>
    simp only [Option.some.injEq] at ha hb
    exact Nat.le_antisymm (le_of_add_mod_eq (hb.trans ha.symm) hi) (le_of_add_mod_eq (ha.trans hb.symm) hj)
  · nomatch ha

/-- In one lane the words of a result go to registers of their own (R210, R224). -/
theorem dstPlaces_inj {c : Crew} {d : Desig} {i j n l : Nat} {act a b : Lanes} (hi : i < c.nregs) (hj : j < c.nregs)
    (ha : (n, a) ∈ dstPlaces c d i act) (hb : (n, b) ∈ dstPlaces c d j act) (hal : a.getLsbD l = true) (hbl : b.getLsbD l = true) :
    i = j := by
  obtain ⟨pl, hpl, hni⟩ := placeReg_of_dstPlaces ha hal
  obtain ⟨pl', hpl', hnj⟩ := placeReg_of_dstPlaces hb hbl
  cases hpl.symm.trans hpl'
  exact placeReg_inj hi hj hni hnj

theorem mem_regDests {c : Crew} {d : Desig} {i n l : Nat} {act : Lanes} {sh : Shape} {e : PDest} (he : e ∈ regDests c d i act sh 0)
    (hit : e.Hits n l) : (n, e.lanes) ∈ dstPlaces c d i act ∧ e.sh = sh := by
  obtain ⟨⟨m, a⟩, hm, rfl⟩ := List.mem_map.mp he
  obtain ⟨hdst, -⟩ := hit
  cases hdst
  exact ⟨hm, rfl⟩

/-- The registers that writeResult writes in a lane get the words of the result, in the order of the words. -/
theorem Cx.writeResult_word {x : Cx} {dst : Desig} {ocw : BitVec 4} {latch : Option Nat} {srcs : List Src} {shs : List Shape} {j l : Nat}
    {e : Nat × Lanes} (hj : j < shs.length) (hn : shs.length ≤ x.c.nregs) (he : e ∈ dstPlaces x.c dst j x.act)
    (hel : e.2.getLsbD l = true) (hl : l < x.c.w) (hlive : x.c.live.getLsbD l = true) :
    (x.writeResult dst ocw latch srcs shs).c.word e.1 l = shs[j].at l ∧ (x.writeResult dst ocw latch srcs shs).c.Clear e.1 l := by
  have halike := x.c.emptySrcs_alike srcs
  refine Crew.putDests_word (fun d hd hit => ?agree) (by rwa [halike.w]) (by rwa [halike.live]) (.inr ?hit)
  case agree =>
    simp only [List.append_assoc, List.mem_append] at hd
    obtain hreg | hoc | hlatch := hd
    · obtain ⟨ds, hds, hd⟩ := List.mem_flatten.mp hreg
      obtain ⟨⟨sh, i⟩, hi, rfl⟩ := List.mem_map.mp hds
      obtain ⟨hplace, hsh⟩ := mem_regDests hd hit
      have hget := List.mk_mem_zipIdx_iff_getElem?.mp hi
      obtain ⟨hil, hsi⟩ := List.getElem?_eq_some_iff.mp hget
      rw [halike.dstPlaces] at hplace
      obtain rfl := dstPlaces_inj (Nat.lt_of_lt_of_le hil hn) (Nat.lt_of_lt_of_le hj hn) hplace he hit.2 hel
      rw [hsh, hsi]
    · unfold ocDests at hoc
      split at hoc
      · obtain rfl := List.mem_singleton.mp hoc
        nomatch hit.1
      · nomatch hoc
    · split at hlatch
      · unfold latchDests at hlatch
        split at hlatch
        · nomatch hlatch
        · obtain rfl := List.mem_singleton.mp hlatch
          nomatch hit.1
      · nomatch hlatch
  case hit =>
    have hword : { dst := .reg e.1, lanes := e.2, sh := shs[j], poison := 0 } ∈ regDests (x.c.emptySrcs srcs) dst j x.act shs[j] 0 :=
      List.mem_map.mpr ⟨e, by rwa [halike.dstPlaces], rfl⟩
    have hlist : regDests (x.c.emptySrcs srcs) dst j x.act shs[j] 0 ∈ shs.zipIdx.map (fun e => regDests (x.c.emptySrcs srcs) dst e.2 x.act e.1 0) :=
      List.mem_map.mpr ⟨(shs[j], j), List.mk_mem_zipIdx_iff_getElem?.mpr (List.getElem?_eq_getElem hj), rfl⟩
    exact ⟨_, List.mem_append_left _ (List.mem_append_left _ (List.mem_flatten.mpr ⟨_, hlist, hword⟩)), rfl, hel⟩

theorem Cx.writeResult_alike (x : Cx) (dst : Desig) (ocw : BitVec 4) (latch : Option Nat) (srcs : List Src) (shs : List Shape) :
    x.c.Alike (x.writeResult dst ocw latch srcs shs).c :=
  (x.c.emptySrcs_alike srcs).trans (Crew.putDests_alike _ _)

/-! The end of an issue slot that goes on at the next instruction. -/

/-- The crew after an issue slot's effect, its path at the next instruction and the slot counted. -/
def Rsl.counted (r : Rsl) (x : Cx) : Crew :=
  let c := (r.c.setPc (x.p.pc + BitVec.ofNat 64 x.len)).countWindow x.op
  { c with fence := c.fence.map (fun f => if f.op = x.op then f else { f with issued := f.issued + 1 })
           loadSlots := if c.loadSet then c.loadSlots + 1 else 0, fbuf := [] }

/-- The crew that an issue slot puts back (R433). -/
def Rsl.left (r : Rsl) (x : Cx) : Crew :=
  if (r.counted x).loadSet && decide (256 ≤ (r.counted x).loadSlots) &&
      (r.s.partCrews (r.counted x).core ((r.counted x).crewid / 32)).any (fun e => e.1 != x.id && e.2.loadHeld.isSome) then
    (r.counted x).leaveLoadSet
  else r.counted x

theorem Rsl.finish_adv {r : Rsl} (h : r.adv = true) (x : Cx) :
    r.finish x = if x.c.fence.isSome && (r.left x).spillWork x.c.paths then { x.s with opSeq := x.op }
      else (r.s.storeCrew x.id (r.left x)).spillFix x.id x.c.paths := by
  obtain ⟨s, c, adv⟩ := r
  cases h
  rfl

theorem Rsl.left_keeps (r : Rsl) (x : Cx) :
    (r.left x).regs = ((r.c.setPc (x.p.pc + BitVec.ofNat 64 x.len)).countWindow x.op).regs ∧
    (r.left x).paths = (r.c.setPc (x.p.pc + BitVec.ofNat 64 x.len)).paths ∧ (r.left x).hgroup = r.c.hgroup := by
  have halike := (r.c.setPc (x.p.pc + BitVec.ofNat 64 x.len)).countWindow_alike x.op
  have hleft : r.left x = (r.counted x).leaveLoadSet ∨ r.left x = r.counted x := by
    unfold Rsl.left
    split
    · exact .inl rfl
    · exact .inr rfl
  obtain h | h := hleft <;> rw [h] <;> exact ⟨rfl, halike.paths, halike.hgroup⟩

theorem State.storeCrew_paths (s : State) (id : Nat) (c : Crew) :
    ∃ d, mget (s.storeCrew id c).crews id = some d ∧ d.paths = c.paths := by
  unfold State.storeCrew
  split
  · exact ⟨c, mget_mput_same _ _ _, rfl⟩
  · exact ⟨_, mget_mput_same _ _ _, rfl⟩

/-- A crew is put back as it is seen: a helper group's registers are its donor's (R386). -/
theorem State.viewCrew_storeCrew {s : State} {id : Nat} {c : Crew}
    (hg : ∀ h, c.hgroup = some h → h.donor ≠ id ∧ (mget s.crews h.donor).isSome = true) :
    ∃ d, (s.storeCrew id c).viewCrew id = some d ∧ d.regs = c.regs ∧ d.paths = c.paths := by
  cases hh : c.hgroup with
  | none =>
    refine ⟨c, ?_, rfl, rfl⟩
    simp only [State.storeCrew, State.viewCrew, hh, State.setCrew_crews, mget_mput_same]
  | some h =>
    obtain ⟨hne, hsome⟩ := hg h hh
    obtain ⟨e, he⟩ := Option.isSome_iff_exists.mp hsome
    simp only [State.storeCrew, State.viewCrew, hh, State.setCrew_crews, mget_mput_same, mget_mput_ne _ _ _ _ hne,
      State.modCrew_crews, mget_mmod_same, he, Option.map_some]
    refine ⟨_, rfl, ?_, rfl⟩
    dsimp only
    split <;> rfl

theorem Crew.setPc_spilled {c : Crew} (h : ∀ p ∈ c.paths, p.spilled = false) (pc : Dword) :
    ∀ p ∈ (c.setPc pc).paths, p.spilled = false := by
  intro p hp
  obtain ⟨q, hq, rfl⟩ := List.mem_map.mp hp
  split <;> exact h q hq

/-- A crew whose paths fit is put back at the next instruction, no path spilled. -/
theorem Rsl.finish_fits {r : Rsl} {x : Cx} (hadv : r.adv = true) (halike : x.c.Alike r.c) (hfits : x.c.Fits) :
    r.finish x = r.s.storeCrew x.id (r.left x) := by
  obtain ⟨hlen, hspill⟩ := hfits
  obtain ⟨-, hpaths, -⟩ := r.left_keeps x
  have h8 : (r.left x).paths.length ≤ 8 := by
    rw [hpaths, Crew.setPc, List.length_map, halike.paths]
    omega
  have hs : ∀ p ∈ (r.left x).paths ++ x.c.paths, p.spilled = false := by
    intro p hp
    obtain hp | hp := List.mem_append.mp hp
    · exact Crew.setPc_spilled (by rwa [halike.paths]) _ p (hpaths ▸ hp)
    · exact hspill p hp
  rw [Rsl.finish_adv hadv, spillWork_fits h8 hs, Bool.and_false, if_neg Bool.false_ne_true]
  obtain ⟨d, hd, hdp⟩ := r.s.storeCrew_paths x.id (r.left x)
  exact spillFix_fits hd (by rwa [hdp]) (by rwa [hdp])

theorem Crew.pc_of_paths {c d : Crew} {pc : Dword} (hrun : c.running.isSome = true) (h : d.paths = (c.setPc pc).paths) : d.pc = pc := by
  obtain ⟨p, hp⟩ := Option.isSome_iff_exists.mp hrun
  have hsame : (fun q : Path => (if q.run then { q with pc := pc } else q).run) = (fun q => q.run) := by
    funext q
    split <;> rfl
  rw [Crew.pc, Crew.running, h, Crew.setPc, List.find?_map, Function.comp_def, hsame, ← Crew.running, hp]
  simp [List.find?_some hp]

/-- The context an instruction executes in has the running path. -/
theorem issueCx_running {s : State} {opc len : Nat} {g : Guard} {x : Cx} (h : s.issueCx opc len g = some x) :
    x.c.running.isSome = true := by
  obtain ⟨c, c1, -, hp, hl, -, -, -, -, -, -, hx⟩ := issueCx_unfold h
  have hpaths : c1.paths = c.paths := by
    unfold State.loadSetCrew at hl
    split at hl
    · cases hl; rfl
    · split at hl <;> cases hl
      rfl
  have hage : (fun q : Path => (if (q.frame == c1.curFrame && !q.run && !q.wait) = true then { q with age := min 255 (q.age + 1) } else q).run) =
      (fun q => q.run) := by
    funext q
    split <;> rfl
  rw [Crew.running] at hp
  rw [hx, Crew.running, Crew.agePaths, List.find?_map, Function.comp_def, hage, hpaths, hp]
  rfl

/-! From the words of a result to the registers. -/

/-- The words that hold a value in a lane are its parts, lowest first (R52). -/
theorem words_of_wordsAt {shs : List Shape} {l v j : Nat} (h : wordsAt shs l = v % 2 ^ (32 * shs.length)) (hj : j < shs.length) :
    shs[j].at l = BitVec.ofNat 32 (v >>> (32 * j)) := by
  induction shs generalizing v j with
  | nil => nomatch hj
  | cons sh shs ih =>
    rw [wordsAt_cons, List.length_cons, Nat.mul_succ, Nat.add_comm (32 * _), Nat.pow_add, Nat.mod_mul] at h
    have hlow := (sh.at l).isLt
    cases j with
    | zero =>
      apply BitVec.eq_of_toNat_eq
      rw [List.getElem_cons_zero, BitVec.toNat_ofNat, Nat.mul_zero, Nat.shiftRight_zero]
      omega
    | succ j =>
      rw [List.getElem_cons_succ, ih (v := v / 2 ^ 32) (by omega), ← Nat.shiftRight_eq_div_pow, ← Nat.shiftRight_add, Nat.mul_succ,
        Nat.add_comm 32]

/-- An instruction that completes lands: the end of its issue slot keeps the words it has written. -/
theorem RegForm.Completes.lands {m : RegForm} {i : Instr} {val : Cx → List (List Opd) → Nat → Nat} (h : m.Completes i val) :
    m.Lands i val := by
  intro s x r hx hl hd hn hr hg hfits
  obtain ⟨shs, hexec, hlen, hwords, -⟩ := h s x r hx hl hd hr
  generalize ho : x.writeResult m.dst m.ocw (some m.latch) m.srcs shs = o at hexec
  have halike : x.c.Alike o.c := ho ▸ x.writeResult_alike m.dst m.ocw (some m.latch) m.srcs shs
  have hadv : o.adv = true := ho ▸ rfl
  have hcrews : o.s.crews = s.crews := by
    subst ho
    obtain ⟨_, _, -, -, -, -, -, -, -, -, -, hxs⟩ := issueCx_unfold hx
    show x.s.crews = s.crews
    rw [hxs]
  have hid : x.id = s.focus := by
    obtain ⟨_, _, -, -, -, -, -, -, -, -, -, hxs⟩ := issueCx_unfold hx
    rw [hxs]
  have hxlen : x.len = m.len := by
    obtain ⟨_, _, -, -, -, -, -, -, -, -, -, hxs⟩ := issueCx_unfold hx
    rw [hxs]
  rw [Rsl.finish_fits hadv halike hfits, hid] at hexec
  obtain ⟨hregs, hpaths, hhgroup⟩ := o.left_keeps x
  obtain ⟨d, hview, hdregs, hdpaths⟩ := State.viewCrew_storeCrew (s := o.s) (id := s.focus) (c := o.left x) (fun q hq => by
    rw [hcrews]
    exact hg q (by rw [← halike.hgroup, ← hhgroup, hq]))
  refine ⟨_, d, hexec, hview, ?pc, fun l hlw hact hlive j hj e he hel => ?word⟩
  case pc =>
    rw [← hxlen]
    exact Crew.pc_of_paths (by rw [Crew.running, halike.paths]; exact issueCx_running hx) (hdpaths.trans hpaths)
  case word =>
    have hjs : j < shs.length := hlen ▸ hj
    obtain ⟨hword, hclear⟩ := ho ▸ Cx.writeResult_word (x := x) (ocw := m.ocw) (latch := some m.latch) (srcs := m.srcs) hjs (hlen ▸ hn) he hel hlw hlive
    have hcount := Crew.countWindow_word (c := o.c.setPc (x.p.pc + BitVec.ofNat 64 x.len)) hclear (by rwa [Crew.setPc_w, halike.w]) (by
      show o.c.live.getLsbD l = true
      rwa [halike.live]) x.op
    rw [hdregs, hregs]
    exact (hcount.trans hword).trans (words_of_wordsAt (by rw [hwords l hlw, hlen]) hjs)

/-! The integer forms land with any value that agrees with theirs on operands of their type (R243). -/

theorem laneVal_lt (os : List Opd) {w : Nat} (hw : w = 32 ∨ w = 64) (l : Nat) : laneVal os w l < 2 ^ w := by
  obtain rfl | rfl := hw <;> exact BitVec.isLt _

section
variable {i : Instr} {opc : Nat} {f : L3}

theorem Int2.lands {fn : Nat → Bool → Bool → Nat → Nat → Nat} {fn' : Nat → Bool → Nat → Nat → Nat} (h : Int2 i opc 8 f none fn)
    (hfn : ∀ w sg sat a b, 0 < w → a < 2 ^ w → b < 2 ^ w → fn w sg sat a b = fn' w sg a b) : Lands2 i opc f fn' := by
  refine RegForm.Completes.lands (RegForm.Completes.congr h (fun x r l => congrArg (· % _) ?_))
  have hw := tyWide_cases f.mod6
  exact hfn _ _ _ _ _ (by omega) (laneVal_lt _ hw l) (laneVal_lt _ hw l)

theorem Shift2.lands {fn fn' : Nat → Nat → Nat → Nat} (h : Shift2 i opc 8 f none fn)
    (hfn : ∀ w a k, fn w a k % 2 ^ w = fn' w a k % 2 ^ w) : LandsShift i opc f fn' :=
  RegForm.Completes.lands (Shift2.congr h hfn)

theorem Int1.lands {one : Bool} {fn : Nat → Nat → Nat} (h : Int1 i opc 8 f one (fun w _ a => fn w a)) : Lands1 i opc f one fn :=
  RegForm.Completes.lands h

end

end Sys2Proof.Machine
end

section
/-!
PROOFS. IMIN, IMAX, IDIV and IREM as arithmetic on the integers that their operands stand for (R249, R252, R253).
-/

namespace Sys2Proof.Machine

/-! Numbers of w bits and the integers they stand for (R249). -/

/-- The integers that a type of w bits holds. -/
def InType (w : Nat) (sg : Bool) (x : Int) : Prop :=
  if sg then -(2 : Int) ^ (w - 1) ≤ x ∧ x < (2 : Int) ^ (w - 1) else 0 ≤ x ∧ x < (2 : Int) ^ w

theorem nat_two_pow_pred {w : Nat} (hw : 0 < w) : 2 ^ w = 2 * 2 ^ (w - 1) := by
  rw [Nat.mul_comm, Nat.two_pow_pred_mul_two hw]

theorem cast_two_pow (k : Nat) : ((2 ^ k : Nat) : Int) = (2 : Int) ^ k := Int.natCast_pow 2 k

theorem two_pow_pred {w : Nat} (hw : 0 < w) : (2 : Int) ^ w = 2 * (2 : Int) ^ (w - 1) := by
  rw [← cast_two_pow, ← cast_two_pow, nat_two_pow_pred hw, Int.natCast_mul]
  rfl

section
variable {w : Nat} (hw : 0 < w) (sg : Bool)
include hw

theorem intOf_inType {v : Nat} (hv : v < 2 ^ w) : InType w sg (intOf w sg v) := by
  have hpow := two_pow_pred hw
  have hv' : (v : Int) < (2 : Int) ^ w := by exact_mod_cast hv
  cases sg
  · exact ⟨by simp [intOf], hv'⟩
  · simp only [InType, intOf, signed, if_true]
    split
    · next hlow =>
      have : (v : Int) < (2 : Int) ^ (w - 1) := by exact_mod_cast hlow
      omega
    · next hhigh =>
      have : (2 : Int) ^ (w - 1) ≤ (v : Int) := by exact_mod_cast Nat.le_of_not_lt hhigh
      omega

theorem intOf_wrapN {x : Int} (hx : InType w sg x) : intOf w sg (wrapN w x) = x := by
  have hpow := two_pow_pred hw
  have hpos : (0 : Int) < (2 : Int) ^ (w - 1) := Int.pow_pos (by decide)
  have hcast : ((wrapN w x : Nat) : Int) = x % (2 : Int) ^ w := by
    rw [wrapN, cast_two_pow, Int.toNat_of_nonneg (Int.emod_nonneg _ (Int.ne_of_gt (Int.pow_pos (by decide))))]
  have hsplit : wrapN w x < 2 ^ (w - 1) ↔ x % (2 : Int) ^ w < (2 : Int) ^ (w - 1) := by
    rw [← hcast]
    exact_mod_cast Iff.rfl
  cases sg
  · simp only [InType, Bool.false_eq_true, if_false] at hx
    simp only [intOf, Bool.false_eq_true, if_false, hcast]
    exact Int.emod_eq_of_lt hx.1 hx.2
  · simp only [InType, if_true] at hx
    simp only [intOf, signed, if_true, hsplit, hcast]
    obtain hneg | hnn := Int.lt_or_le x 0
    · have hmod : x % (2 : Int) ^ w = x + (2 : Int) ^ w := by
        rw [← Int.add_emod_right]
        exact Int.emod_eq_of_lt (by omega) (by omega)
      rw [hmod, if_neg (by omega)]
      omega
    · rw [Int.emod_eq_of_lt hnn (by omega), if_pos hx.2]

theorem intOf_inj {a b : Nat} (ha : a < 2 ^ w) (hb : b < 2 ^ w) (h : intOf w sg a = intOf w sg b) : a = b := by
  have hpow := two_pow_pred hw
  have ha' : (a : Int) < (2 : Int) ^ w := by exact_mod_cast ha
  have hb' : (b : Int) < (2 : Int) ^ w := by exact_mod_cast hb
  cases sg
  · simp only [intOf, Bool.false_eq_true, if_false] at h
    exact Int.ofNat_inj.mp h
  · simp only [intOf, signed, if_true] at h
    split at h <;> split at h <;> omega

end

theorem intOf_zero (w : Nat) (sg : Bool) : intOf w sg 0 = 0 := by
  have hpos : 0 < 2 ^ (w - 1) := Nat.two_pow_pos _
  simp [intOf, signed]

/-- The most negative number and -1 as the numbers that hold them. -/
theorem overflow_of_intOf {w : Nat} (hw : 0 < w) {sg : Bool} {a b : Nat} (ha : intOf w sg a = -(2 : Int) ^ (w - 1))
    (hb : intOf w sg b = -1) : sg = true ∧ a = 2 ^ (w - 1) ∧ b = 2 ^ w - 1 := by
  have hpow := two_pow_pred hw
  have hpos : (0 : Int) < (2 : Int) ^ (w - 1) := Int.pow_pos (by decide)
  cases sg
  · simp only [intOf, Bool.false_eq_true, if_false] at hb
    omega
  · simp only [intOf, signed, if_true] at ha hb
    split at ha
    · omega
    · split at hb
      · omega
      · have hhalf := cast_two_pow (w - 1)
        have hfull := nat_two_pow_pred hw
        have hwhole := cast_two_pow w
        exact ⟨rfl, by omega, by omega⟩

/-! Division (R252). -/

theorem divRem_zero (w : Nat) (sg : Bool) (a : Nat) : divRem w sg a 0 = (2 ^ w - 1, a) := if_pos rfl

theorem divRem_overflow {w : Nat} (hw : 0 < w) : divRem w true (2 ^ (w - 1)) (2 ^ w - 1) = (2 ^ (w - 1), 0) := by
  have hb : 2 ^ w - 1 ≠ 0 := by
    have := Nat.one_lt_two_pow (Nat.ne_of_gt hw)
    omega
  simp [divRem, hb]

theorem divRem_quotient {w : Nat} {sg : Bool} {a b : Nat} (hb : b ≠ 0) (ho : ¬ (sg = true ∧ a = 2 ^ (w - 1) ∧ b = 2 ^ w - 1)) :
    divRem w sg a b = (wrapN w ((intOf w sg a).tdiv (intOf w sg b)), wrapN w ((intOf w sg a).tmod (intOf w sg b))) := by
  have hover : ¬ (sg && a == 2 ^ (w - 1) && b == 2 ^ w - 1) = true := by simpa [and_assoc] using ho
  rw [divRem, if_neg hb, if_neg hover, Int.tmod_def]

/-- A truncated quotient is no larger than the dividend, so it is in range but for the one that overflows. -/
theorem tdiv_inType {w : Nat} {sg : Bool} {x y : Int} (hx : InType w sg x) (hy : InType w sg y)
    (ho : ¬ (x = -(2 : Int) ^ (w - 1) ∧ y = -1)) : InType w sg (x.tdiv y) := by
  have hpos : (0 : Int) < (2 : Int) ^ (w - 1) := Int.pow_pos (by decide)
  cases sg
  · simp only [InType, Bool.false_eq_true, if_false] at hx hy ⊢
    have hle := Int.natAbs_tdiv_le_natAbs x y
    have := Int.tdiv_nonneg hx.1 hy.1
    omega
  · simp only [InType, if_true] at hx hy ⊢
    by_cases hone : y.natAbs ≤ 1
    · obtain rfl | rfl | rfl : y = -1 ∨ y = 0 ∨ y = 1 := by omega
      · rw [Int.tdiv_neg, Int.tdiv_one]
        omega
      · rw [Int.tdiv_zero]
        omega
      · rwa [Int.tdiv_one]
    · have hhalf : (x.tdiv y).natAbs ≤ x.natAbs / 2 := Int.natAbs_tdiv x y ▸ Nat.div_le_div_left (by omega) (by omega)
      omega

theorem tmod_inType {w : Nat} {sg : Bool} {x y : Int} (hx : InType w sg x) (hy : InType w sg y) (h0 : y ≠ 0) :
    InType w sg (x.tmod y) := by
  have hlt : (x.tmod y).natAbs < y.natAbs := Int.natAbs_tmod x y ▸ Nat.mod_lt _ (by omega)
  cases sg
  · simp only [InType, Bool.false_eq_true, if_false] at hx hy ⊢
    have := Int.tmod_nonneg y hx.1
    omega
  · simp only [InType, if_true] at hx hy ⊢
    omega

/-- The quotient and the remainder of two's-complement or unsigned operands, but where they overflow or the divisor is 0. -/
theorem divRem_exact {w : Nat} (hw : 0 < w) {sg : Bool} {a b : Nat} (ha : a < 2 ^ w) (hb : b < 2 ^ w) (h0 : b ≠ 0)
    (ho : ¬ (sg = true ∧ a = 2 ^ (w - 1) ∧ b = 2 ^ w - 1)) :
    intOf w sg b ≠ 0 ∧ intOf w sg (divRem w sg a b).1 = (intOf w sg a).tdiv (intOf w sg b) ∧
      intOf w sg (divRem w sg a b).2 = (intOf w sg a).tmod (intOf w sg b) := by
  have hx := intOf_inType hw sg ha
  have hy := intOf_inType hw sg hb
  have hne : intOf w sg b ≠ 0 := fun h => h0 (intOf_inj hw sg hb (Nat.two_pow_pos w) (h.trans (intOf_zero w sg).symm))
  have hover : ¬ (intOf w sg a = -(2 : Int) ^ (w - 1) ∧ intOf w sg b = -1) := fun h => ho (overflow_of_intOf hw h.1 h.2)
  rw [divRem_quotient h0 ho]
  exact ⟨hne, intOf_wrapN hw sg (tdiv_inType hx hy hover), intOf_wrapN hw sg (tmod_inType hx hy hne)⟩

theorem tmod_sign (x y : Int) : x.tmod y = 0 ∨ (x.tmod y < 0 ↔ x < 0) := by
  have hsign := Int.sign_tmod x y
  split at hsign
  · exact .inl (Int.sign_eq_zero_iff_zero.mp hsign)
  · exact .inr (by rw [← Int.sign_eq_neg_one_iff_neg, hsign, Int.sign_eq_neg_one_iff_neg])

/-! The two registers' values as one choice by ≤ (R253). -/

theorem min_by_le {w : Nat} {sg : Bool} (a b : Nat) :
    (if intOf w sg b < intOf w sg a then b else a) = if intOf w sg a ≤ intOf w sg b then a else b := by
  simp only [← Int.not_le, ite_not]

theorem max_by_le {w : Nat} (hw : 0 < w) {sg : Bool} {a b : Nat} (ha : a < 2 ^ w) (hb : b < 2 ^ w) :
    (if intOf w sg a < intOf w sg b then b else a) = if intOf w sg a ≤ intOf w sg b then b else a := by
  by_cases heq : intOf w sg a = intOf w sg b
  · rw [intOf_inj hw sg ha hb heq, ite_self, ite_self]
  · simp only [Int.le_iff_lt_or_eq, heq, or_false]

end Sys2Proof.Machine

open Sys2Proof Sys2Proof.Machine

/-- Settles O52: each instruction lands with the value it completes with; quotient and remainder are those of truncated division,
which stay in their type but where they overflow. -/
theorem minimumMaximumAndDivisionReachTheirRegister : Obligations.MinimumMaximumAndDivisionReachTheirRegister := by
  unfold Obligations.MinimumMaximumAndDivisionReachTheirRegister
  refine ⟨fun f => ⟨?imin, ?imax⟩, fun w sg a b => (divRem w sg a b).1, fun w sg a b => (divRem w sg a b).2, fun f => ⟨?idiv, ?irem⟩,
    fun w sg a b hw ha hb => ⟨?zero, ?overflow, ?exact⟩⟩
  case imin => exact (minmax_completes (mx := false) (fun _ => rfl)).lands (fun _ _ _ a b _ _ _ => min_by_le a b)
  case imax => exact (minmax_completes (mx := true) (fun _ => rfl)).lands (fun _ _ _ _ _ hw ha hb => max_by_le hw ha hb)
  case idiv => exact (div_completes (rem := false) (fun _ => rfl)).lands (fun _ _ _ _ _ _ _ _ => rfl)
  case irem => exact (div_completes (rem := true) (fun _ => rfl)).lands (fun _ _ _ _ _ _ _ _ => rfl)
  case zero =>
    rintro rfl
    simp only [divRem_zero, and_self]
  case overflow =>
    rintro rfl rfl rfl
    have hpos : 0 < w := by omega
    simp only [divRem_overflow hpos, and_self]
  case exact =>
    intro h0 ho
    obtain ⟨hne, hq, hr⟩ := divRem_exact (by omega) ha hb h0 ho
    rw [hq, hr]
    exact ⟨(Int.mul_tdiv_add_tmod _ _).symm, Int.natAbs_tmod _ _ ▸ Nat.mod_lt _ (by omega), tmod_sign _ _⟩
end

section
/-!
PROOFS. The shifts and the single-source bit instructions bit by bit (R259, R261).
-/

namespace Sys2Proof.Machine

/-! SAR and ROL. -/

theorem signed_eq_toInt {w a : Nat} (hw : 0 < w) (ha : a < 2 ^ w) : signed w a = (BitVec.ofNat w a).toInt := by
  have hpow := nat_two_pow_pred hw
  have hlow : 2 * a < 2 ^ w ↔ a < 2 ^ (w - 1) := by omega
  rw [BitVec.toInt_eq_toNat_cond, BitVec.toNat_ofNat, Nat.mod_eq_of_lt ha, signed]
  simp only [hlow]
  push_cast
  rfl

/-- SAR is the arithmetic shift of its operand's bits, by no more than leaves the sign. -/
theorem sar_eq_sshiftRight {w a : Nat} (hw : 0 < w) (ha : a < 2 ^ w) (k : Nat) :
    shiftVal 2 w a k = ((BitVec.ofNat w a).sshiftRight (min k (w - 1))).toNat := by
  simp only [shiftVal, wrapN, signed_eq_toInt hw ha, BitVec.sshiftRight, BitVec.toNat_ofInt, Int.shiftRight_eq_div_pow]
  push_cast
  rfl

theorem sar_testBit {w a k i : Nat} (ha : a < 2 ^ w) (hi : i < w) :
    (shiftVal 2 w a k).testBit i = if i + k < w then a.testBit (i + k) else a.testBit (w - 1) := by
  rw [sar_eq_sshiftRight (by omega) ha, BitVec.testBit_toNat, BitVec.getLsbD_sshiftRight, BitVec.msb_eq_getLsbD_last,
    BitVec.getLsbD_ofNat, BitVec.getLsbD_ofNat, decide_eq_false (Nat.not_le_of_lt hi), decide_eq_true (Nat.sub_one_lt_of_lt hi),
    Bool.not_false, Bool.true_and, Bool.true_and]
  by_cases hk : k < w
  · rw [Nat.min_eq_left (by omega), Nat.add_comm k i]
    split
    · next hin => rw [decide_eq_true hin, Bool.true_and]
    · rfl
  · rw [Nat.min_eq_right (by omega), if_neg (by omega : ¬ i + k < w)]
    split
    · next hin =>
      obtain rfl : i = 0 := by omega
      rw [Nat.add_zero, decide_eq_true (Nat.sub_one_lt_of_lt hi), Bool.true_and]
    · rfl

theorem rol_testBit {w a k i : Nat} (ha : a < 2 ^ w) (hi : i < w) : (shiftVal 3 w a k).testBit ((i + k) % w) = a.testBit i := by
  have hr : k % w < w := Nat.mod_lt _ (by omega)
  rw [← Nat.add_mod_mod]
  simp only [shiftVal]
  generalize k % w = r at hr ⊢
  rw [Nat.testBit_mod_two_pow, decide_eq_true (Nat.mod_lt _ (by omega)), Bool.true_and, Nat.testBit_or, Nat.testBit_shiftLeft,
    Nat.testBit_shiftRight]
  by_cases hwrap : i + r < w
  · have hout : a.testBit (w - r + (i + r)) = false := Nat.testBit_lt_two_pow (Nat.lt_of_lt_of_le ha (Nat.pow_le_pow_right (by omega) (by omega)))
    rw [Nat.mod_eq_of_lt hwrap, hout, Bool.or_false, decide_eq_true (by omega), Bool.true_and, Nat.add_sub_cancel]
  · have hj : (i + r) % w = i + r - w := by rw [Nat.mod_eq_sub_mod (by omega), Nat.mod_eq_of_lt (by omega)]
    rw [hj, decide_eq_false (by omega), Bool.false_and, Bool.false_or]
    congr 1
    omega

/-! CLZ and CTZ: the first set bit from the top or from the bottom. -/

theorem two_pow_dvd_of_testBit {a i : Nat} (h : ∀ j < i, a.testBit j = false) : 2 ^ i ∣ a := by
  refine Nat.dvd_of_mod_eq_zero (Nat.eq_of_testBit_eq (fun j => ?_))
  rw [Nat.testBit_mod_two_pow, Nat.zero_testBit]
  by_cases hj : j < i
  · rw [h j hj, Bool.and_false]
  · rw [decide_eq_false hj, Bool.false_and]

/-- A number of w bits that is not 0 has a bit set. -/
theorem exists_testBit {w a : Nat} (h0 : a ≠ 0) (ha : a < 2 ^ w) : ∃ i < w, a.testBit i = true := by
  obtain ⟨i, hi⟩ := Nat.exists_testBit_of_ne_zero h0
  refine ⟨i, Nat.lt_of_not_le (fun hwi => ?_), hi⟩
  rw [Nat.testBit_lt_two_pow (Nat.lt_of_lt_of_le ha (Nat.pow_le_pow_right (by omega) hwi))] at hi
  nomatch hi

theorem find?_range_false {w : Nat} {p : Nat → Bool} (h : ∀ i, p i = false) : ((List.range w).find? p).getD w = w := by
  rw [List.find?_eq_none.mpr (fun i _ => by simp [h i]), Option.getD_none]

theorem clzVal_zero (w : Nat) : clzVal w 0 = w := find?_range_false (fun _ => Nat.zero_testBit _)

theorem ctzVal_zero (w : Nat) : ctzVal w 0 = w := find?_range_false Nat.zero_testBit

/-- The lowest number below w of which a test holds, where it holds of one. -/
theorem find?_range_spec {w : Nat} {p : Nat → Bool} (h : ∃ i < w, p i = true) :
    let n := ((List.range w).find? p).getD w
    n < w ∧ p n = true ∧ ∀ j < n, p j = false := by
  cases hf : (List.range w).find? p with
  | none =>
    obtain ⟨i, hi, hp⟩ := h
    exact absurd hp (by simpa using List.find?_eq_none.mp hf i (List.mem_range.mpr hi))
  | some n =>
    obtain ⟨hp, hn, hlow⟩ := List.find?_range_eq_some.mp hf
    exact ⟨List.mem_range.mp hn, hp, fun j hj => by simpa using hlow j hj⟩

theorem clzVal_spec {w a : Nat} (h0 : a ≠ 0) (ha : a < 2 ^ w) :
    2 ^ (w - 1 - clzVal w a) ≤ a ∧ a < 2 ^ (w - clzVal w a) ∧ clzVal w a < w := by
  obtain ⟨i, hi, hbit⟩ := exists_testBit h0 ha
  have htop : a.testBit (w - 1 - (w - 1 - i)) = true := by rwa [show w - 1 - (w - 1 - i) = i by omega]
  obtain ⟨hlt, hbit, habove⟩ := find?_range_spec (w := w) (p := fun i => a.testBit (w - 1 - i)) ⟨w - 1 - i, by omega, htop⟩
  refine ⟨Nat.ge_two_pow_of_testBit hbit, Nat.lt_pow_two_of_testBit _ (fun m hm => ?_), hlt⟩
  by_cases hmw : m < w
  · have := habove (w - 1 - m) (by unfold clzVal at hm; omega)
    rwa [show w - 1 - (w - 1 - m) = m by omega] at this
  · exact Nat.testBit_lt_two_pow (Nat.lt_of_lt_of_le ha (Nat.pow_le_pow_right (by omega) (by omega)))

theorem ctzVal_spec {w a : Nat} (h0 : a ≠ 0) (ha : a < 2 ^ w) : a.testBit (ctzVal w a) = true ∧ 2 ^ ctzVal w a ∣ a := by
  obtain ⟨-, hbit, hbelow⟩ := find?_range_spec (exists_testBit h0 ha)
  exact ⟨hbit, two_pow_dvd_of_testBit hbelow⟩

/-! BREV: each set bit of the operand adds its mirror image. -/

/-- What the n lowest bits of an operand have added. -/
def mirrored (w a n : Nat) : Nat := (List.range n).foldl (fun v i => if a.testBit i then v + 2 ^ (w - 1 - i) else v) 0

theorem mirrored_succ (w a n : Nat) :
    mirrored w a (n + 1) = if a.testBit n then mirrored w a n + 2 ^ (w - 1 - n) else mirrored w a n := by
  rw [mirrored, List.range_succ, List.foldl_append, List.foldl_cons, List.foldl_nil, ← mirrored]

theorem mirrored_testBit {w a n : Nat} (hn : n ≤ w) (m : Nat) :
    (mirrored w a n).testBit m = (decide (w - n ≤ m ∧ m < w) && a.testBit (w - 1 - m)) := by
  induction n generalizing m with
  | zero =>
    rw [decide_eq_false (by omega), Bool.false_and]
    exact Nat.zero_testBit m
  | succ n ih =>
    specialize ih (by omega)
    have hlow : ∀ j < w - n, (mirrored w a n).testBit j = false := fun j hj => by
      rw [ih, decide_eq_false (by omega), Bool.false_and]
    obtain ⟨q, hq⟩ := two_pow_dvd_of_testBit hlow
    have hadd : mirrored w a n + 2 ^ (w - 1 - n) = mirrored w a n ||| 2 ^ (w - 1 - n) := by
      rw [hq]
      exact Nat.two_pow_add_eq_or_of_lt (Nat.pow_lt_pow_right (by omega) (by omega)) q
    rw [mirrored_succ, hadd]
    by_cases hm : m = w - 1 - n
    · subst hm
      have hbit : w - 1 - (w - 1 - n) = n := by omega
      rw [hbit, decide_eq_true (by omega), Bool.true_and]
      split
      · next h => rw [Nat.testBit_or, Nat.testBit_two_pow_self, Bool.or_true, h]
      · next h => rw [hlow _ (by omega), Bool.eq_false_iff.mpr h]
    · have hsame : decide (w - (n + 1) ≤ m ∧ m < w) = decide (w - n ≤ m ∧ m < w) := decide_eq_decide.mpr (by omega)
      rw [hsame, ← ih]
      split
      · rw [Nat.testBit_or, Nat.testBit_two_pow_of_ne (Ne.symm hm), Bool.or_false]
      · rfl

theorem brevVal_testBit {w a i : Nat} (hi : i < w) : (brevVal w a).testBit (w - 1 - i) = a.testBit i := by
  have h := mirrored_testBit (a := a) (Nat.le_refl w) (w - 1 - i)
  rw [decide_eq_true (by omega), Bool.true_and, show w - 1 - (w - 1 - i) = i by omega] at h
  exact h

end Sys2Proof.Machine

open Sys2Proof Sys2Proof.Machine

/-- Settles O53: each instruction lands with the value it completes with, and these values are the rule's bit by bit. -/
theorem shiftsAndBitCountsReachTheirRegister : Obligations.ShiftsAndBitCountsReachTheirRegister := by
  unfold Obligations.ShiftsAndBitCountsReachTheirRegister
  refine ⟨shiftVal 2, shiftVal 3, popcVal, clzVal, ctzVal, brevVal, fun f => ⟨?shl, ?shr, ?sar, ?rol, ?popc, ?clz, ?ctz, ?brev⟩,
    fun w a k _ ha _ => ⟨fun i hi => sar_testBit ha hi, fun i hi => rol_testBit ha hi, rfl, ?zero, fun h0 => clzVal_spec h0 ha,
      fun h0 => ctzVal_spec h0 ha, fun i hi => brevVal_testBit hi⟩⟩
  case shl =>
    refine (shl_completes (fun _ => rfl)).lands (fun w a k => ?_)
    split
    · exact (Nat.mod_mod _ _).symm
    · rfl
  case shr => exact (shr_completes (fun _ => rfl)).lands (fun _ _ _ => rfl)
  case sar | rol => exact (shift_completes (fun _ => rfl)).lands (fun _ _ _ => rfl)
  case popc | clz | ctz | brev => exact (int1_completes_plain (fun _ => rfl)).lands
  case zero =>
    rintro rfl
    exact ⟨clzVal_zero w, ctzVal_zero w⟩
end

section
/-!
PROOFS. The affine results of R248, and the general ones.
-/

namespace Sys2Proof.Machine

theorem Opd.uniform_of_affOf {a : Opd} {p : Word × Word} (hu : a.isU = true) (hp : affOf a.sh = some p) :
    a.sh = .u p.1 ∧ p.2 = 0 := by
  obtain ⟨v, hv⟩ := isU_iff hu
  rw [hv] at hp
  cases hp
  exact ⟨hv, rfl⟩

theorem natShape_general {x : Cx} {os : List Opd} (f : Nat → Word) (h : os.all (·.isU) = false) (hw : 1 < x.c.w) :
    ∃ ws, natShape x os f = .g ws := by
  rw [natShape, h, if_neg Bool.false_ne_true]
  exact normShape_gen_isG f hw

theorem mkAff_zero {b st : Word} (h : st = 0) : mkAff b st = .u b := if_pos h

/-! The words of the forms where both sources are one register. -/

section
variable {f : L3} {x : Cx} {a b : Opd} {fn : Nat → Bool → Bool → Nat → Nat → Nat} {aff : Shape → Shape → Option Shape}
  (hw : tyWide f.mod6 = 32) (hs : tySat f.mod6 = false)
include hw hs

theorem int2Res_affine {sh : Shape} (h : aff a.sh b.sh = some sh) : int2Res f none fn aff x [[a], [b]] = [sh] := by
  simp only [int2Res, ab, nthRun, List.getD_cons_zero, List.getD_cons_succ, hw, hs, h]

theorem int2Res_plain (h : aff a.sh b.sh = none) : int2Res f none fn aff x [[a], [b]] =
    [natShape x [a, b] (fun l => BitVec.ofNat 32 (fn 32 (tySigned f.mod6) false (a.at l).toNat (b.at l).toNat))] := by
  simp only [int2Res, ab, nthRun, List.getD_cons_zero, List.getD_cons_succ, hw, hs, h]
  rfl

omit hw hs in
/-- A lane-wise word of two U sources is U (R214). -/
theorem natShape_uniform {v u : Word} (ha : a.sh = .u v) (hb : b.sh = .u u) (g : Word → Word → Word) :
    natShape x [a, b] (fun l => g (a.at l) (b.at l)) = .u (g v u) := by
  simp only [natShape, List.all_cons, List.all_nil, Opd.isU, Opd.at, ha, hb]
  rfl

/-- IMUL of an affine source by a U (R248). -/
theorem mulRes_uniform {p q : Word × Word} (hp : affOf a.sh = some p) (hq : affOf b.sh = some q) (hu : b.isU = true) :
    int2Res f none (fun w _ _ a b => a * b % 2 ^ w) mulAff x [[a], [b]] = [mkAff (p.1 * q.1) (p.2 * q.1)] := by
  obtain ⟨hb, -⟩ := Opd.uniform_of_affOf hu hq
  cases ha : a.sh with
  | u v =>
    rw [ha] at hp
    cases hp
    have hword : ∀ c d : Word, BitVec.ofNat 32 (c.toNat * d.toNat % 2 ^ 32) = c * d := fun c d => by
      rw [← BitVec.toNat_mul, BitVec.ofNat_toNat, BitVec.setWidth_eq]
    rw [int2Res_plain hw hs (by rw [ha, hb]; rfl), mkAff_zero (word_zero_mul q.1)]
    simp only [hword]
    rw [natShape_uniform ha hb (· * ·)]
  | a base stride =>
    rw [ha] at hp
    cases hp
    exact int2Res_affine hw hs (by rw [ha, hb]; rfl)
  | g ws => rw [ha] at hp; nomatch hp

/-- IMUL of a U by an affine source (R248). -/
theorem mulRes_uniform_left {p q : Word × Word} (hp : affOf a.sh = some p) (hq : affOf b.sh = some q) (hu : a.isU = true) :
    int2Res f none (fun w _ _ a b => a * b % 2 ^ w) mulAff x [[a], [b]] = [mkAff (p.1 * q.1) (q.2 * p.1)] := by
  obtain ⟨ha, hp0⟩ := Opd.uniform_of_affOf hu hp
  cases hb : b.sh with
  | u v =>
    have hbu : b.isU = true := by simp only [Opd.isU, hb]
    rw [mulRes_uniform hw hs hp hq hbu, hp0, (Opd.uniform_of_affOf hbu hq).2, word_zero_mul, word_zero_mul]
  | a base stride =>
    rw [hb] at hq
    cases hq
    exact int2Res_affine hw hs (by rw [ha, hb, BitVec.mul_comm p.1]; rfl)
  | g ws => rw [hb] at hq; nomatch hq

omit hs in
/-- SHL of an affine source by a U below 32 (R248). -/
theorem shlRes_uniform {p q : Word × Word} (hp : affOf a.sh = some p) (hq : affOf b.sh = some q) (hu : b.isU = true)
    (hk : q.1.toNat < 32) : shiftRes 0 f none x [[a], [b]] = [mkAff (p.1 <<< q.1.toNat) (p.2 <<< q.1.toNat)] := by
  obtain ⟨hb, -⟩ := Opd.uniform_of_affOf hu hq
  cases ha : a.sh with
  | u v =>
    rw [ha] at hp
    cases hp
    have hword : ∀ c d : Word, d.toNat < 32 → BitVec.ofNat 32 (shiftVal 0 32 c.toNat d.toNat) = c <<< d.toNat := fun c d hd => by
      rw [shiftVal, if_pos hd, ← BitVec.toNat_shiftLeft, BitVec.ofNat_toNat, BitVec.setWidth_eq]
    rw [mkAff_zero (st := (0 : Word) <<< q.1.toNat) (BitVec.zero_shiftLeft _), ← hword _ _ hk,
      ← natShape_uniform (x := x) ha hb (fun c d => BitVec.ofNat 32 (shiftVal 0 32 c.toNat d.toNat))]
    simp only [shiftRes, ab, nthRun, List.getD_cons_zero, List.getD_cons_succ, hw, ha]
    rfl
  | a base stride =>
    rw [ha] at hp
    cases hp
    simp only [shiftRes, ab, nthRun, List.getD_cons_zero, List.getD_cons_succ, hw, ha, hb, if_pos hk]
  | g ws => rw [ha] at hp; nomatch hp

/-- The affine case of INEG (R248). -/
def negAff (sh : Shape) : Option Shape := (affOf sh).map (fun p => mkAff (-p.1) (-p.2))

/-- INEG of an affine source (R248). -/
theorem negRes_affine {fn : Nat → Bool → Nat → Nat} {p : Word × Word} (hp : affOf a.sh = some p) :
    int1Res f 1 fn negAff x [[a]] = [mkAff (-p.1) (-p.2)] := by
  simp only [int1Res, nthRun, List.getD_cons_zero, hw, hs, negAff, hp, Option.map_some]

end

/-- IMAD.lo of an affine source by a U (R248). -/
theorem imadAff_uniform {a b o : Shape} {p e : Word × Word} {v : Word} (hp : affOf a = some p) (hb : b = .u v) (he : affOf o = some e) :
    imadAff a b o = some (mkAff (p.1 * v + e.1) (p.2 * v + e.2)) := by
  subst hb
  cases a with
  | u u =>
    cases hp
    simp only [imadAff, he, word_zero_mul, word_zero_add]
  | a base stride =>
    cases hp
    simp only [imadAff, he]
  | g ws => nomatch hp

/-- IMAD.lo of a U by an affine source (R248). -/
theorem imadAff_uniform_left {a b o : Shape} {q e : Word × Word} {v : Word} (ha : a = .u v) (hq : affOf b = some q) (he : affOf o = some e) :
    imadAff a b o = some (mkAff (v * q.1 + e.1) (q.2 * v + e.2)) := by
  subst ha
  cases b with
  | u u =>
    cases hq
    simp only [imadAff, he, word_zero_mul, word_zero_add]
  | a base stride =>
    cases hq
    simp only [imadAff, he, BitVec.mul_comm v]
  | g ws => nomatch hq

theorem imadRes_affine {f : L3} {x : Cx} {a b o : Opd} {sh : Shape} (ht : f.mod6.toNat % 4 = 0)
    (h : imadAff a.sh b.sh o.sh = some sh) : imadRes f x [[a], [b], [o]] = [sh] := by
  simp only [imadRes, nthRun, List.getD_cons_zero, List.getD_cons_succ, ht, h]

/-! What exec answers for them. -/

/-- What IADD may have as TY and no SAT, IMUL and SHL may have (R244, R245). -/
theorem intLegal_mul {m6 : BitVec 6} : intLegal 0x00 m6 = true → tySat m6 = false → intLegal 0x04 m6 = true := by
  revert m6
  decide

section
variable {i : Instr} {opc : Nat} {f : L3} {s : State} {x : Cx} {a b : Opd} {fn : Nat → Bool → Bool → Nat → Nat → Nat}
  {aff : Shape → Shape → Option Shape}

theorem int2_exec (he : ∀ s, exec i s = issue s opc 8 f.g (int2 opc f none fn aff)) (hx : s.issueCx opc 8 f.g = some x)
    (hl : intLegal opc f.mod6 = true) (hw : tyWide f.mod6 = 32) (hd : dstCheck x.c f.dst 1 true = .ok ())
    {r : List (List Opd)} (hr : x.fetch (srcsAB f 1 1 none) = .ok r) :
    exec i s = .next ((x.writeResult f.dst f.ocw (some 0) (srcsAB f 1 1 none) (int2Res f none fn aff x r)).finish x) := by
  rw [he]
  refine issue_ok hx ?_
  simp only [int2, hw]
  exact aluBody_ok hl hd hr

theorem int2_general (he : ∀ s, exec i s = issue s opc 8 f.g (int2 opc f none fn noAff)) (hl : intLegal opc f.mod6 = true)
    (hw : tyWide f.mod6 = 32) (hs : tySat f.mod6 = false) (hd : dstCheck x.c f.dst 1 true = .ok ())
    (hr : x.fetch (srcsAB f 1 1 none) = .ok [[a], [b]]) (hu : a.isU = false ∨ b.isU = false) (hc : 1 < x.c.w)
    (hx : s.issueCx opc 8 f.g = some x) :
    ∃ ws, exec i s = .next ((x.writeResult f.dst f.ocw (some 0) (srcsAB f 1 1 none) [.g ws]).finish x) := by
  have hall : [a, b].all (·.isU) = false := by
    obtain h | h := hu <;> simp [h]
  rw [int2_exec he hx hl hw hd hr, int2Res_plain hw hs rfl]
  obtain ⟨ws, hws⟩ := natShape_general _ hall hc
  exact ⟨ws, by rw [hws]⟩

end

theorem shl_exec {f : L3} {s : State} {x : Cx} {r : List (List Opd)} (hx : s.issueCx 0x12 8 f.g = some x)
    (hl : intLegal 0x12 f.mod6 = true) (hw : tyWide f.mod6 = 32) (hd : dstCheck x.c f.dst 1 true = .ok ())
    (hr : x.fetch (srcsAB f 1 1 none) = .ok r) :
    exec (.shl f) s = .next ((x.writeResult f.dst f.ocw (some 0) (srcsAB f 1 1 none) (shiftRes 0 f none x r)).finish x) := by
  refine issue_ok (body := shiftBody 0 0x12 f none) hx ?_
  simp only [shiftBody, hw]
  exact aluBody_ok hl hd hr

theorem neg_exec {f : L3} {s : State} {x : Cx} {r : List (List Opd)} (hx : s.issueCx 0x09 8 f.g = some x)
    (hl : intLegal 0x09 f.mod6 = true) (hw : tyWide f.mod6 = 32) (hd : dstCheck x.c f.dst 1 true = .ok ())
    (hr : x.fetch [{ f.srcA with k := 1 }] = .ok r) :
    exec (.ineg f) s = .next ((x.writeResult f.dst f.ocw (some 0) [{ f.srcA with k := 1 }]
      (int1Res f 1 (fun w sat a => narrow w true sat (-(signed w a))) negAff x r)).finish x) := by
  refine issue_ok (body := negBody f) hx ?_
  simp only [negBody, int1, hw]
  exact aluBody_ok hl hd hr

theorem imad_exec {f : L3} {s : State} {x : Cx} {d : Src} {r : List (List Opd)} (ht : f.mod6.toNat % 4 = 0)
    (hl : intLegal 0x06 f.mod6 = true) (hc : f.srcC = some d) (hd : dstCheck x.c f.dst 1 true = .ok ())
    (hx : s.issueCx 0x06 8 f.g = some x) (hr : x.fetch [f.srcA, f.srcB, { d with k := 1 }] = .ok r) :
    exec (.imad f) s = .next ((x.writeResult f.dst f.ocw (some 0) [f.srcA, f.srcB, { d with k := 1 }] (imadRes f x r)).finish x) := by
  have hk : imadWide f.mod6 = false := by rw [imadWide, ht]; rfl
  refine issue_ok (body := imadBody f) hx ?_
  simp only [imadBody, hk, Bool.false_eq_true, if_false, three, needInsn_of hl, hd, hc, beq_self_eq_true, Bool.true_or, needOpnd_of, hr, bind_ok]
  rfl

end Sys2Proof.Machine

open Sys2Proof Sys2Proof.Machine

/-- Settles O55: the affine cases by what each form's words are for such sources; a form with no affine case is lane by lane, and G
where a source is not U. -/
theorem affineResults : Obligations.AffineResults := by
  unfold Obligations.AffineResults
  intro f s x a b p q hp hq hd two one done
  refine ⟨fun o e d ht hl hc he hx hr => ⟨fun hu => ?imad, fun hu => ?imadLeft⟩, fun hw hs hl =>
    ⟨fun hr => ⟨fun hx => ?iadd, fun hx => ?isub, fun hx hu => ?imul, fun hx hu => ?imulLeft, fun hx hu hk => ?shl⟩,
      fun hr hx hn => ?ineg, fun hr hu hc hm => ?general⟩⟩
  case imad =>
    rw [imad_exec ht hl hc hd hx hr, imadRes_affine ht (imadAff_uniform hp (Opd.uniform_of_affOf hu hq).1 he)]
    rfl
  case imadLeft =>
    rw [imad_exec ht hl hc hd hx hr, imadRes_affine ht (imadAff_uniform_left (Opd.uniform_of_affOf hu hp).1 hq he)]
    rfl
  case iadd =>
    rw [int2_exec (aff := addAff false) (fun _ => rfl) hx hl hw hd hr, int2Res_affine hw hs (addAff_some hp hq)]
    rfl
  case isub =>
    rw [int2_exec (aff := addAff true) (fun _ => rfl) hx hl hw hd hr, int2Res_affine hw hs (addAff_some hp hq)]
    rfl
  case imul =>
    rw [int2_exec (aff := mulAff) (fun _ => rfl) hx (intLegal_mul hl hs) hw hd hr, mulRes_uniform hw hs hp hq hu]
    rfl
  case imulLeft =>
    rw [int2_exec (aff := mulAff) (fun _ => rfl) hx (intLegal_mul hl hs) hw hd hr, mulRes_uniform_left hw hs hp hq hu]
    rfl
  case shl =>
    rw [shl_exec hx (intLegal_mul hl hs) hw hd hr, shlRes_uniform hw hp hq hu hk]
    rfl
  case ineg =>
    rw [neg_exec hx hn hw hd hr, negRes_affine hw hs hp]
    rfl
  case general =>
    simp only [List.forall_mem_cons]
    refine ⟨?_, ?_, ?_, ?_, ?_, ?_, ?_, ?_, ?_, fun _ h => nomatch h⟩
    all_goals exact int2_general (fun _ => rfl) hm hw hs hd hr hu hc
end

section
/-!
PROOFS. The floating-point instructions and conversions (R268, R272 to R284): the values that each form's result holds in every
lane, and the flags that it raises.
-/

namespace Sys2Proof.Machine

/-! The shared body where no enabled flag is raised (R273, R274). -/

theorem arith_ok {x : Cx} {fl : Nat → Fl} {can : Fl} (h : x.raised fl &&& x.enabled can = 0) : x.arith fl can = .ok (x.raised fl) :=
  if_pos h

theorem fpBody_ok {legal : Bool} {dst : Desig} {kd : Nat} {ocw : BitVec 4} {latch : Nat} {srcs : List Src} {can : Fl}
    {fn : Cx → List (List Opd) → Nat → Nat × Fl} {x : Cx} {r : List (List Opd)} (hl : legal = true)
    (hd : dstCheck x.c dst kd true = .ok ()) (hr : x.fetch srcs = .ok r)
    (hraise : x.raised (fun l => (fn x r l).2) &&& x.enabled can = 0) :
    fpBody legal dst kd ocw latch srcs can none fn x =
      .ok (let o := x.writeResult dst ocw (some latch) srcs (laneShapes x r.flatten kd (fun l => (fn x r l).1))
        { o with c := o.c.orFlags (x.raised (fun l => (fn x r l).2)) }) := by
  simp only [fpBody, needInsn_of hl, hd, hr, arith_ok hraise, bind_ok]
  rfl

/-- A floating-point form completes with its lane-wise values, which U sources make the same in every lane. -/
theorem fp_completes {m : RegForm} {i : Instr} {can : Fl} {fn : Cx → List (List Opd) → Nat → Nat × Fl}
    (he : ∀ s, exec i s = issue s m.opc m.len m.g (fpBody m.legal m.dst m.k m.ocw m.latch m.srcs can none fn))
    (hk : m.k = 1 ∨ m.k = 2) (hu : ∀ x r, r.flatten.all (·.isU) = true → ∀ l l', fn x r l = fn x r l') : m.FpCompletes i can fn := by
  intro s x r hx hl hd hr hraise
  exact ⟨_, (he s).trans (issue_ok hx (fpBody_ok hl hd hr hraise)),
    laneShapes_isResult hk (fun h l l' => congrArg Prod.fst (hu x r h l l'))⟩

theorem ftOf_k (t : Nat) : (ftOf t).k = 1 ∨ (ftOf t).k = 2 := by
  unfold ftOf
  split <;> simp

theorem fmtRegs_cases (t : Fmt) : fmtRegs t = 1 ∨ fmtRegs t = 2 := by
  unfold fmtRegs
  split <;> simp

theorem ab_uniform {r : List (List Opd)} {imm : Option Word} (h : r.flatten.all (·.isU) = true) (w l l' : Nat) :
    laneVal (ab r imm).1 w l = laneVal (ab r imm).1 w l' ∧ laneVal (ab r imm).2 w l = laneVal (ab r imm).2 w l' := by
  have hall := ab_isU (imm := imm) h
  rw [List.all_append, Bool.and_eq_true] at hall
  exact ⟨laneVal_isU hall.1 w l l', laneVal_isU hall.2 w l l'⟩

/-! Arithmetic element by element, and the forms of one source (R276, R277, R281). -/

section
variable {i : Instr} {opc len : Nat} {f : L3}

theorem fp2_completes {op : Fmt → Nat → Nat → Nat → Nat × Fl} (he : ∀ s, exec i s = issue s opc len f.g (f2Body opc f op)) :
    Fp2 i opc len f op :=
  fp_completes he (ftOf_k _) (fun x r hu l l' => by
    simp only [laneVal_isU (nthRun_isU hu 0) _ l l', laneVal_isU (nthRun_isU hu 1) _ l l'])

theorem fp1_completes {k : Nat} {op : Fmt → Nat → Nat → Nat × Fl} (he : ∀ s, exec i s = issue s opc len f.g (f1Body opc f k 1 canAll none op))
    (hk : k = 1 ∨ k = 2) : Fp1 i opc len f k op :=
  fp_completes he hk (fun x r hu l l' => by simp only [fp1Val, laneVal_isU (nthRun_isU hu 0) _ l l'])

theorem fpScale_completes {imm : Option Word} (he : ∀ s, exec i s = issue s 0x41 len f.g (fscaleBody f imm)) : FpScale i len f imm :=
  fp_completes he (ftOf_k _) (fun x r hu l l' => by
    simp only [(ab_uniform (imm := imm) hu _ l l').1, (ab_uniform (imm := imm) hu _ l l').2])

/-! Conversions (R282 to R284). -/

theorem regs_of_width (p : Prop) [Decidable p] : (if p then 32 else 64) / 32 = if p then 1 else 2 := by split <;> rfl

theorem regs_cases (p : Prop) [Decidable p] : (if p then 1 else 2) = 1 ∨ (if p then 1 else 2) = 2 := by split <;> simp

theorem fpToInt_completes (he : ∀ s, exec i s = issue s 0x3F len f.g (f2iBody f)) : FpToInt i len f := by
  simp only [f2iBody, regs_of_width] at he
  exact fp_completes he (regs_cases _) (fun x r hu l l' => by simp only [laneVal_isU (nthRun_isU hu 0) _ l l'])

theorem fpOfInt_completes (he : ∀ s, exec i s = issue s 0x40 len f.g (i2fBody f)) : FpOfInt i len f := by
  simp only [i2fBody, regs_of_width] at he
  exact fp_completes he (ftOf_k _) (fun x r hu l l' => by simp only [laneVal_isU (nthRun_isU hu 0) _ l l'])

theorem fpConvert_completes (he : ∀ s, exec i s = issue s 0x3E len f.g (fcvtBody f)) : FpConvert i len f := by
  refine ⟨fun hform => ?convert, fun hform => ?pack⟩
  case convert =>
    simp only [fcvtBody, if_pos hform] at he
    exact fp_completes he (fmtRegs_cases _) (fun x r hu l l' => by simp only [laneVal_isU (nthRun_isU hu 0) _ l l'])
  case pack =>
    simp only [fcvtBody, if_neg (Nat.not_lt.mpr hform)] at he
    exact fp_completes he (.inl rfl) (fun x r hu l l' => by
      simp only [laneVal_isU (nthRun_isU hu 0) _ l l', laneVal_isU (nthRun_isU hu 1) _ l l'])

/-! The three-source forms (R278, R279). -/

/-- The value and flags that a three-source form gives a lane. -/
def fp3Val (k : Nat) (fn : Nat → Nat → Nat → Nat × Fl) (r : List (List Opd)) (l : Nat) : Nat × Fl :=
  fn (laneVal (nthRun r 0) (32 * k) l) (laneVal (nthRun r 1) (32 * k) l) (laneVal (nthRun r 2) (32 * k) l)

theorem fp3Val_isU {k : Nat} {fn : Nat → Nat → Nat → Nat × Fl} {r : List (List Opd)} (hu : r.flatten.all (·.isU) = true) (l l' : Nat) :
    fp3Val k fn r l = fp3Val k fn r l' := by
  simp only [fp3Val, laneVal_isU (nthRun_isU hu 0) _ l l', laneVal_isU (nthRun_isU hu 1) _ l l', laneVal_isU (nthRun_isU hu 2) _ l l']

theorem fp3Body_ok {legal : Bool} {k : Nat} {can : Fl} {raises : Bool} {fn : Nat → Nat → Nat → Nat × Fl} {x : Cx} {r : List (List Opd)}
    (hl : (L3Form3 opc len 1 legal f k k k).legal = true) (hd : dstCheck x.c f.dst k true = .ok ())
    (hr : x.fetch (L3Form3 opc len 1 legal f k k k).srcs = .ok r)
    (hraise : x.raised (fun l => (fp3Val k fn r l).2) &&& x.enabled can = 0) :
    fp3Body legal f k can raises fn x =
      .ok (let o := x.writeResult f.dst f.ocw (some 1) (L3Form3 opc len 1 legal f k k k).srcs
                (laneShapes x r.flatten k (fun l => (fp3Val k fn r l).1))
        { o with c := if raises then o.c.orFlags (x.raised (fun l => (fp3Val k fn r l).2)) else o.c }) := by
  simp only [L3Form3, Bool.and_eq_true, Option.isSome_iff_exists] at hl
  obtain ⟨⟨hl, c, hc⟩, hkc⟩ := hl
  simp only [L3Form3, hc, List.cons_append, List.nil_append] at hr ⊢
  simp only [fp3Val] at hraise ⊢
  simp only [fp3Body, needInsn_of hl, hd, hc, needOpnd_of hkc, hr, arith_ok hraise, bind_ok]
  rfl

theorem fma_completes {legal : Bool} {k : Nat} {can : Fl} {fn : Nat → Nat → Nat → Nat × Fl}
    (he : ∀ s, exec i s = issue s opc len f.g (fp3Body legal f k can true fn)) (hk : k = 1 ∨ k = 2) :
    (L3Form3 opc len 1 legal f k k k).FpCompletes i can (fun _ r l => fp3Val k fn r l) := by
  intro s x r hx hl hd hr hraise
  exact ⟨_, (he s).trans (issue_ok hx (fp3Body_ok hl hd hr hraise)),
    laneShapes_isResult hk (fun hu l l' => congrArg Prod.fst (fp3Val_isU hu l l'))⟩

/-- A three-source form that raises no flags completes whatever FPCTL enables. -/
theorem dot_completes {legal : Bool} {k : Nat} {fn : Nat → Nat → Nat → Nat × Fl}
    (he : ∀ s, exec i s = issue s opc len f.g (fp3Body legal f k 0 false fn)) (hk : k = 1 ∨ k = 2) :
    (L3Form3 opc len 1 legal f k k k).Completes i (fun _ r l => (fp3Val k fn r l).1) := by
  intro s x r hx hl hd hr
  have hnone : x.raised (fun l => (fp3Val k fn r l).2) &&& x.enabled 0 = 0 := by simp [Cx.enabled]
  exact ⟨_, (he s).trans (issue_ok hx (fp3Body_ok hl hd hr hnone)),
    laneShapes_isResult hk (fun hu l l' => congrArg Prod.fst (fp3Val_isU hu l l'))⟩

end

/-- FDOT2 of elements of a packed type: the sum rounded, no flags (R279). -/
def dot2 (t : FTy) (a b c : Nat) : Nat × Fl :=
  (dotAcc c ((List.range 2).map (fun e => dotProd (t.fmt.value (t.el a e)) (t.fmt.value (t.el b e)))), 0)

/-- The k-th half of a word as a value of a format. -/
def halfValue (t : Fmt) (v k : Nat) : Fv := t.value (v / 2 ^ (16 * k) % 2 ^ 16)

theorem value_el_of_w16 {t : FTy} (hw : t.fmt.w = 16) (v k : Nat) : t.fmt.value (t.el v k) = halfValue t.fmt v k := by
  rw [FTy.el, hw, Nat.shiftRight_eq_div_pow, halfValue]

theorem dot2_halves (p : Prop) [Decidable p] (a b c : Nat) : (dot2 (ftOf (if p then 5 else 4)) a b c).1 =
    dotAcc c [dotProd (halfValue (if p then bf16 else f16) a 0) (halfValue (if p then bf16 else f16) b 0),
      dotProd (halfValue (if p then bf16 else f16) a 1) (halfValue (if p then bf16 else f16) b 1)] := by
  have hw : (ftOf (if p then 5 else 4)).fmt.w = 16 := by split <;> rfl
  have hfmt : (if p then bf16 else f16) = (ftOf (if p then 5 else 4)).fmt := by split <;> rfl
  rw [hfmt]
  simp only [dot2, value_el_of_w16 hw]
  rfl

end Sys2Proof.Machine

open Sys2Proof Sys2Proof.Machine

/-- Settles O4: each instruction issues the one body of its shape, whose values and flags are its rule's in every lane. -/
theorem floatInstructionResult : Obligations.FloatInstructionResult := by
  unfold Obligations.FloatInstructionResult
  refine ⟨fun f => ⟨?fadd, ?fsub, ?fmul, ?fmin, ?fmax, ?fminm, ?fmaxm, ?fcopys, ?ffma, ?fdot2⟩,
    fun f => ⟨?fabs, ?fneg, ?frnd, ?fgete, ?fclass, ?fscale, ?fcvt, ?f2i, ?i2f⟩⟩
  case fadd | fsub | fmul | fmin | fmax | fminm | fmaxm | fcopys => exact fp2_completes (fun _ => rfl)
  case ffma => exact fma_completes (fun _ => rfl) (ftOf_k _)
  case fdot2 =>
    have hdot := dot_completes (i := .fdot2 f) (fn := dot2 (ftOf (if f.mod6.toNat % 4 = 0 then 5 else 4))) (fun _ => rfl) (.inl rfl)
    exact hdot.congr (fun x r l => congrArg (· % _) (dot2_halves _ _ _ _))
  case fabs | fneg | frnd => exact fp1_completes (fun _ => rfl) (ftOf_k _)
  case fgete | fclass => exact fp1_completes (fun _ => rfl) (.inl rfl)
  case fscale => exact fpScale_completes (fun _ => rfl)
  case fcvt => exact fpConvert_completes (fun _ => rfl)
  case f2i => exact fpToInt_completes (fun _ => rfl)
  case i2f => exact fpOfInt_completes (fun _ => rfl)
end

section
/-!
PROOFS. The matrix engine and the tasks of a cluster: MMA, MMAS, MMAG and MMAX enter their quadrant's queue (R321, R324 to R328),
tiles and MSTAT (R335 to R338), tokens and tasks (R330 to R333), and the events of plotter, quadrants and dispatch (R322, R334).
-/

namespace Sys2Proof.Machine

/-! MMA, MMAS, MMAG and MMAX. -/

/-- The descriptors' registers of a matrix instruction (R321). -/
def descSrcs (f : LX) : List Src := [lxSrc f.sa 4 1, lxSrc f.sb 4 2]

/-- The registers read through SC before the group count of an MMAG is known (R327, R328). -/
def scaleSrcs (opc : Nat) (f : LX) : List Src :=
  if scRegs opc f.q.toNat = 0 then [] else [lxSrc f.sc (scRegs opc f.q.toNat) 3]

/-- All the registers that a matrix instruction reads, where g is the group count that an MMAG has read (R327). -/
def matrixSrcs (opc : Nat) (f : LX) (g : Nat) : List Src :=
  descSrcs f ++ if opc = 0xC2 then [lxSrc f.sc (g + 2) 3] else scaleSrcs opc f

/-- The entry of a matrix instruction in its quadrant's queue, from the words that it has read (R316). -/
def Cx.matrixOp (x : Cx) (ins : Instr) (f : LX) (q : List (List Opd)) (da db : TileDesc) : QOp :=
  let k := x.s.clus x.c.clus
  { id := x.op, pc := x.p.pc, ins := ins, raw := x.c.iword, tile := f.tile.toNat, da := da, db := db,
    sc := (nthRun q 2).map (fun o => o.at x.lane), task := k.task, resv := mgetD k.mqResv f.q.toNat 0, block := 0, group := 0, nans := [] }

/-- The cluster after a matrix instruction has entered its queue: MMAS has reserved its metadata entries (R326), and an empty or
reversed group has set GRPERR (R327). -/
def Cluster.queued (k : Cluster) (opc gran : Nat) (bad : Bool) (o : QOp) : Cluster :=
  { k.push o with
    mqResv := if opc = 0xC1 then mput k.mqResv gran (mgetD k.mqResv gran 0 + o.da.klen / 4) else k.mqResv
    mstat := if bad then k.mstat ||| stGRPERR else k.mstat }

theorem matrixBody_ok {opc : Nat} {ins : Instr} {f : LX} {x : Cx} {r q : List (List Opd)} {da db : TileDesc} {g : Nat} {bad : Bool}
    (ht : textLegal opc f.text = true) (hsa : tileDesig f.sa = true) (hsb : tileDesig f.sb = true) (hact : x.act ≠ 0)
    (hr : x.peek (descSrcs f ++ scaleSrcs opc f) = .ok r) (hg : wbits ((nthOpd r 2).at x.lane) 0 8 = g)
    (hgok : opc = 0xC2 → 1 ≤ g ∧ g ≤ 15) (hq : x.fetch (matrixSrcs opc f g) = .ok q)
    (hda : tileDesc (nthRun r 0) x.lane = da) (hdb : tileDesc (nthRun r 1) x.lane = db)
    (htile : (mget (x.s.clus x.c.clus).tiles f.tile.toNat).isSome = true) (hdaok : da.ok = true) (hdbok : db.ok = true)
    (hk : da.klen = db.klen) (hkok : klenOk opc f.text.toNat f.q.toNat da.klen = true)
    (hbad : (opc == 0xC2 && (mmagBad ((nthRun q 2).map (fun o => o.at x.lane)) da.rows).isSome) = bad)
    (hen : bad = true → (x.s.clus x.c.clus).mstat &&& stGRPEN = 0) (hroom : (x.s.clus x.c.clus).room (f.tile.toNat / 8) = true)
    (hmeta : opc = 0xC1 → mgetD (x.s.clus x.c.clus).mqResv f.q.toNat 0 < mgetD (x.s.clus x.c.clus).mqIn f.q.toNat 0) :
    matrixBody opc ins f x = .ok ⟨x.s.setClus x.c.clus
      ((x.s.clus x.c.clus).queued opc f.q.toNat bad (x.matrixOp ins f q da db)), x.c, true⟩ := by
  obtain ⟨hpeek, hdead, hpoison⟩ := fetch_parts hq
  have hcount : (opc != 0xC2 || decide (1 ≤ g ∧ g ≤ 15)) = true := by
    by_cases h : opc = 0xC2
    · rw [decide_eq_true (hgok h), Bool.or_true]
    · rw [bne_iff_ne.mpr h, Bool.true_or]
  have hmq : (opc != 0xC1 || decide (mgetD (x.s.clus x.c.clus).mqResv f.q.toNat 0 < mgetD (x.s.clus x.c.clus).mqIn f.q.toNat 0)) = true := by
    by_cases h : opc = 0xC1
    · rw [decide_eq_true (hmeta h), Bool.or_true]
    · rw [bne_iff_ne.mpr h, Bool.true_or]
  have hisSome : (if opc = 0xC2 then mmagBad ((nthRun q 2).map (fun o => o.at x.lane)) da.rows else none).isSome = bad := by
    rw [← hbad]
    by_cases h : opc = 0xC2
    · rw [if_pos h, beq_iff_eq.mpr h, Bool.true_and]
    · rw [if_neg h, beq_eq_false_iff_ne.mpr h, Bool.false_and]; rfl
  have hnotrap : (bad && ((x.s.clus x.c.clus).mstat &&& stGRPEN) != 0) = false := by
    cases bad with
    | false => rfl
    | true => rw [hen rfl]; rfl
  have hdescs : (db.ok && da.klen == db.klen && klenOk opc f.text.toNat f.q.toNat da.klen) = true := by
    rw [hdbok, beq_iff_eq.mpr hk, hkok]; rfl
  unfold matrixSrcs descSrcs scaleSrcs at *
  simp only [matrixBody, needInsn_of ht, needOpnd_of hsa, needOpnd_of hsb, bind_ok, hr, if_neg hact, hg, needOpnd_of hcount, hpeek,
    needOpnd_of htile, hda, hdb, needOpnd_of hdaok, needOpnd_of hdescs, hdead, hpoison, hisSome, hnotrap, needIssue_of hroom,
    needIssue_of hmq]
  unfold Cluster.queued
  by_cases h : opc = 0xC1 <;> cases bad <;> simp only [h, if_true, if_false] <;> rfl

/-- An instruction that issues the body of the four matrix instructions enters its quadrant's queue. -/
theorem queuesMatrix_of_issue {i : Instr} {opc : Nat} {f : LX} (he : ∀ s, exec i s = issue s opc 8 f.g (matrixBody opc i f)) :
    QueuesMatrix i opc f := by
  intro s x r q hx ht hsa hsb hact gran ds sc0 hr g hg hq da db k htile hda hdb hk hkok sc bad hen hroom start hmeta o
  exact (he s).trans (issue_ends hx (matrixBody_ok ht hsa hsb hact hr rfl hg hq rfl rfl htile hda hdb hk hkok rfl hen hroom hmeta))

/-! Tiles and MSTAT. -/

section
variable {f : LE} {x : Cx} {r : List (List Opd)} {tile : Nat}

theorem tileNum_of (hr : ((nthOpd r 0).at x.lane).toNat = tile) (ht : tile < 32) : tileNum r x = .ok tile := by
  have hlegal : (x.act == 0 || decide (tile < 32)) = true := by rw [decide_eq_true ht, Bool.or_true]
  rw [tileNum, hr, needOpnd_of hlegal, bind_ok]
  rfl

theorem acczBody_waits (hr : x.Reads [f.srcA 1] r) (ht : ((nthOpd r 0).at x.lane).toNat = tile) (h32 : tile < 32)
    (hroom : (x.s.clus x.c.clus).room (tile / 8) = true) :
    acczBody f x = .ok ⟨x.s, (x.c.emptySrcs [f.srcA 1]).waitAt
      (x.waitFor 8 0xC4 0 (BitVec.ofNat 64 tile) 0x110 8 (.accz tile f)), true⟩ := by
  obtain ⟨hact, -, hpeek, hdead, hp⟩ := reads_parts hr
  simp only [acczBody, hpeek, tileNum_of ht h32, hdead, hp, bind_ok, if_neg hact, needIssue_of hroom]
  rfl

theorem accrdBody_ok {pos : Nat} (hd : dstCheck x.c f.dst (f.md.toNat % 8 + 1) false = .ok ()) (hr : x.Reads [f.srcA 1, f.srcB 1] r)
    (hM : x.c.cnt cM < 63) (ht : ((nthOpd r 0).at x.lane).toNat = tile) (h32 : tile < 32)
    (hpos : ((nthOpd r 1).at x.lane).toNat = pos) (hfit : pos + (f.md.toNat % 8 + 1) * x.c.w ≤ 9216) :
    let n := f.md.toNat % 8 + 1
    let c1 := (x.c.emptySrcs [f.srcA 1, f.srcB 1]).raise cM x.op
    let c2 := c1.pendDests x.op f.la.toNat false
      ((List.range n).map (fun i => regDests c1 f.dst i x.act (.u (BitVec.ofNat 32 i)) 0)).flatten
    accrdBody f x = .ok ⟨x.s, { c2 with
      accReads := c2.accReads ++ [{ op := x.op, pc := x.p.pc, tile := tile, pos := pos, n := n, lanes := x.act }] }, true⟩ := by
  obtain ⟨hact, -, hpeek, hdead, hp⟩ := reads_parts hr
  simp only [accrdBody, hd, hpeek, counterRoom_of hM, bind_ok, if_neg hact, tileNum_of ht h32, hpos,
    needOpnd_of (decide_eq_true hfit), hdead, hp]
  rfl

/-- What an ACCFREE waits for (R337): the crew's ACCRDs, and the queued instructions of its tile. -/
def Cx.accFree (x : Cx) (tile : Nat) : AccFree :=
  { crew := x.id, ops := x.c.accReads.map (·.op), tile := tile,
    qids := ((mgetD (x.s.clus x.c.clus).quads (tile / 8) []).filter (fun o => o.tile == tile)).map (·.id) }

theorem accfreeBody_ok (hr : x.Reads [f.srcA 1] r) (ht : ((nthOpd r 0).at x.lane).toNat = tile) (h32 : tile < 32) :
    let k := x.s.clus x.c.clus
    accfreeBody f x = .ok ⟨x.s.setClus x.c.clus (if x.s.accfreeReady k (x.accFree tile) then k.freeTile tile
      else { k with accfree := k.accfree ++ [x.accFree tile] }), x.c.emptySrcs [f.srcA 1], true⟩ := by
  obtain ⟨hact, -, hpeek, hdead, hp⟩ := reads_parts hr
  simp only [accfreeBody, hpeek, tileNum_of ht h32, hdead, hp, bind_ok, if_neg hact]
  rfl

/-- MSTAT's new value for its form, old being what it held and m the operand of a form that has one (R338). -/
def mstatNew (op : Nat) (old m : Word) : Word :=
  match op with
  | 0 => old
  | 1 => if m.getLsbD 16 then (old &&& ~~~(m &&& 0xF)) &&& 0xFFFF else old &&& ~~~(m &&& 0xF)
  | _ => if m.getLsbD 8 then old ||| stGRPEN else old &&& ~~~stGRPEN

/-- The operand of an MSTAT that has one (R338). -/
def mstatSrcs (op : Nat) (f : LE) : List Src := if op = 0 then [] else [f.srcA 1]

theorem mstatBody_ok {op : Nat} (hm : op = 0 → f.md = 0) (hd : dstCheck x.c f.dst 1 true = .ok ()) (hact : x.act ≠ 0)
    (hr : x.once.fetch (mstatSrcs op f) = .ok r) :
    let k := x.s.clus x.c.clus
    mstatBody op f x = .ok ⟨x.s.setClus x.c.clus { k with mstat := mstatNew op k.mstat ((nthOpd r 0).at x.lane) },
      x.writeWord (x.c.emptySrcs (mstatSrcs op f)) f.dst k.mstat, true⟩ := by
  have hlegal : (op != 0 || f.md == 0) = true := by
    by_cases h : op = 0
    · rw [beq_iff_eq.mpr (hm h), Bool.or_true]
    · rw [bne_iff_ne.mpr h, Bool.true_or]
  unfold mstatSrcs at hr ⊢
  simp only [mstatBody, needInsn_of hlegal, hd, hr, bind_ok, if_neg hact]
  rfl

/-- No source is read without a check. -/
theorem fetch_nil (x : Cx) : x.fetch [] = .ok [] := by
  simp [Cx.fetch, Cx.fetchRaw, Cx.poisonCheck, lowest, needIssue]
  rfl

end

/-! Tokens and tasks. -/

section
variable {f : LE} {x : Cx} {r : List (List Opd)} {w : Word}

/-- The tokens of a TASK and the words that it leaves in the crew. -/
theorem taskBody_ok {toks : List Nat} (hd : dstCheck x.c f.dst 1 true = .ok ()) (hr : x.Reads [f.srcA 1, f.srcB 2] r)
    (htoks : taskToks (pairAt (nthRun r 1) x.lane) = toks) (hlegal : ∀ t ∈ toks, t < 0x1000 ∨ t = 0xFFFF) :
    let k := x.s.clus x.c.clus
    let c := x.c.emptySrcs [f.srcA 1, f.srcB 2]
    (mfree k.dep 64 = none → taskBody f x = .ok ⟨x.s, x.writeWord c f.dst 0xFFFFFFFF, true⟩) ∧
    (∀ e, mfree k.dep 64 = some e → taskBody f x = .ok ⟨x.s.setClus x.c.clus { k with
        dep := mput k.dep e { entry := x.p.pc + BitVec.ofInt 64 (((nthOpd r 0).at x.lane).toInt * 2),
                              toks := toks.filter (fun t => t != 0xFFFF), decl := k.decl, state := 0 }
        decl := k.decl + 1 }, x.writeWord c f.dst (BitVec.ofNat 32 e), true⟩) := by
  obtain ⟨hact, -, hpeek, hdead, hp⟩ := reads_parts hr
  have hall : toks.all (fun t => decide (t < 0x1000) || t == 0xFFFF) = true :=
    List.all_eq_true.mpr (fun t ht => by simpa using hlegal t ht)
  refine ⟨fun hfull => ?_, fun e hfree => ?_⟩
  · simp only [taskBody, hd, hpeek, bind_ok, if_neg hact, htoks, needOpnd_of hall, hdead, hp, hfull]
    rfl
  · simp only [taskBody, hd, hpeek, bind_ok, if_neg hact, htoks, needOpnd_of hall, hdead, hp, hfree]
    rfl

theorem ttokBody_ok (hs : orderScope f < 7) (hr : x.Reads [f.srcA 1] r) (hS : x.c.cnt cS < 63) (hq : x.c.sq.length < 64)
    (hw : (nthOpd r 0).at x.lane = w) (htok : x.s.tokOk (x.c.core / 128) w = true) :
    ttokBody f x = .ok ⟨x.s, x.queued [f.srcA 1] cS (.ttok w) [] true (orderScope f), true⟩ := by
  obtain ⟨hact, -, hpeek, hdead, hp⟩ := reads_parts hr
  simp only [ttokBody, needInsn_of (decide_eq_true hs), hpeek, counterRoom_of hS, queueRoom_of hq, bind_ok, if_neg hact, hw,
    needOpnd_of htok, hdead, hp]
  rfl

/-- Dispatch goes on or waits in the same instruction (R333). -/
theorem finish_enterDispatch (x : Cx) (t : State) (c : Crew) : (x.enterDispatch t c).finish x = x.dispatches t c := by
  unfold Cx.enterDispatch Cx.dispatches
  cases t.dispatch c <;> rfl

theorem tdoneRunBody_ok (hm : f.md = 0) (hrun : (x.s.clus x.c.clus).running = none) (hact : x.act ≠ 0) :
    tdoneRunBody f x = .ok (x.enterDispatch
      (x.s.setClus x.c.clus { x.s.clus x.c.clus with root := some (x.p.pc + 8) }) x.c) := by
  have hlegal : (f.md == 0 && (x.s.clus x.c.clus).running.isNone) = true := by rw [hm, hrun]; rfl
  simp only [tdoneRunBody, needInsn_of hlegal, bind_ok, if_neg hact]
  rfl

/-- The operands of a TDONE: its token, and the address of its barrier where it has one (R332). -/
def tdoneSrcs (f : LE) : List Src := if f.sb == 0x110 then [f.srcA 1] else [f.srcA 1, f.srcB 2]

/-- The deferred completion that a TDONE of entry e leaves (R332, R334). -/
def Cx.deferred (x : Cx) (f : LE) (e : Nat) (w : Word) (va : Dword) : Deferred :=
  let k := x.s.clus x.c.clus
  { dep := e, token := w, bar := if f.sb == 0x110 then none else some va, pc := x.p.pc, task := k.task,
    sqOps := (x.c.sq.map (·.op) ++ x.c.unacked.map (·.1)).filter (fun o => decide (k.taskOp ≤ o)), stage := 0, ids := [] }

theorem tdoneBody_ok {e : Nat} {va : Dword} (hrun : (x.s.clus x.c.clus).running = some e) (hr : x.Reads (tdoneSrcs f) r)
    (hw : (nthOpd r 0).at x.lane = w) (htok : x.s.tokOk (x.c.core / 128) w = true) (hva : pairAt (nthRun r 1) x.lane = va)
    (hal : (f.sb == 0x110) = false → va.toNat % 16 = 0) :
    let k := x.s.clus x.c.clus
    tdoneBody f x = .ok (x.enterDispatch (x.s.setClus x.c.clus
      { k with running := none, defer := k.defer ++ [x.deferred f e w va], dep := mmod k.dep e (fun y => { y with state := 2 }) })
      (x.c.emptySrcs (tdoneSrcs f))) := by
  obtain ⟨hact, -, hpeek, hdead, hp⟩ := reads_parts hr
  unfold Cx.deferred tdoneSrcs at *
  cases hbar : f.sb == 0x110
  case true =>
    simp only [hbar, if_true] at hpeek hdead ⊢
    simp only [tdoneBody, hrun, Option.isSome_some, needInsn_of, hbar, if_true, hpeek, bind_ok, if_neg hact, hw,
      needOpnd_of htok, hdead, hp]
    rfl
  case false =>
    simp only [hbar, Bool.false_eq_true, if_false] at hpeek hdead ⊢
    simp only [tdoneBody, hrun, Option.isSome_some, needInsn_of, hbar, Bool.false_eq_true, if_false, hpeek, bind_ok, if_neg hact, hw,
      hva, needOpnd_of htok, aligned_of (fun _ => hal hbar), hdead, hp]
    rfl

end

/-! The events of plotter, quadrants, dispatch and completions (R322, R333 to R337). -/

section
variable {s : State} {key : Nat}

theorem exec_plotterFetch (h : s.ctxRuns (key / 64) = true) (q pos vln : Nat) :
    exec (.plotterFetch key q pos vln) s = .next (s.plot key q pos vln) := congrArg Host.Outcome.next (if_pos h)
theorem exec_acczZero (h : s.ctxRuns (key / 64) = true) (q : Nat) :
    exec (.acczZero key q) s = .next (s.zeroTile key q) := congrArg Host.Outcome.next (if_pos h)
theorem exec_accfreeEffect (h : s.ctxRuns (key / 64) = true) (n : Nat) :
    exec (.accfreeEffect key n) s = .next (s.accfreeGo key n) := congrArg Host.Outcome.next (if_pos h)
theorem exec_deferredCompletion (h : s.ctxRuns (key / 64) = true) (n : Nat) :
    exec (.deferredCompletion key n) s = .next (s.deferGo key n) := congrArg Host.Outcome.next (if_pos h)
theorem exec_accrdReturn (s : State) (id op : Nat) : exec (.accrdReturn id op) s = .next (s.accReturn id op) := rfl

theorem exec_taskDispatch {id : Nat} {c : Crew} (h : s.ctxRuns (key / 64) = true) (hs : s.surveyor key = some id)
    (hc : mget s.crews id = some c) (he : c.evicted = false) : exec (.taskDispatch key) s = .next (s.tryDispatch id) := by
  show execTaskDispatch key s = _
  simp [execTaskDispatch, hs, h, hc, he]

/-- A line of local HBM that a queued instruction reads, and that the plotter neither holds nor has asked for, comes into the
operand buffer. -/
theorem State.plot_local {q pos vln : Nat} {o : QOp} {t : Xlate} {s1 s2 : State} {bs : List Byte} {p : Bool} {pa : Nat}
    (ho : (mgetD (s.clus key).quads q [])[pos]? = some o) (hreads : o.reads vln = true) (hline : (s.clus key).line o.task vln = none)
    (hroom : s.bufferUse key < 8192)
    (hasked : s.peerReqs.any (fun r => r.crew == clusEngine key && r.op == vln && r.lane == o.task) = false)
    (ht : s.translate (256 + key % 64) (key / 64) (BitVec.ofNat 64 (128 * vln)) .plotter = (s1, .ok t)) (htgt : t.tgt = .hbm pa)
    (hheld : (s.clus key).obuf.find? (fun l => l.task == o.task && l.tgt == t.tgt && l.owner == t.owner) = none)
    (hreach : s1.reach (key % 64 / 32) pa = true) (hpin : s1.canPin pa = true)
    (hread : s1.homeEngine t.owner pa 128 = .ok (s2, bs, p)) :
    s.plot key q pos vln = s2.modClus key (fun k =>
      k.hold ⟨o.task, vln, t.tgt, t.owner, bs, s2.linePoison (pa / 128)⟩) := by
  rw [htgt] at hheld
  simp [State.plot, ho, hreads, hline, Nat.not_le.mpr hroom, hasked, ht, htgt, hheld, hreach, hpin, hread]

theorem State.zeroTile_head {q : Nat} {o : QOp} (ho : (mgetD (s.clus key).quads q []).head? = some o) (hz : o.lx = none) :
    s.zeroTile key q = s.setClus key
      ({ s.clus key with tiles := mmod (s.clus key).tiles o.tile (fun _ => { words := [], poison := [] }) }.pop q) := by
  simp only [State.zeroTile, ho, hz, Option.isNone_none, if_true]

theorem State.accfreeGo_ready {n : Nat} {a : AccFree} (ha : (s.clus key).accfree[n]? = some a)
    (hr : s.accfreeReady (s.clus key) a = true) : s.accfreeGo key n =
      s.setClus key ({ s.clus key with accfree := (s.clus key).accfree.eraseIdx n }.freeTile a.tile) := by
  simp only [State.accfreeGo, ha, hr, if_true]

theorem State.tryDispatch_goes {id : Nat} {c : Crew} {r : State × Crew} (hc : mget s.crews id = some c) (he : c.evicted = false)
    (hw : c.waitOp = some .dispatch) (hr : s.dispatch c = some r) :
    s.tryDispatch id = r.1.setCrew id { r.2 with wait := none } := by
  simp only [State.tryDispatch, hc, hw, he, hr, Bool.false_eq_true, if_false]

/-- A deferred completion with no barrier whose work is done leaves, its token posted. -/
theorem State.deferGo_noBarrier {n : Nat} {d : Deferred} (hd : (s.clus key).defer[n]? = some d) (hb : d.bar = none)
    (hr : s.deferReady key (s.clus key) d = true) : s.deferGo key n =
      (s.modClus key (fun k => { k with defer := k.defer.eraseIdx n, dep := mdel k.dep d.dep })).postToken
        (clKey (key / 64) (tokClus (key % 64 / 32) d.token)) (tokOf d.token) := by
  simp [State.deferGo, hd, hb, hr]

end

theorem State.accReturn_found {s : State} {id op : Nat} {c : Crew} {a : AccRead} {u : AccTile} (hc : mget s.crews id = some c)
    (ha : c.accReads.find? (fun b => b.op == op) = some a) (hu : mget (s.clus c.clus).tiles a.tile = some u) :
    s.accReturn id op = (((s.both id (fun d => d.fillPend op (fun i =>
        (normShape d.w (gen d.w (fun l => if a.lanes.getLsbD l then u.word (a.pos + i * d.w + l) else 0)),
         lanesWhere d.w (fun l => a.lanes.getLsbD l && u.poison.contains (a.pos + i * d.w + l)))))).modCrew id (fun d =>
      { d with accReads := d.accReads.filter (fun b => b.op != op) })).lowerOp id cM op) := by
  simp only [State.accReturn, hc, ha, hu]
  rfl

end Sys2Proof.Machine

open Sys2Proof Sys2Proof.Machine

/-- Settles O25: the four instructions issue one body. -/
theorem matrixInstructionsQueue : Obligations.MatrixInstructionsQueue := by
  unfold Obligations.MatrixInstructionsQueue
  exact fun f => ⟨queuesMatrix_of_issue (fun _ => rfl), queuesMatrix_of_issue (fun _ => rfl), queuesMatrix_of_issue (fun _ => rfl),
    queuesMatrix_of_issue (fun _ => rfl)⟩

/-- Settles O26: each instruction by what its body answers; TDONE ends in dispatch, in the same slot. -/
theorem tileAndTaskInstructionsResult : Obligations.TileAndTaskInstructionsResult := by
  unfold Obligations.TileAndTaskInstructionsResult
  refine ⟨fun f s x r => ⟨?accz, ?accrd, ?accfree, ?mstat⟩, fun f s x r => ⟨?task, ?ttok, ?tdoneRun, ?tdone⟩⟩
  case accz => exact fun hx hr h32 hroom => issueW_ends hx (acczBody_waits hr rfl h32 hroom)
  case accrd => exact fun hx hd hr hM h32 hfit => issue_ends hx (accrdBody_ok hd hr hM rfl h32 rfl hfit)
  case accfree => exact fun hx hr h32 => issue_ends hx (accfreeBody_ok hr rfl h32)
  case mstat =>
    refine fun hx hd => ⟨fun hm hact => ?read, fun hr => ⟨?clr, ?ctl⟩⟩
    case read => exact issue_ends hx (mstatBody_ok (op := 0) (fun _ => hm) hd hact (fetch_nil x.once))
    case clr => exact issue_ends hx (mstatBody_ok (op := 1) nofun hd hr.1 hr.2)
    case ctl => exact issue_ends hx (mstatBody_ok (op := 2) nofun hd hr.1 hr.2)
  case task =>
    intro hx hd hr toks c hlegal
    obtain ⟨hfull, hfree⟩ := taskBody_ok hd hr rfl hlegal
    exact ⟨fun h => issue_ends hx (hfull h), fun e h => issue_ends hx (hfree e h)⟩
  case ttok => exact fun hx hs hr hS hq htok => issue_ends hx (ttokBody_ok hs hr hS hq rfl htok)
  case tdoneRun =>
    intro hx hm hrun hact
    exact (issue_ok hx (tdoneRunBody_ok hm hrun hact)).trans (congrArg _ (finish_enterDispatch ..))
  case tdone =>
    intro e hx hrun bare srcs va hr htok hal d
    exact (issue_ok hx (tdoneBody_ok hrun hr rfl htok rfl hal)).trans (congrArg _ (finish_enterDispatch ..))

/-- Settles O28: each event by what its step does under the conditions given. -/
theorem matrixEventResult : Obligations.MatrixEventResult := by
  unfold Obligations.MatrixEventResult
  refine fun s key => ⟨fun hrun => ⟨?plotter, ?zero, ?free, ?dispatch, ?deferred⟩, ?accrd⟩
  case plotter =>
    intro q pos vln o t s1 s2 bs p pa ho hreads hline hroom hasked ht htgt hheld hreach hpin hread
    rw [exec_plotterFetch hrun, State.plot_local ho hreads hline hroom hasked ht htgt hheld hreach hpin hread]
  case zero => intro q o ho hz; rw [exec_acczZero hrun, State.zeroTile_head ho hz]
  case free => intro n a ha hr; rw [exec_accfreeEffect hrun, State.accfreeGo_ready ha hr]
  case dispatch =>
    intro id c r hs hc he hw hr
    rw [exec_taskDispatch hrun hs hc he, State.tryDispatch_goes hc he hw hr]
  case deferred => intro n d hd hb hr; rw [exec_deferredCompletion hrun, State.deferGo_noBarrier hd hb hr]
  case accrd => intro id op c a u hc ha hu; rw [exec_accrdReturn, State.accReturn_found hc ha hu]

end

section
/-!
PROOFS. The heap instructions HCLR, HPUSH and HDRAIN (R308, R310 to R313) and the node-queue instructions NQPUSH and NQTAKE (R393 to
R395, R398).
-/

namespace Sys2Proof.Machine

section
variable {f : LE} {x : Cx} {r : List (List Opd)} {t : State × List LaneAcc} {va : Dword}

/-! Heaps. -/

theorem hclrBody_ok {cap : Nat} (hr : x.Reads [f.srcA 2, f.srcB 1] r) (hS : x.c.cnt cS < 63) (hq : x.c.sq.length < 64)
    (hva : pairAt (nthRun r 0) x.lane = va) (hcap : ((nthOpd r 1).at x.lane).toNat = cap) (hrange : 1 ≤ cap ∧ cap ≤ 4096)
    (hal : va.toNat % 128 = 0) (ht : x.translateAll x.s .atomic 64 [(x.lane, va)] = .ok t) :
    hclrBody f x = .ok ⟨t.1, x.queued [f.srcA 2, f.srcB 1] cS (.hclr cap (f.md.getLsbD 0)) t.2 false 8, true⟩ := by
  obtain ⟨hact, -, hpeek, hdead, hp⟩ := reads_parts hr
  simp only [hclrBody, hpeek, counterRoom_of hS, queueRoom_of hq, bind_ok, if_neg hact, hva, hcap,
    needOpnd_of (decide_eq_true hrange), aligned_of (fun _ => hal), hdead, ht, hp]
  rfl

/-- The operands of HPUSH: the heap, the key and the value (R311). -/
def hpushSrcs (f : LE) : List Src := [{ f.srcD 2 with zero := false }, f.srcA 1, f.srcB 1]

/-- The lanes' accesses of HPUSH with their keys and values (R311). -/
def hpushAccs (r : List (List Opd)) (as : List LaneAcc) : List LaneAcc :=
  as.map (fun a => { a with x := ((nthOpd r 1).at a.lane).setWidth 64 &&& 0xFFFF, y := ((nthOpd r 2).at a.lane).setWidth 64 })

theorem hpushBody_ok (hr : x.fetch (hpushSrcs f) = .ok r) (hact : x.act ≠ 0) (hS : x.c.cnt cS < 63) (hq : x.c.sq.length < 64)
    (hal : x.aligned 128 (fun l => pairAt (nthRun r 0) l) = .ok ())
    (ht : x.translateAll x.s .atomic 64 ((laneList x.act).map (fun l => (l, pairAt (nthRun r 0) l))) = .ok t) :
    hpushBody f x = .ok ⟨t.1, x.queued (hpushSrcs f) cS .hpush (hpushAccs r t.2) false 8, true⟩ := by
  obtain ⟨hpeek, hdead, hp⟩ := fetch_parts hr
  unfold hpushSrcs at *
  simp only [hpushBody, hpeek, counterRoom_of hS, queueRoom_of hq, hal, hdead, ht, hp, bind_ok, if_neg hact]
  rfl

theorem hdrainBody_waits {u : State} {a : LaneAcc} {out : Dword} (hd : dstCheck x.c f.dst 1 true = .ok ())
    (hr : x.Reads [f.srcA 2, f.srcB 2] r) (hva : pairAt (nthRun r 0) x.lane = va) (hout : pairAt (nthRun r 1) x.lane = out)
    (hal : va.toNat % 128 = 0) (halo : out.toNat % 8 = 0) (ht : x.translateAll x.s .atomic 64 [(x.lane, va)] = .ok (u, [a])) :
    hdrainBody f x = .ok ⟨u, (x.c.emptySrcs [f.srcA 2, f.srcB 2]).waitAt
      (x.waitFor 8 0xEB 0 va f.dst 8 (.hdrain a out (f.md.getLsbD 0) 0 0 [])), true⟩ := by
  obtain ⟨hact, -, hpeek, hdead, hp⟩ := reads_parts hr
  have haligned : ¬ (va.toNat % 128 ≠ 0 ∨ out.toNat % 8 ≠ 0) := by simp [hal, halo]
  simp only [hdrainBody, hd, hpeek, bind_ok, if_neg hact, hva, hout, if_neg haligned, hdead, ht, hp]
  rfl

/-! Node queues. -/

/-- The operands of NQPUSH: the node and the words of a record (R394). -/
def nqpushSrcs (f : LE) : List Src := [{ f.srcD 2 with zero := false }, { f.srcA (f.md.toNat + 1) with zero := false }]

/-- The lanes' accesses of NQPUSH with their records (R394). -/
def nqpushAccs (r : List (List Opd)) (as : List LaneAcc) : List LaneAcc :=
  as.map (fun a => { a with bytes := (((nthRun r 1).map (fun o => leBytes 4 (o.at a.lane).toNat)).flatten).map some })

theorem nqpushBody_waits (hs : f.fn.toNat % 8 < 7) (hsa : f.sa.toNat < 256) (hr : x.fetch (nqpushSrcs f) = .ok r) (hact : x.act ≠ 0)
    (hS : x.c.cnt cS < 63) (hq : x.c.sq.length < 64)
    (ht : x.translateAll x.s .atomic 64 ((laneList x.act).map (fun l => (l, pairAt (nthRun r 0) l))) = .ok t)
    (hnodes : ∀ a ∈ t.2, a.va.toNat % 64 = 0 ∧ a.isHbm = true) :
    nqpushBody f x = .ok ⟨t.1, (x.queued (nqpushSrcs f) cS (.nqpush (f.md.toNat + 1)) (nqpushAccs r t.2) true (f.fn.toNat % 8)).waitAt
      (x.waitFor 8 0xE8 0 0 0x110 8 (.sqEntry x.op)), true⟩ := by
  obtain ⟨hpeek, hdead, hp⟩ := fetch_parts hr
  have hgood : t.2.find? (fun a => a.va.toNat % 64 != 0 || !a.isHbm) = none :=
    List.find?_eq_none.mpr (fun a ha => by simp [hnodes a ha])
  unfold nqpushSrcs at *
  simp only [nqpushBody, needInsn_of (decide_eq_true hs), needOpnd_of (decide_eq_true hsa), hpeek, counterRoom_of hS, queueRoom_of hq,
    bind_ok, if_neg hact, hdead, ht, hgood, hp]
  rfl

section
variable {u : State} {a : LaneAcc} (hm : f.md.toNat % 4 ≠ 3) (hd : dstCheck x.c f.dst 3 false = .ok ())
  (hr : x.Reads [f.srcA 2] r) (hva : pairAt (nthRun r 0) x.lane = va) (ht : x.takeNode va = .ok (u, a))
  (hn : (u.nodeDesc a.owner a.pa).entry = 0)

include hm hd hr hva ht hn

theorem nqtakeBody_waits : nqtakeBody false f x = .ok ⟨u, (x.c.emptySrcs [f.srcA 2]).waitAt
    (x.waitFor 7 f.md.toNat 0 va f.dst 4 (.nqtake a)), true⟩ := by
  obtain ⟨hact, -, hpeek, hdead, hp⟩ := reads_parts hr
  simp only [nqtakeBody, needInsn_of (decide_eq_true hm), hd, hpeek, bind_ok, if_neg hact, hva, hdead, ht,
    if_neg (not_not_intro hn), hp]
  rfl

/-- The crew of an NQTAKE.try with the tile's page and count, or zeros, in its destinations (R398). -/
def Cx.tileTaken (x : Cx) (f : LE) (c : Crew) (page : Dword) (count : Nat) : Crew :=
  c.putDests ((([loWord page, hiWord page, BitVec.ofNat 32 count].zipIdx).map (fun v => regDests c f.dst v.2 x.act (.u v.1) 0)).flatten)

theorem nqtakeBody_takes {g : Option (State × Dword × Nat)} (hg : u.takeTile a = .ok g) :
    let got := g.getD (u, 0, 0)
    let c := x.tileTaken f (x.c.emptySrcs [f.srcA 2]) got.2.1 got.2.2
    let q := acquireHold got.1 c (got.1.scopeWide c 4)
    nqtakeBody true f x = .ok ⟨q.1, q.2, true⟩ := by
  obtain ⟨hact, -, hpeek, hdead, hp⟩ := reads_parts hr
  simp only [nqtakeBody, needInsn_of (decide_eq_true hm), hd, hpeek, bind_ok, if_neg hact, hva, hdead, ht,
    if_neg (not_not_intro hn), hp, hg]
  rfl

end

theorem nqretBody_ok {u : State × List LaneAcc} {t : State} {a : LaneAcc} (hr : x.Reads [f.srcA 2, f.srcB 2] r)
    (hS : x.c.cnt cS < 63) (hq : x.c.sq.length < 64) (ht : x.takeNode (pairAt (nthRun r 0) x.lane) = .ok (t, a))
    (hu : ({ x with s := t } : Cx).translateAll t .range 65536 [(x.lane, pairAt (nthRun r 1) x.lane)] = .ok u) :
    nqretBody f x = .ok ⟨u.1, x.queued [f.srcA 2, f.srcB 2] cS .nqret (a :: u.2) false 8, true⟩ := by
  obtain ⟨hact, -, hpeek, hdead, hp⟩ := reads_parts hr
  simp only [nqretBody, hpeek, counterRoom_of hS, queueRoom_of hq, bind_ok, if_neg hact, hdead, ht]
  exact (bind_of_ok hu).trans ((bind_of_ok hp).trans rfl)

end

end Sys2Proof.Machine

open Sys2Proof Sys2Proof.Machine

/-- Settles O35: each instruction by what its body answers; HDRAIN, NQPUSH and NQTAKE end in a wait that is looked at at once. -/
theorem heapAndNodeInstructionsResult : Obligations.HeapAndNodeInstructionsResult := by
  unfold Obligations.HeapAndNodeInstructionsResult
  refine ⟨fun f s x r t => ⟨?hclr, ?hpush, ?hdrain⟩, fun f s x r => ⟨?nqpush, ?nqtake, ?nqret⟩⟩
  case hclr =>
    intro hx hr hS hq va cap h1 h4096 hal ht
    exact issue_ends hx (hclrBody_ok hr hS hq rfl rfl ⟨h1, h4096⟩ hal ht)
  case hpush =>
    intro hx srcs hr hact hS hq hal ht
    exact issue_ends hx (hpushBody_ok hr hact hS hq hal ht)
  case hdrain =>
    intro u a hx hd hr va out hal halo ht
    exact issueW_ends hx (hdrainBody_waits hd hr rfl rfl hal halo ht)
  case nqpush =>
    intro t hx hs hsa k srcs hr hact hS hq ht hnodes
    exact issueW_ends hx (nqpushBody_waits hs hsa hr hact hS hq ht hnodes)
  case nqtake =>
    intro t a hx hm hd hr va c ht hn
    exact ⟨issueW_ends hx (nqtakeBody_waits hm hd hr rfl ht hn), fun g hg => issue_ends hx (nqtakeBody_takes hm hd hr rfl ht hn hg)⟩
  case nqret =>
    intro t a u hx hr hS hq ht hu
    exact issue_ends hx (nqretBody_ok hr hS hq ht hu)
end

section
/-!
PROOFS. The team barriers BAR, BARA and BARW (R373 to R377), SPAWN and SYNCW (R380, R383), and the helper instructions RECRUIT, HJOIN
and HREL (R384, R385, R388, R389).
-/

namespace Sys2Proof.Machine

/-! Barriers: what an instruction answers at its arrival's release or at its wait. -/

section
variable {f : LE} {x : Cx} {r : List (List Opd)} {n : Nat}

/-- The crew once a barrier instruction has read its count (R374). -/
def Cx.counted (x : Cx) (f : LE) : Crew := if f.sa == 0x110 then x.c else x.c.emptySrcs [f.srcA 1]

theorem barBody_waits (hact : x.act ≠ 0) (hn : barCount f x = .ok n) :
    barBody f x = .ok ⟨x.s, (x.counted f).waitAt
      (x.waitFor 0 f.md.toNat 0 0 0x110 1 (.release (.bar f.md.toNat n (f.fn.getLsbD 0)) false [])), true⟩ := by
  simp only [barBody, hn, bind_ok, if_neg hact]
  rfl

theorem baraBody_waits (hact : x.act ≠ 0) (hd : dstCheck x.c f.dst 1 true = .ok ()) (hn : barCount f x = .ok n) :
    baraBody f x = .ok ⟨x.s, (x.counted f).await
      (x.waitFor 0 f.md.toNat 0 0 f.dst 8 (.release (.bara f.md.toNat n) false [])), true⟩ := by
  simp only [baraBody, hd, hn, bind_ok, if_neg hact]
  rfl

theorem barwBody_waits (hact : x.act ≠ 0) (hr : x.once.fetch [f.srcA 1] = .ok r) :
    barwBody f x = .ok ⟨x.s, (x.c.emptySrcs [f.srcA 1]).waitAt
      (x.waitFor 4 f.md.toNat ((nthOpd r 0).at x.lane &&& 0xFFFF) 0 0x110 1 (.barw f.md.toNat)), true⟩ := by
  simp only [barwBody, hr, bind_ok, if_neg hact]
  rfl

/-! SYNCW, HJOIN and HREL. -/

theorem syncwBody_waits (hact : x.act ≠ 0) :
    syncwBody x = .ok ⟨x.s, x.c.waitAt (x.waitFor 5 0 0 0 0x110 3 .syncw), true⟩ := if_neg hact

/-- HJOIN's word is executed in the form of the party that executes it (R388). -/
theorem hjoinAny_helper (hh : x.c.isHelper = true) : hjoinAny f x = hjoinHelperBody f x := if_pos hh
theorem hjoinAny_recruiter (hh : x.c.isHelper = false) : hjoinAny f x = hjoinBody f x := if_neg (by simp [hh])

theorem hjoinHelperBody_waits (hact : x.act ≠ 0) (hr : x.fetch [f.srcA 1] = .ok r) :
    hjoinHelperBody f x = .ok ⟨x.s, (x.c.emptySrcs [f.srcA 1]).await
      (x.waitFor 0 0 0 0 0x110 8 (.release (.join ((laneList x.act).map (fun l => (l, (nthOpd r 0).at l)))) false [])), true⟩ := by
  simp only [hjoinHelperBody, hr, bind_ok, if_neg hact]
  rfl

theorem hjoinBody_waits (hact : x.act ≠ 0) (hd : dstCheck x.c f.dst 2 false = .ok ()) :
    hjoinBody f x = .ok ⟨x.s, x.c.closeCounter.waitAt
      (x.waitFor 6 ((x.c.recruit.map (·.oper)).getD 0) 0 0 f.dst 1 .hjoin), true⟩ := by
  simp only [hjoinBody, hd, bind_ok, if_neg hact]
  rfl

theorem hrelBody_closes (hact : x.act ≠ 0) : hrelBody x = .ok ⟨x.s, x.c.closeCounter, true⟩ := by rw [hrelBody, if_neg hact]

end

/-! SPAWN and RECRUIT. -/

section
variable {f : LB} {x : Cx} {r : List (List Opd)}

/-- The pair of registers that SPAWN and RECRUIT read (R380, R385). -/
def pairSrc (f : LB) : Src := { d := f.dst, xc := 0, dead := false, k := 2, fld := 0, upper := false, zero := false }

/-- The context in which a SPAWN spawns: every acting lane, or one of them (R380). -/
def Cx.spawns (x : Cx) (f : LB) : Cx := if f.md.getLsbD 0 then x else x.once

theorem spawnBody_ok (hact : x.act ≠ 0) (hr : (x.spawns f).fetch [pairSrc f] = .ok r) (hS : x.c.cnt cS < 63) (hq : x.c.sq.length < 64)
    (hroom : x.s.spawnRoom x.c (laneList (x.spawns f).act).length = true) :
    spawnBody f x = .ok ⟨x.s, x.queued [] cS
      (.spawn ((laneList (x.spawns f).act).map (fun l => (f.target x.p.pc, pairAt (nthRun r 0) l)))) [] true 2, true⟩ := by
  obtain ⟨hpeek, hdead, hp⟩ := fetch_parts hr
  unfold Cx.spawns pairSrc at *
  simp only [spawnBody, hpeek, counterRoom_of hS, queueRoom_of hq, bind_ok, if_neg hact, hdead, hroom, Bool.not_true,
    Bool.false_eq_true, if_false, hp]
  rfl

/-- The recruitment that a RECRUIT opens for the lanes granted and n iterations (R385): closed where there are none of either. -/
def Cx.recruitment (x : Cx) (f : LB) (grant : List (Nat × Nat)) (n : Nat) : Recruit :=
  { op := x.op, waiting := if grant.isEmpty || n == 0 then [] else grant, lane := x.lane, oper := f.md.toNat % 8, n := n, next := 0,
    closed := grant.isEmpty || n == 0, body := f.target x.p.pc, groups := [], contrib := [], errs := [], flags := 0, fpctl := x.c.fpctl }

theorem recruitBody_ok {grant : List (Nat × Nat)} {n : Nat} (hact : x.act ≠ 0) (hq : x.c.sq.length < 64) (ho : f.md.toNat % 8 < 6)
    (hr : x.once.fetch [pairSrc f] = .ok r) (hone : laneCount x.act ≤ 1) (hfree : x.c.recruit = none)
    (hn : ((nthOpd r 0).at x.lane).toNat = n)
    (hg : (x.s.eligible x.id x.c).take (min (((nthRun r 0).getD 1 ⟨.u 0, 0⟩).at x.lane).toNat 64) = grant) :
    recruitBody f x = .ok ⟨x.s, ({ x.c with
      hcount := BitVec.ofNat 32 grant.length, recruit := some (x.recruitment f grant n) } : Crew).enqueue x.op x.p.pc .recruit [] true 1,
      true⟩ := by
  obtain ⟨hpeek, hdead, hp⟩ := fetch_parts hr
  unfold pairSrc at *
  subst hn hg
  simp only [recruitBody, needInsn_of (decide_eq_true ho), hpeek, needOpnd_of (decide_eq_true hone), bind_ok, if_neg hact, hfree,
    Option.isNone_none, needOpnd_of, queueRoom_of hq, hdead, hp]
  rfl

end

end Sys2Proof.Machine

open Sys2Proof Sys2Proof.Machine

/-- Settles O32: each instruction by what its body answers; those that wait are looked at at once. -/
theorem teamTaskAndHelperResult : Obligations.TeamTaskAndHelperResult := by
  unfold Obligations.TeamTaskAndHelperResult
  refine ⟨fun f s x r n hact => ⟨?bar, ?bara, ?barw⟩, fun f s x r hact hq => ⟨?spawn, ?recruit⟩,
    fun f s x r hact => ⟨?syncw, ?helper, ?recruiter, ?hrel⟩⟩
  case bar => exact fun hx hn => issueW_ends hx (barBody_waits hact hn)
  case bara => exact fun hx hd hn => issueW_ends hx (baraBody_waits hact hd hn)
  case barw => exact fun hx hr => issueW_ends hx (barwBody_waits hact hr)
  case spawn => exact fun hx hr hS hroom => issueW_ends hx (spawnBody_ok hact hr hS hq hroom)
  case recruit => exact fun hx ho hr hone hfree => issue_ends hx (recruitBody_ok hact hq ho hr hone hfree rfl rfl)
  case syncw => exact fun hx => issueW_ends hx (syncwBody_waits hact)
  case helper => exact fun hx hh hr => issueW_ends hx ((hjoinAny_helper hh).trans (hjoinHelperBody_waits hact hr))
  case recruiter => exact fun hx hh hd => issueW_ends hx ((hjoinAny_recruiter hh).trans (hjoinBody_waits hact hd))
  case hrel => exact fun hx => issue_ends hx (hrelBody_closes hact)
end

section
/-!
PROOFS. GRPDEF and CLSTAT (R354, R356), the die-to-die link's flits (R343) and the ports' lanes (R344, R346).
-/

namespace Sys2Proof.Machine

section
variable {f : LE} {x : Cx} {r : List (List Opd)} {g : Nat} {va : Dword}

/-- The operands of GRPDEF and of GRPDEF.del: the group's number and, to define it, the address of its record (R354). -/
def grpdefSrcs (del : Bool) (f : LE) : List Src := if del then [f.srcB 1] else [f.srcB 1, f.srcA 2]

theorem grpdefBody_waits (del : Bool) (hd : dstCheck x.c f.dst 1 true = .ok ()) (hr : x.Reads (grpdefSrcs del f) r)
    (hg : ((nthOpd r 0).at x.lane).toNat = g) (h256 : g < 256) (hva : pairAt (nthRun r 1) x.lane = va)
    (hal : del = false → va.toNat % 64 = 0) :
    grpdefBody del f x = .ok ⟨x.s, (x.c.emptySrcs (grpdefSrcs del f)).waitAt
      (x.waitFor 8 0xB7 0 0 f.dst 8 (.grpdef g del va [])), true⟩ := by
  obtain ⟨hact, -, hpeek, hdead, hp⟩ := reads_parts hr
  unfold grpdefSrcs at *
  cases del with
  | true =>
    simp only [if_true] at hpeek hdead
    simp only [grpdefBody, hd, if_true, hpeek, bind_ok, if_neg hact, hg, hva, needOpnd_of (decide_eq_true h256), hdead, hp]
    rfl
  | false =>
    simp only [Bool.false_eq_true, if_false] at hpeek hdead
    simp only [grpdefBody, hd, Bool.false_eq_true, if_false, hpeek, bind_ok, if_neg hact, hg, hva,
      needOpnd_of (decide_eq_true h256), aligned_of (fun _ => hal rfl), hdead, hp]
    rfl

theorem clstatBody_ports (hm : f.md = 4) (hact : x.act ≠ 0) (hd : dstCheck x.c f.dst 1 true = .ok ()) :
    clstatBody f x = .ok ⟨x.s, x.writeWord x.c f.dst x.s.portWord, true⟩ := by
  have hpeek := (fetch_parts (fetch_nil x.once)).1
  have hlegal : decide (f.md.toNat < 5) = true := by rw [hm]; rfl
  simp only [clstatBody, needInsn_of hlegal, hd, if_pos hm, hpeek, bind_ok, if_neg hact]
  rfl

theorem clstatBody_group (hm : f.md.toNat < 4) (hd : dstCheck x.c f.dst 1 true = .ok ()) (hr : x.Reads [f.srcA 1] r)
    (hg : ((nthOpd r 0).at x.lane).toNat = g) (h256 : g < 256) :
    clstatBody f x = .ok ⟨x.s, x.writeWord (x.c.emptySrcs [f.srcA 1]) f.dst
      (clstatWord f.md.toNat (x.s.group x.c.ctx g)), true⟩ := by
  have hlegal : decide (f.md.toNat < 5) = true := decide_eq_true (by omega)
  have hports : f.md ≠ 4 := fun h => absurd hm (by rw [h]; decide)
  obtain ⟨hact, -, hpeek, hdead, hp⟩ := reads_parts hr
  simp only [clstatBody, needInsn_of hlegal, hd, if_neg hports, hpeek, bind_ok, if_neg hact, hg,
    needOpnd_of (decide_eq_true h256), hdead, hp]
  rfl

end

/-! The link (R343) and the ports (R344, R346). -/

theorem exec_flitCrcResend (s : State) (good : Bool) : exec (.flitCrcResend good) s = .next (s.resendFlit good) := rfl
theorem exec_linkDown (s : State) : exec .linkDown s = .next s.dropLink := rfl
theorem exec_portDown (s : State) (p : Nat) : exec (.portDown p) s = .next (s.setPort p 0) := rfl

theorem exec_portTraining (s : State) (p : Nat) {n : Nat} (hn : n = 4 ∨ n = 2 ∨ n = 1) :
    exec (.portTraining p n) s = .next (s.setPort p n) := congrArg Host.Outcome.next (if_pos hn)

section
variable {s : State}

theorem State.resendFlit_good (h : s.d2dUp = true) : s.resendFlit true = { s with crcFails := 0 } := by
  rw [State.resendFlit, h]; rfl

theorem State.resendFlit_bad (h : s.d2dUp = true) :
    s.resendFlit false = ({ s with crcFails := s.crcFails + 1 } : State).dropLink := by
  rw [State.resendFlit, h]; rfl

theorem State.dropLink_stays (h : s.crcFails < 16) : s.dropLink = s := by
  have hfew : ¬ (s.d2dUp && decide (16 ≤ s.crcFails)) = true := by rw [decide_eq_false (Nat.not_le.mpr h), Bool.and_false]; decide
  exact if_neg hfew

theorem State.dropLink_falls (hup : s.d2dUp = true) (h : 16 ≤ s.crcFails) :
    s.dropLink = ({ s with d2dUp := false } : State).logEvent 0 8 0 0 := by
  have hfalls : (s.d2dUp && decide (16 ≤ s.crcFails)) = true := by rw [hup, decide_eq_true h]; rfl
  exact if_pos hfalls

/-- A UALink port that has fewer than four lanes is logged. -/
theorem State.setPort_ual {p n : Nat} (hp : p < 16) (hn : n < 4) : s.setPort p n =
    ({ s with ualLanes := mput s.ualLanes p n } : State).logEvent (p / 8) 9 (BitVec.ofNat 64 p) (BitVec.ofNat 64 n) := by
  have hport : p < 20 ∧ n < 4 := ⟨by omega, hn⟩
  simp only [State.setPort, if_pos hp, if_pos hport, portDie]

theorem State.setPort_ualFull {p : Nat} (hp : p < 16) : s.setPort p 4 = { s with ualLanes := mput s.ualLanes p 4 } := by
  simp only [State.setPort, if_pos hp, Nat.lt_irrefl, and_false, if_false]

/-- An Ultra Ethernet port that has fewer than four lanes is logged. -/
theorem State.setPort_ue {p n : Nat} (hp : p < 4) (hn : n < 4) : s.setPort (16 + p) n =
    ({ s with ueLanes := mput s.ueLanes p n } : State).logEvent (p / 2) 9 (BitVec.ofNat 64 (16 + p)) (BitVec.ofNat 64 n) := by
  have hual : ¬ 16 + p < 16 := by omega
  have hue : 16 + p < 20 := by omega
  simp only [State.setPort, if_neg hual, if_pos hue, if_pos (And.intro hue hn), portDie, Nat.add_sub_cancel_left]

end

end Sys2Proof.Machine

open Sys2Proof Sys2Proof.Machine

/-- Settles O39: GRPDEF ends in a wait that is looked at at once, CLSTAT completes in its slot; a flit or a port changes the one
count or lane number of its rule, logged where the rule says so. -/
theorem groupAndLinkResult : Obligations.GroupAndLinkResult := by
  unfold Obligations.GroupAndLinkResult
  refine ⟨fun f s x r => ⟨?grpdef, ?clstat⟩, fun s => ⟨?good, ?bad, ?sixteenth, ?down, ?ualDown, ?ueDown, ?ualFull, ?ualFewer⟩⟩
  case grpdef =>
    intro hx hd g va h256
    exact ⟨fun hr hal => issueW_ends hx (grpdefBody_waits false hd hr rfl h256 rfl (fun _ => hal)),
      fun hr => issueW_ends hx (grpdefBody_waits true hd hr rfl h256 rfl nofun)⟩
  case clstat =>
    intro hx hd
    exact ⟨fun hm hact => issue_ends hx (clstatBody_ports hm hact hd),
      fun hm hr h256 => issue_ends hx (clstatBody_group hm hd hr rfl h256)⟩
  case good => intro hup; rw [exec_flitCrcResend, State.resendFlit_good hup]
  case bad =>
    intro hup hfew
    have hfew' : s.crcFails + 1 < 16 := by omega
    rw [exec_flitCrcResend, State.resendFlit_bad hup, State.dropLink_stays hfew']
  case sixteenth =>
    intro hup hmany
    have hmany' : 16 ≤ s.crcFails + 1 := by omega
    rw [exec_flitCrcResend, State.resendFlit_bad hup]
    exact congrArg _ (State.dropLink_falls (s := { s with crcFails := s.crcFails + 1 }) hup hmany')
  case down => intro hup hmany; rw [exec_linkDown, State.dropLink_falls hup hmany]
  case ualDown => exact fun p hp => (exec_portDown s p).trans (congrArg _ (State.setPort_ual hp (by decide)))
  case ueDown => exact fun p hp => (exec_portDown s _).trans (congrArg _ (State.setPort_ue hp (by decide)))
  case ualFull => intro p hp; rw [exec_portTraining s p (.inl rfl), State.setPort_ualFull hp]
  case ualFewer =>
    intro p n hp hn
    obtain ⟨hlanes, h4⟩ : (n = 4 ∨ n = 2 ∨ n = 1) ∧ n < 4 := by omega
    rw [exec_portTraining s p hlanes, State.setPort_ual hp h4]
end

section
/-!
PROOFS. An arrival at a team's barrier (R373 to R375): the word that it leaves, and when its generation is complete.
-/

namespace Sys2Proof.Machine

/-- A bit that is not set is set by addition. -/
theorem add_two_pow_eq_or {m p : Nat} (h : m.testBit p = false) : m + 2 ^ p = m ||| 2 ^ p := by
  induction p generalizing m with
  | zero =>
    show m + 1 = m ||| 1
    have hdiv := Nat.or_div_two (a := m) (b := 1)
    have hmod := Nat.or_mod_two_eq_one (a := m) (b := 1)
    rw [Nat.testBit_zero, decide_eq_false_iff_not] at h
    rw [show 1 / 2 = 0 from rfl, Nat.or_zero] at hdiv
    omega
  | succ p ih =>
    rw [Nat.testBit_succ] at h
    have hdiv := Nat.or_div_two (a := m) (b := 2 ^ (p + 1))
    have hmod := Nat.or_mod_two_eq_one (a := m) (b := 2 ^ (p + 1))
    rw [Nat.pow_succ] at *
    simp only [Nat.mul_mod_left, Nat.mul_div_cancel _ (show 0 < 2 by decide), ← ih h] at hdiv hmod
    omega

/-! The fields of a barrier's word (R373). -/

section
variable {mask gen cnt : Nat} (hm : mask < 2 ^ 32) (hc : cnt < 64)

include hm hc

theorem barWord_toNat : (barWord mask gen cnt).toNat = mask * 2 ^ 32 + gen % 2 ^ 16 * 2 ^ 16 + cnt := by
  rw [barWord, BitVec.toNat_ofNat]
  omega

theorem barMask_barWord : barMask (barWord mask gen cnt) = mask := by
  rw [barMask, bits, barWord_toNat hm hc, Nat.shiftRight_eq_div_pow]
  omega

theorem barGen_barWord : barGen (barWord mask gen cnt) = gen % 2 ^ 16 := by
  rw [barGen, bits, barWord_toNat hm hc, Nat.shiftRight_eq_div_pow]
  omega

theorem barCnt_barWord : barCnt (barWord mask gen cnt) = cnt := by
  rw [barCnt, bits, barWord_toNat hm hc, Nat.shiftRight_eq_div_pow]
  omega

end

theorem barMask_lt (d : Dword) : barMask d < 2 ^ 32 := Nat.mod_lt _ (by decide)
theorem barGen_mod (d : Dword) : barGen d % 2 ^ 16 = barGen d := Nat.mod_mod _ _
theorem barCnt_lt (d : Dword) : barCnt d < 64 := Nat.mod_lt _ (by decide)

/-! A generation's completion (R375). -/

/-- A release of a donor's lanes leaves the teams as they were. -/
theorem State.releaseDonors_teams (donors : List Nat) (s : State) :
    (donors.foldl (fun s i => s.releaseDonor i) s).teams = s.teams := by
  induction donors generalizing s with
  | nil => rfl
  | cons i donors ih => exact ih (s.releaseDonor i)

/-- A team with another word at one of its barriers. -/
def Team.setBar (t : Team) (n : Nat) (d : Dword) : Team := { t with bars := mput t.bars n d }

@[simp] theorem Team.setBar_bar (t : Team) (n : Nat) (d : Dword) : (t.setBar n d).bar n = d := by
  rw [Team.bar, Team.setBar, mgetD, mget_mput_same]; rfl

theorem Team.barFull_iff {t : Team} {mask gen cnt : Nat} (hm : mask < 2 ^ 32) (hc : cnt < 64) :
    t.barFull (barWord mask gen cnt) = true ↔
      if cnt = 0 then ∀ p < t.crews.length, t.exited.contains p = true ∨ mask.testBit p = true
      else cnt ≤ ((List.range 32).filter (fun p => mask.testBit p)).length := by
  rw [Team.barFull, barCnt_barWord hm hc, barMask_barWord hm hc]
  split <;> simp

theorem State.testBar_waits {s : State} {team n : Nat} {t : Team} (ht : mget s.teams team = some t)
    (hfull : t.barFull (t.bar n) = false) : s.testBar team n = s := by
  simp [State.testBar, ht, hfull]

theorem State.testBar_full {s : State} {team n mask gen cnt : Nat} {t : Team} (ht : mget s.teams team = some t) (hm : mask < 2 ^ 32) (hc : cnt < 64)
    (hbar : t.bar n = barWord mask gen cnt) (h0 : mask ≠ 0) (hfull : t.barFull (barWord mask gen cnt) = true) :
    mget (s.testBar team n).teams team = some (t.setBar n (barWord 0 (gen % 2 ^ 16 + 1) cnt)) := by
  have hgo : (decide (barMask (barWord mask gen cnt) = 0) || !t.barFull (barWord mask gen cnt)) = false := by
    rw [barMask_barWord hm hc, hfull, decide_eq_false h0]; rfl
  simp only [State.testBar, ht, hbar, hgo, Bool.false_eq_true, if_false, State.releaseDonors_teams, barGen_barWord hm hc,
    barCnt_barWord hm hc]
  rw [State.modTeam, mget_mmod_same, ht]
  rfl

/-- The state with another word at a barrier of a crew's team. -/
def State.setBar (s : State) (c : Crew) (n : Nat) (d : Dword) : State := s.modTeam c.team (fun t => t.setBar n d)

theorem State.setBar_team {s : State} {c : Crew} {t : Team} (ht : mget s.teams c.team = some t) (n : Nat) (d : Dword) :
    mget (s.setBar c n d).teams c.team = some (t.setBar n d) := by
  unfold State.setBar State.modTeam
  rw [mget_mmod_same, ht]
  rfl

/-- An arrival that the barrier takes adds its position, and then the generation is looked at. -/
theorem State.arriveBar_ok {s : State} {c : Crew} {n count : Nat} {t : Team} (ht : mget s.teams c.team = some t)
    (hnew : (barMask (t.bar n)).testBit c.teampos = false) (hcount : barMask (t.bar n) = 0 ∨ count = barCnt (t.bar n)) :
    s.arriveBar c n count = .ok ((s.setBar c n
      (barWord (barMask (t.bar n) ||| 2 ^ c.teampos) (barGen (t.bar n)) count)).testBar c.team n, barGen (t.bar n)) := by
  have hword : barWord (barMask (t.bar n) + 2 ^ c.teampos) (barGen (t.bar n))
      (if barMask (t.bar n) = 0 then count else barCnt (t.bar n)) =
      barWord (barMask (t.bar n) ||| 2 ^ c.teampos) (barGen (t.bar n)) count := by
    rw [add_two_pow_eq_or hnew]
    obtain h | h := hcount
    · rw [if_pos h]
    · rw [← h, ite_self]
  have hagree : ¬ (barMask (t.bar n) ≠ 0 ∧ count ≠ barCnt (t.bar n)) := fun h => hcount.elim h.1 h.2
  simp only [State.arriveBar, ht, hnew, Bool.false_eq_true, if_false, if_neg hagree, hword]
  rfl

end Sys2Proof.Machine

open Sys2Proof Sys2Proof.Machine

/-- Settles O33: the arrival leaves its word at the barrier, which is full by the rule's count of its arrivals, and then empty at the
next generation. -/
theorem barrierGenerationResult : Obligations.BarrierGenerationResult := by
  unfold Obligations.BarrierGenerationResult
  intro s c n count tm ht hnew hpos hcount hagree mask full
  have hm : mask < 2 ^ 32 := Nat.or_lt_two_pow (barMask_lt _) (Nat.pow_lt_pow_right (by decide) hpos)
  have hc : count < 64 := by omega
  have h0 : mask ≠ 0 := fun h => by
    have hzero := congrArg (·.testBit c.teampos) h
    simp [mask] at hzero
  have ht1 := State.setBar_team ht n (barWord mask (barGen (tm.bar n)) count)
  have hbar := tm.setBar_bar n (barWord mask (barGen (tm.bar n)) count)
  have hfull : (tm.setBar n (barWord mask (barGen (tm.bar n)) count)).barFull (barWord mask (barGen (tm.bar n)) count) = true ↔ full :=
    Team.barFull_iff hm hc
  by_cases h : full
  · refine ⟨_, _, State.arriveBar_ok ht hnew hagree, State.testBar_full ht1 hm hc hbar h0 (hfull.mpr h), fun _ => ?_, fun hn => absurd h hn⟩
    rw [Team.setBar_bar, barMask_barWord (by decide) hc, barGen_barWord (by decide) hc, barGen_mod]
    exact ⟨rfl, rfl⟩
  · refine ⟨_, _, (State.arriveBar_ok ht hnew hagree).trans ?stays, ht1, fun hf => absurd hf h, fun _ => ?_⟩
    case stays =>
      rw [State.testBar_waits ht1 (by rw [hbar]; exact Bool.eq_false_iff.mpr (fun e => h (hfull.mp e)))]
    rw [hbar, barMask_barWord hm hc, barGen_barWord hm hc, barCnt_barWord hm hc, barGen_mod]
    exact ⟨rfl, rfl, rfl⟩
end

section
/-!
PROOFS. The SPDM responder (R482, R485 to R487) and the datagrams at the host ports (R465, R466).
-/

namespace Sys2Proof.Machine

/-! A request that finds the responder listening. -/

section
variable {s : State} (h : s.rot.silent = false)

include h

theorem State.exchange_listening (code conn : Nat) (go : State → State) : s.exchange code conn go =
    (go (State.receive { s with free := s.free + 1 } ((Config.spdmRequest code conn s.free).take 0x400))).respond conn
      ((Config.spdmBytes code conn Config.algorithms s.rot.certChain s.rot.aliasSeed s.free).take 0x400) :=
  if_neg (by simp [h])

theorem State.unsupported_listening (code conn : Nat) : s.unsupported code conn =
    (s.freshFree.1.receive ((Config.spdmRequest code conn s.free).take 0x400)).respond conn
      [0x12, 0x7F, 0x07, s.freshFree.2.setWidth 8] := if_neg (by simp [h])

/-- A single-index request of a negotiated connection is served by the routine meas. -/
theorem State.measurements_single {conn : Nat} {idx : Byte} (hstage : 1 ≤ s.rot.stage conn) (h0 : idx ≠ 0) (h9 : idx.toNat ≤ 9) :
    s.measurements conn [0x12, 0xE0, 0x00, idx] = s.runMeas conn [0x12, 0xE0, 0x00, idx] := by
  have hff : idx ≠ 0xFF := fun e => absurd h9 (by rw [e]; decide)
  have hsingle : (idx != 0 && idx != 0xFF) = true := by rw [bne_iff_ne.mpr h0, bne_iff_ne.mpr hff]; rfl
  have hrom : ((idx != 0 && idx != 0xFF) && decide (1 ≤ s.rot.stage conn)) = true := by rw [hsingle, decide_eq_true hstage]; rfl
  exact (if_neg (by simp [h])).trans (if_pos hrom)

/-- A request of another length, or for all measurements, is served by the firmware. -/
theorem State.measurements_other (conn : Nat) {req : List Byte} (hreq : req.length ≠ 4 ∨ req.getD 3 0 = 0xFF) :
    s.measurements conn req = (State.receive { s with free := s.free + 1 } (req.take 0x400)).respond conn
      (s.rot.response reqMeasurements conn s.free) := by
  have hsingle : (req.length == 4 && req.take 3 == [0x12, 0xE0, 0x00] && req.getD 3 0 != 0 && req.getD 3 0 != 0xFF) = false := by
    obtain hlen | hall := hreq
    · rw [beq_eq_false_iff_ne.mpr hlen]; rfl
    · rw [hall]; exact Bool.and_false _
  simp only [State.measurements, h, hsingle, Bool.false_and, Bool.false_eq_true, if_false]

end

/-- An event that is an exchange does what the statement of one says. -/
theorem exchanges_of_exchange {i : Instr} {code conn : Nat} {s : State} {go : State → State}
    (he : exec i s = .next (s.exchange code conn go)) : Exchanges i code conn s go :=
  fun h => he.trans (congrArg _ (State.exchange_listening h code conn go))

theorem State.runMeas_index (s : State) (conn : Nat) {idx : Byte} (h0 : idx ≠ 0) (h9 : idx.toNat ≤ 9) :
    s.runMeas conn [0x12, 0xE0, 0x00, idx] =
      ((s.receive [0x12, 0xE0, 0x00, idx]).modRot (fun r => { r with
        rxbuf := putBytes r.rxbuf 0x300 (s.rot.noise 4), rng := Config.entropy (r.rngs + 3), rngs := r.rngs + 4 })).respond conn
        (s.measBlock idx.toNat ++ s.rot.noise 4 ++ [0, 0]) := by
  have hbad : ¬ (([0x12, 0xE0, 0x00, idx] : List Byte).take 3 ≠ [0x12, 0xE0, 0x00] ∨ idx.toNat = 0 ∨ 9 < idx.toNat) := by
    have hpos : idx.toNat ≠ 0 := fun e => h0 (BitVec.eq_of_toNat_eq e)
    rintro (hhead | hidx | hidx)
    · exact hhead rfl
    · exact hpos hidx
    · omega
  exact if_neg hbad

/-! What exec runs for the requests and for a datagram. -/

theorem exec_getMeasurements (s : State) (conn : Nat) (req : List Byte) :
    exec (.getMeasurements conn req) s = .next (s.measurements conn req) := rfl
theorem exec_unsupportedRequest (s : State) (conn : Nat) : exec (.unsupportedRequest conn) s = .next (s.unsupported 0 conn) := rfl
theorem exec_securedMessage (s : State) (m : SecMsg) : exec (.securedMessage m) s = .next (s.secured m) := rfl

theorem exec_getCertificate_other (s : State) (conn : Nat) {slot : Nat} (h : slot ≠ 0) :
    exec (.getCertificate conn slot) s = .next (s.unsupported (reqCertificate + 256 * slot) conn) :=
  congrArg Host.Outcome.next (if_neg h)

/-! Datagrams at a host port (R465, R466). -/

section
variable {s t : State} {m : SecMsg}

theorem State.secured_refused (h : m.auth = false ∨ s.accept m.ident m.seq = none) : s.secured m = s.portDrop m.port := by
  have hdrop : (!m.auth || (s.accept m.ident m.seq).isNone) = true := by
    obtain h | h := h <;> simp [h]
  exact if_pos hdrop

variable (hauth : m.auth = true) (ha : s.accept m.ident m.seq = some t)

include hauth ha

theorem State.secured_launch (hp : m.dport = 0x5A30) :
    s.secured m = s.launchDatagram { port := m.port, ident := m.ident, seq := m.seq, bytes := m.bytes } := by
  simp [State.secured, hauth, ha, hp]

theorem State.secured_command (hp : m.dport = 0x5A31) : s.secured m =
    { t with agenda := .queued (cmdOf m.port m.ident m.seq m.bytes).1 (cmdOf m.port m.ident m.seq m.bytes).2 :: t.agenda } := by
  simp [State.secured, hauth, ha, hp]

theorem State.secured_hostWindow (hp : m.dport = 0x5A32) : s.secured m = s.hostReply (replyOf m.port m.ident m.seq m.bytes) := by
  simp [State.secured, hauth, ha, hp]

end

end Sys2Proof.Machine

open Sys2Proof Sys2Proof.Machine

/-- Settles O42: the listed requests are exchanges, each with its step of the connection; a datagram goes where its port is. -/
theorem spdmEventResult : Obligations.SpdmEventResult := by
  unfold Obligations.SpdmEventResult
  refine ⟨fun s conn => ⟨exchanges_of_exchange rfl, exchanges_of_exchange rfl, exchanges_of_exchange rfl, exchanges_of_exchange rfl,
      exchanges_of_exchange rfl, fun slot hslot => exec_getCertificate_other s conn hslot, fun slot => exchanges_of_exchange rfl,
      exchanges_of_exchange rfl, fun cert => exchanges_of_exchange rfl, exchanges_of_exchange rfl, exchanges_of_exchange rfl,
      exchanges_of_exchange rfl, fun h => ⟨?single, ?other, ?unsupported⟩⟩,
    fun s m => ⟨?refused, fun t hauth ha => ⟨?launch, ?command, ?hostWindow⟩⟩⟩
  case single =>
    intro idx hstage h0 h9 nonce
    rw [exec_getMeasurements, State.measurements_single h hstage h0 h9, State.runMeas_index s conn h0 h9]
  case other => intro req hreq; rw [exec_getMeasurements, State.measurements_other h conn hreq]
  case unsupported => rw [exec_unsupportedRequest, State.unsupported_listening h]
  case refused => intro href; rw [exec_securedMessage, State.secured_refused href]
  case launch => intro hp; rw [exec_securedMessage, State.secured_launch hauth ha hp]
  case command => intro hp; rw [exec_securedMessage, State.secured_command hauth ha hp]
  case hostWindow => intro hp; rw [exec_securedMessage, State.secured_hostWindow hauth ha hp]
end

section
/-!
PROOFS. The commands on contexts and queues (R420, R458, R459, R469 to R471, R473, R504).
-/

namespace Sys2Proof.Machine

/-! A command on a context of its identity (R467). -/

section
variable {s : State} {h : CmdHdr} {ctx : Nat} (hctx : ctx ≤ 255)

include hctx

theorem State.onCtx_own {x : Ctx} (hx : mget s.ctxs ctx = some x) (hid : x.ident = h.ident) (run : Ctx → Answer) :
    s.onCtx h ctx run = run x := by
  simp [State.onCtx, Nat.not_lt.mpr hctx, hx, hid]

theorem State.onCtx_denied {x : Ctx} (hx : mget s.ctxs ctx = some x) (hid : x.ident ≠ h.ident) (run : Ctx → Answer) :
    s.onCtx h ctx run = s.no stDenied := by
  simp [State.onCtx, Nat.not_lt.mpr hctx, hx, hid]

theorem State.onCtx_absent (hx : mget s.ctxs ctx = none) (run : Ctx → Answer) : s.onCtx h ctx run = s.no stState := by
  simp [State.onCtx, Nat.not_lt.mpr hctx, hx]

end

/-! A command that its port accepts, discards, or keeps for later (R466, R470). -/

/-- A command that is taken answers what its routine does. -/
theorem State.Takes.answers {s t : State} {h : CmdHdr} {b : Session} (ht : s.Takes h t b) {i : Instr} {code : Nat}
    {ops : List Nat} {str : List Byte} {run : State → Session → Answer} {r : Answer}
    (he : exec i s = .next (s.command h { code := code, ops := ops, str := str } run)) (hr : run t b = r) : Answers i s h code b r := by
  rw [Answers, he, ht.command, hr]

theorem State.command_discarded {s : State} {h : CmdHdr} (hs : s.received h = none) (op : CmdOp)
    (run : State → Session → Answer) : s.command h op run = s.portDrop h.port := by
  simp only [State.command, State.onCommand, hs]

theorem State.command_waits {s t : State} {h : CmdHdr} (hs : s.received h = some t)
    (hw : t.tlbWait.isSome = true ∨ t.ctxWait.isSome = true) (op : CmdOp) (run : State → Session → Answer) :
    s.command h op run = { t with cmds := t.cmds ++ [(h, op)] } := by
  have hbusy : (t.tlbWait.isSome || t.ctxWait.isSome) = true := by simpa using hw
  simp only [State.command, State.onCommand, hs, hbusy, if_true]

/-! What exec runs. -/

section
variable (s : State) (h : CmdHdr) (ctx : Nat)

theorem exec_ctxdestroy : exec (.ctxdestroy h ctx) s = .next (s.command h { code := 0x02, ops := [ctx], str := [] }
    (fun s _ => s.onCtx h ctx (fun _ => (s.destroyCtx ctx).yes))) := rfl
theorem exec_halt : exec (.halt h ctx) s = .next (s.command h { code := 0x05, ops := [ctx], str := [] }
    (fun s _ => s.onCtx h ctx (fun _ => (s.debugHalt ctx).yes))) := rfl
theorem exec_release : exec (.release h ctx) s = .next (s.command h { code := 0x06, ops := [ctx], str := [] }
    (fun s _ => s.onCtx h ctx (fun _ => (s.clearCauses ctx 0x02).yes))) := rfl
theorem exec_faultclr : exec (.faultclr h ctx) s = .next (s.command h { code := 0x07, ops := [ctx], str := [] }
    (fun s _ => s.onCtx h ctx (fun _ => (s.clearCauses ctx 0x51).yes))) := rfl

/-- What RESUME answers for a context of its identity (R459). -/
def State.resumed (s : State) (ctx : Nat) : Answer :=
  match s.resumeCtx ctx with
  | some u => u.yes
  | none => s.no stState

theorem exec_resume : exec (.resume h ctx) s = .next (s.command h { code := 0x08, ops := [ctx], str := [] }
    (fun s _ => s.onCtx h ctx (fun _ => s.resumed ctx))) := rfl

/-- What HOSTWIN does where the window's size is legal (R473). -/
theorem exec_hostwin {size : Nat} (hal : size % 65536 = 0) (hmax : size ≤ 2 ^ 44) (base : Nat) :
    exec (.hostwin h ctx base size) s = .next (s.command h { code := 0x12, ops := [ctx, base, size], str := [] }
      (fun s _ => s.onCtx h ctx (fun _ => (s.modCtx ctx (fun x => { x with window := some (BitVec.ofNat 64 base, size) })).yes))) := by
  have hrange : ¬ (size % 65536 ≠ 0 ∨ 2 ^ 44 < size) := by omega
  show execHostwin h ctx base size s = _
  simp only [execHostwin, if_neg hrange]

theorem exec_bindq (q : Nat) (caddr : Dword) (priv : Bool) : exec (.bindq h q ctx caddr priv) s =
    .next (s.command h { code := 0x03, ops := [q, ctx, caddr.toNat, priv.toNat], str := [] } (fun s _ => s.bindQueue h q ctx caddr priv)) := rfl
theorem exec_unbindq (q : Nat) : exec (.unbindq h q) s =
    .next (s.command h { code := 0x04, ops := [q], str := [] } (fun s _ => s.unbindQueue h q)) := rfl

end

/-! Queues (R420). -/

theorem State.bindQueue_free {s : State} {h : CmdHdr} {q ctx : Nat} {caddr : Dword} {x : Ctx} (hctx : ctx ≤ 255)
    (hx : mget s.ctxs ctx = some x) (hid : x.ident = h.ident) (hq : q ≤ 4095) (hal : caddr.toNat % 8 = 0)
    (hfree : mget s.queues q = none) (priv : Bool) : s.bindQueue h q ctx caddr priv =
      State.yes { s with queues := mput s.queues q ⟨ctx, h.ident, caddr, priv, 1, 0, [], []⟩ } := by
  have hrange : ¬ (4095 < q ∨ caddr.toNat % 8 ≠ 0) := by simp [hal, Nat.not_lt.mpr hq]
  rw [State.bindQueue, if_neg hrange, State.onCtx_own hctx hx hid, hfree]
  rfl

theorem State.unbindQueue_own {s : State} {h : CmdHdr} {q : Nat} {d : Queue} (hd : mget s.queues q = some d) (hid : d.ident = h.ident) :
    s.unbindQueue h q = (s.unbind q).yes := by
  simp [State.unbindQueue, hd, hid]

/-! CTXCREATE (R504). -/

/-- A CTXCREATE that its session has just sent. -/
def freshCreate (h : CmdHdr) (b : Session) (desc : List Dword) : CreateCmd := { hdr := h, slot := b.slot, desc := desc, buf := [], bad := false }

theorem State.Takes.ctxcreate {s t : State} {h : CmdHdr} {b : Session} (ht : s.Takes h t b) (desc : List Dword) :
    exec (.ctxcreate h desc) s = .next (t.tryCreate (freshCreate h b desc)).1 := by
  obtain ⟨hr, htlb, hctx, hb⟩ := ht
  show execCtxcreate h desc s = _
  simp [execCtxcreate, State.onCommand, hr, htlb, hctx, hb, freshCreate]

/-- The context that a CTXCREATE makes, with its partition and its chains (R366, R504). -/
def State.withCtx (v : State) (n : Nat) (x : Ctx) (bs : List Byte) : State :=
  { v with ctxs := mput v.ctxs n { x with collClus := v.partition x.cpart },
           chains := (listOf bs).foldl (fun m e => mput m (e.getD 0 0).toNat (boundChain n e)) v.chains }

section
variable {s v : State} {h : CmdHdr} {b : Session} {desc : List Dword} {n : Nat} {buf : List (Nat × List Byte × Bool)}
  (h1 : s.rot.lcs ≠ 1) (h4 : s.rot.lcs ≠ 4) (hn : mfree s.ctxs 256 = some n) (hd : badDescriptor (newCtx h.ident desc) = false)

include h1 h4 hn hd

theorem State.tryCreate_reads {bs : List Byte} (hr : s.readList n (newCtx h.ident desc) [] = ⟨v, buf, .data bs false⟩)
    (hl : badList (listOf bs) = false) (hc : (listOf bs).any (fun e => (mget s.chains (e.getD 0 0).toNat).isSome) = false) :
    (s.tryCreate (freshCreate h b desc)).1 =
      State.answered h 0x01 b.slot (v.withCtx n (newCtx h.ident desc) bs, stOk, leBytes 8 n) := by
  have hlife : ¬ (s.rot.lcs = 1 ∨ s.rot.lcs = 4) := not_or.mpr ⟨h1, h4⟩
  have hdone : s.createCtx (freshCreate h b desc) = .done (v.withCtx n (newCtx h.ident desc) bs, stOk, leBytes 8 n) := by
    simp only [State.createCtx, freshCreate, if_neg hlife, hn, hd, hr, hl, hc, Bool.or_self, Bool.false_eq_true, if_false]
    rfl
  rw [State.tryCreate, hdone]
  rfl

theorem State.tryCreate_waits (hr : s.readList n (newCtx h.ident desc) [] = ⟨v, buf, .wait⟩) :
    (s.tryCreate (freshCreate h b desc)).1 = { v with ctxWait := some { freshCreate h b desc with buf := buf } } := by
  have hlife : ¬ (s.rot.lcs = 1 ∨ s.rot.lcs = 4) := not_or.mpr ⟨h1, h4⟩
  have hwait : s.createCtx (freshCreate h b desc) = .wait v buf := by
    simp only [State.createCtx, freshCreate, if_neg hlife, hn, hd, hr, Bool.or_self, Bool.false_eq_true, if_false]
  rw [State.tryCreate, hwait]

end

end Sys2Proof.Machine

open Sys2Proof Sys2Proof.Machine

/-- Settles O40: a command that is taken answers what its routine does for the context or the queue that it names. -/
theorem contextCommandResult : Obligations.ContextCommandResult := by
  unfold Obligations.ContextCommandResult
  refine ⟨fun s t h b ht => ⟨?create, fun ctx x hctx hx => ⟨fun hid => ?own, fun hid => ⟨?denied, ?haltDenied⟩⟩, ?absent, ?unbind⟩,
    fun s h ctx => ⟨fun hs => ⟨?haltDropped, ?resumeDropped⟩, fun t hs hw => ⟨?haltKept, ?resumeKept⟩⟩⟩
  case create =>
    intro desc n v buf h1 h4 hn hd x
    refine ⟨fun bs hr hl hc => ?_, fun hr => ?_⟩
    · exact (ht.ctxcreate desc).trans (congrArg _ (State.tryCreate_reads h1 h4 hn hd hr hl hc))
    · exact (ht.ctxcreate desc).trans (congrArg _ (State.tryCreate_waits h1 h4 hn hd hr))
  case own =>
    have hown := State.onCtx_own hctx hx hid
    refine ⟨ht.answers (exec_ctxdestroy s h ctx) (hown _), ht.answers (exec_halt s h ctx) (hown _),
      ht.answers (exec_release s h ctx) (hown _), ht.answers (exec_faultclr s h ctx) (hown _), fun u hu => ?goes, fun hu => ?stays,
      fun base size hal hmax => ht.answers (exec_hostwin s h ctx hal hmax base) (hown _),
      fun q caddr priv hq hal hfree => ht.answers (exec_bindq s h ctx q caddr priv) (State.bindQueue_free hctx hx hid hq hal hfree priv)⟩
    case goes => exact ht.answers (exec_resume s h ctx) ((hown _).trans (by rw [State.resumed, hu]))
    case stays => exact ht.answers (exec_resume s h ctx) ((hown _).trans (by rw [State.resumed, hu]))
  case denied => exact ht.answers (exec_ctxdestroy s h ctx) (State.onCtx_denied hctx hx hid _)
  case haltDenied => exact ht.answers (exec_halt s h ctx) (State.onCtx_denied hctx hx hid _)
  case absent => exact fun ctx hctx hx => ht.answers (exec_ctxdestroy s h ctx) (State.onCtx_absent hctx hx _)
  case unbind => exact fun q d hd hid => ht.answers (exec_unbindq s h q) (State.unbindQueue_own hd hid)
  case haltDropped => exact (exec_halt s h ctx).trans (congrArg _ (State.command_discarded hs _ _))
  case resumeDropped => exact (exec_resume s h ctx).trans (congrArg _ (State.command_discarded hs _ _))
  case haltKept => exact (exec_halt s h ctx).trans (congrArg _ (State.command_waits hs hw _ _))
  case resumeKept => exact (exec_resume s h ctx).trans (congrArg _ (State.command_waits hs hw _ _))
end

section
/-!
PROOFS. Stop records, time slices, the watchdog, eviction and restoration (R448, R449, R456, R457, R460).
-/

namespace Sys2Proof.Machine

/-! A context's halt line (R447). -/

theorem State.trigger_ctxs (s : State) : s.trigger.ctxs = s.ctxs := by
  unfold State.trigger
  split <;> rfl

/-- A context whose line is low halts with the cause, which the context itself holds; the next halt number is taken. -/
theorem State.raiseLine_ctx {s : State} {ctx : Nat} {x : Ctx} (hx : mget s.ctxs ctx = some x) (hlow : x.halted = false) (c : Cause) :
    mget (s.raiseLine ctx c none).ctxs ctx = some { x with
      own := x.own.join c, halted := true, cause := c, haltseq := x.haltseq + 1, recorded := false, raiser := none } := by
  simp only [State.raiseLine, hx, Option.isNone_none, if_true, hlow, Bool.false_eq_true, if_false]
  split
  · rw [State.trigger_ctxs]
    exact mget_mput_same ..
  · exact mget_mput_same ..

/-- The escalation raises the halt line of a context with a crew still there (R457). -/
theorem State.escalate_ctx {s : State} {ctx : Nat} {x : Ctx} (hx : mget s.ctxs ctx = some x) (hlow : x.halted = false)
    (hask : x.yieldReq = true) (hleft : s.allEvicted ctx = false) :
    mget (s.escalate ctx).ctxs ctx = some { x with
      halted := true, cause := Cause.none.add causeTslice 0, haltseq := x.haltseq + 1, recorded := false, raiser := none } := by
  simp only [State.escalate, hx]
  rw [if_neg (by simp [hask, hlow, hleft])]
  show mget (mmod _ ctx _) ctx = _
  rw [mget_mmod_same, State.raiseLine_ctx hx hlow]
  rfl

theorem State.ctxRuns_of {s : State} {ctx : Nat} {x : Ctx} (hx : mget s.ctxs ctx = some x) (hlow : x.halted = false) :
    s.ctxRuns ctx = true := by simp [State.ctxRuns, hx, hlow]

theorem State.watchdog_waits {s : State} {id : Nat} {c : Crew} {x : Ctx} {w : Wait} (hc : mget s.crews id = some c)
    (hx : mget s.ctxs c.ctx = some x) (hlow : x.halted = false) (hin : c.evicted = false) (hdog : x.wdog ≠ 0) (hw : c.wait = some w)
    (hkind : 1 ≤ w.kind) : s.watchdog id =
      (s.setCrew id { c with cause := c.cause.add causeWdog 0 }).raiseLine c.ctx (Cause.none.add causeWdog 0) (some id) := by
  simp [State.watchdog, hc, hx, hw, hkind, hin, hdog, State.ctxRuns_of hx hlow]

/-- A context's crews that are there are saved. -/
def State.savedCrews (s : State) (ctx : Nat) : State :=
  ((s.ctxCrews ctx).filter (fun e => !e.2.evicted && !e.2.done)).foldl (fun (s : State) e => s.saveCrew e.1) s

theorem State.stopRecords_stopped {s : State} {ctx : Nat} {x y : Ctx} (hx : mget s.ctxs ctx = some x) (hhalt : x.halted = true)
    (hopen : x.recorded = false) (hstop : s.memStopped ctx = true) (hy : mget (s.savedCrews ctx).ctxs ctx = some y) :
    s.stopRecords ctx = ((s.savedCrews ctx).writeArea ctx y ((s.savedCrews ctx).areaPieces y ctx ((s.savedCrews ctx).ctxCrews ctx)
      true)).modCtx ctx (fun x => { x with recorded := true }) := by
  unfold State.savedCrews at hy ⊢
  simp only [State.stopRecords, hx]
  exact (if_neg (by simp [hhalt, hopen, hstop])).trans (by simp only [hy])

/-! What an evicted crew keeps while its place is given away (R456). -/

/-- A crew stands evicted with a cause word. -/
def State.EvictedWith (id : Nat) (k : Cause) (s : State) : Prop := ∃ e, mget s.crews id = some e ∧ e.evicted = true ∧ e.cause = k

section
variable {s : State} {id : Nat} {k : Cause} (h : s.EvictedWith id k)

include h

theorem State.EvictedWith.of_crews {t : State} (hcrews : t.crews = s.crews) : t.EvictedWith id k := by
  obtain ⟨e, he, hrest⟩ := h
  exact ⟨e, by rw [hcrews, he], hrest⟩

theorem State.EvictedWith.modCrew (j : Nat) (f : Crew → Crew) (hev : ∀ c, (f c).evicted = c.evicted)
    (hcause : ∀ c, (f c).cause = c.cause) : (s.modCrew j f).EvictedWith id k := by
  obtain ⟨e, he, hgone, hk⟩ := h
  by_cases hj : id = j
  · subst hj
    exact ⟨f e, (mget_mmod_same ..).trans (by rw [he]; rfl), by rw [hev, hgone], by rw [hcause, hk]⟩
  · exact ⟨e, (mget_mmod_ne _ _ _ _ hj).trans he, hgone, hk⟩

theorem State.EvictedWith.enterActive (j : Nat) : (s.enterActive j).EvictedWith id k := by
  unfold State.enterActive
  split
  · exact h
  · exact h.modCrew _ _ (fun _ => rfl) (fun _ => rfl)

end

theorem State.EvictedWith.refill {id : Nat} {k : Cause} (core part fuel : Nat) (s : State) (h : s.EvictedWith id k) :
    (s.refill core part fuel).EvictedWith id k := by
  induction fuel generalizing s with
  | zero => exact h
  | succ n ih =>
    simp only [State.refill]
    split
    · exact h
    · split
      · exact ih _ (h.enterActive _)
      · split
        · exact ih _ (State.EvictedWith.enterActive (h.modCrew _ Crew.leaveActive (fun _ => rfl) (fun _ => rfl)) _)
        · exact h

theorem State.poolStores_crews (owner : Nat) (cs : List Host.Cell) (s : State) : (s.poolStores owner cs).crews = s.crews := by
  unfold State.poolStores
  induction s.pools generalizing s with
  | nil => rfl
  | cons e r ih =>
    rw [List.foldl_cons, ih]
    split <;> rfl

theorem State.homeWrite_crews (s : State) (owner : Nat) (cs : List Host.Cell) (poisoned : Bool) :
    (s.homeWrite owner cs poisoned).crews = s.crews := State.poolStores_crews ..

theorem State.writeArea_crews (s : State) (ctx : Nat) (x : Ctx) (ps : List Piece) : (s.writeArea ctx x ps).crews = s.crews :=
  State.homeWrite_crews ..

/-- The state of a context whose crew is to be evicted, once its registers, and with the last crew the device state, are saved. -/
def State.savedForEvict (s : State) (id : Nat) (c : Crew) : State :=
  if (s.ctxCrews c.ctx).all (fun e => e.1 == id || e.2.evicted || e.2.done || e.2.hgroup.isSome) &&
    (s.saveCrew id).ctxRuns c.ctx then (s.saveCrew id).saveDevice id c else s.saveCrew id

/-- The rest of an eviction: the crew's mark and word, the record of its context, and its place for another (R456). -/
def State.giveUpPlace (s : State) (id : Nat) (c : Crew) : State :=
  let s2 := s.modCrew id (fun d => { d.leaveLoadSet with evicted := true, active := false, cause := d.cause.add causeYield 0 })
  let s3 := if s2.allEvicted c.ctx then s2.modCtx c.ctx (fun x => { x with evicted := true }) else s2
  let s4 := match mget s3.ctxs c.ctx with
    | some x => s3.writeArea c.ctx x (s3.areaPieces x c.ctx ((s3.ctxCrews c.ctx).filter (fun e => e.2.evicted)) false)
    | none => s3
  s4.refill c.core (c.crewid / 32) 8

/-- A quiet crew at a blocking point gives up its place where its context still runs after the save. -/
theorem State.evictCrew_quiet {s : State} {id : Nat} {c : Crew} (hc : mget s.crews id = some c) (hrun : s.ctxRuns c.ctx = true)
    (hin : c.evicted = false) (hask : c.yreq = true) (hdone : c.done = false) (hown : c.hgroup = none) (hrec : c.recruit = none)
    (hblocked : c.blocked = true) (hquiet : c.quiet = true) (hlent : s.lentLanes id = 0)
    (hstill : (s.savedForEvict id c).ctxRuns c.ctx = true) : s.evictCrew id = (s.savedForEvict id c).giveUpPlace id c := by
  have hhelpers : s.releaseHelpers c = s := by simp [State.releaseHelpers, hrec]
  unfold State.evictCrew
  simp only [hc]
  refine (if_neg (by simp [hask, hin, hdone, hown, hrun, hblocked])).trans ?_
  rw [hhelpers]
  refine (if_neg (by simp [hquiet, hlent, hrec])).trans ?_
  exact if_neg (by rw [Bool.not_eq_true]; exact congrArg (!·) hstill)

theorem State.giveUpPlace_evicted {s : State} {id : Nat} {c d : Crew} (hd : mget s.crews id = some d) :
    (s.giveUpPlace id c).EvictedWith id (d.cause.add causeYield 0) := by
  have hgone : State.EvictedWith id (d.cause.add causeYield 0) (s.modCrew id
      (fun d => { d.leaveLoadSet with evicted := true, active := false, cause := d.cause.add causeYield 0 })) :=
    ⟨_, (mget_mmod_same ..).trans (congrArg _ hd), rfl, rfl⟩
  refine State.EvictedWith.refill _ _ _ _ ?_
  split
  · refine State.EvictedWith.of_crews ?_ (State.writeArea_crews ..)
    split <;> exact hgone
  · split <;> exact hgone

/-! A crew comes back (R456). -/

theorem State.restoreCrew_back {s u : State} {id : Nat} {c : Crew} {x : Ctx} (hc : mget s.crews id = some c)
    (hx : mget s.ctxs c.ctx = some x) (hlow : x.halted = false) (hgone : c.evicted = true)
    (hask : x.yieldReq = false ∨ s.allEvicted c.ctx = true) (hfree : s.placeFree c = true)
    (hread : ((if x.evicted then s.loadDevice c else .ok s) >>= fun t => t.readCrew id false) = .ok (some u)) :
    s.restoreCrew id = ((u.standBack id c).endYield c.ctx).payOwed c.slot := by
  have hgo : (!c.evicted || (x.yieldReq && !s.allEvicted c.ctx) || !s.placeFree c) = false := by
    obtain h | h := hask <;> simp [hgone, hfree, h]
  simp only [State.restoreCrew, hc, hx, hlow, hgo, Bool.false_eq_true, if_false, State.bringBack, Option.map_some, Option.getD_some]
  rw [hread]

end Sys2Proof.Machine

open Sys2Proof Sys2Proof.Machine

/-- Settles O37: the stop event and the pre-emption events, each of whose conditions the statement names; an eviction's last steps
leave the crew's word and mark. -/
theorem stopAndYieldEventResult : Obligations.StopAndYieldEventResult := by
  unfold Obligations.StopAndYieldEventResult
  intro s ctx x hx
  refine ⟨?records, ?slice, fun hlow => ⟨?escalation, ?crew, ?back⟩⟩
  case records =>
    intro y hhalt hopen hstop u hy
    exact congrArg Host.Outcome.next (State.stopRecords_stopped hx hhalt hopen hstop hy)
  case slice =>
    intro hslice
    refine congrArg Host.Outcome.next ?_
    simp only [State.askYield, hx, hslice, if_false]
  case escalation =>
    intro hask hleft
    exact ⟨_, _, rfl, State.escalate_ctx hx hlow hask hleft, rfl, rfl, rfl⟩
  case crew =>
    rintro id c hc rfl hin
    refine ⟨fun w hdog hw hkind => congrArg Host.Outcome.next (State.watchdog_waits hc hx hlow hin hdog hw hkind), ?_⟩
    intro d hask hdone hown hrec hblocked hquiet hlent u hstill hd
    obtain ⟨e, he, hgone, hcause⟩ := State.giveUpPlace_evicted (c := c) hd
    exact ⟨_, e, congrArg Host.Outcome.next (State.evictCrew_quiet hc (State.ctxRuns_of hx hlow) hin hask hdone hown hrec hblocked
      hquiet hlent hstill), he, hgone, hcause⟩
  case back =>
    rintro id c v u hc rfl hgone hask hfree hthere hload hread
    refine congrArg Host.Outcome.next (State.restoreCrew_back hc hx hlow hgone hask hfree ?_)
    cases hall : x.evicted with
    | false => rw [← hthere hall]; exact hread
    | true => exact (congrArg (· >>= fun t : State => t.readCrew id false) (hload hall)).trans hread

end

section
/-!
PROOFS. The events of a collective step at a member's reduction point (R359 to R363).
-/

namespace Sys2Proof.Machine

/-! A change of a step's share. -/

/-- A change that leaves the step a share is of. -/
def Coll.KeepsStep (f : Coll → Coll) : Prop := ∀ c, (f c).ctx = c.ctx ∧ (f c).group = c.group ∧ (f c).step = c.step

section
variable (s : State) (ctx group : Nat) (step : Word) (f : Coll → Coll)

theorem State.modColl_same_but_colls : ∃ l, s.modColl ctx group step f = { s with colls := l } := by
  unfold State.modColl
  dsimp only
  split <;> exact ⟨_, rfl⟩

@[simp] theorem State.modColl_group (x n : Nat) : (s.modColl ctx group step f).group x n = s.group x n := by
  obtain ⟨l, hl⟩ := s.modColl_same_but_colls ctx group step f
  rw [hl]; rfl

@[simp] theorem State.modColl_devnum : (s.modColl ctx group step f).devnum = s.devnum := by
  obtain ⟨l, hl⟩ := s.modColl_same_but_colls ctx group step f
  rw [hl]

@[simp] theorem State.modColl_outbox : (s.modColl ctx group step f).outbox = s.outbox := by
  obtain ⟨l, hl⟩ := s.modColl_same_but_colls ctx group step f
  rw [hl]

@[simp] theorem State.modColl_peerPath (dev : Nat) : (s.modColl ctx group step f).peerPath dev = s.peerPath dev := by
  obtain ⟨l, hl⟩ := s.modColl_same_but_colls ctx group step f
  rw [hl]; rfl

end

section
variable {s : State} {ctx group : Nat} {step : Word} {c : Coll} {f : Coll → Coll} (hf : Coll.KeepsStep f)

include hf

/-- The share of the step is the one before it, changed. -/
theorem State.coll_modColl (hc : s.coll ctx group step = some c) : (s.modColl ctx group step f).coll ctx group step = some (f c) := by
  let hit : Coll → Bool := fun c => c.ctx == ctx && c.group == group && c.step == step
  have hkeep (d : Coll) : hit (f d) = hit d := by
    obtain ⟨h1, h2, h3⟩ := hf d
    simp only [hit, h1, h2, h3]
  have hfind : s.colls.find? hit = some c := hc
  have hany : s.colls.any hit = true := List.any_eq_true.mpr ⟨c, List.mem_of_find?_eq_some hfind, List.find?_some hfind⟩
  have hto (d : Coll) : (hit ∘ fun c => if hit c then f c else c) d = hit d := by
    by_cases h : hit d = true <;> simp [h, hkeep]
  have hmod : s.modColl ctx group step f = { s with colls := s.colls.map (fun c => if hit c then f c else c) } := if_pos hany
  rw [hmod]
  show (s.colls.map (fun c => if hit c then f c else c)).find? hit = some (f c)
  rw [List.find?_map, funext hto, hfind]
  exact congrArg some (if_pos (List.find?_some hfind))

theorem State.openColl_modColl (hc : s.openColl ctx group step = some c) (hrec : (f c).record = c.record) :
    (s.modColl ctx group step f).openColl ctx group step = some (f c) := by
  obtain ⟨hcoll, hopen⟩ := Option.filter_eq_some_iff.mp hc
  refine Option.filter_eq_some_iff.mpr ⟨State.coll_modColl hf hcoll, ?_⟩
  rw [hrec, hopen]

end

theorem State.coll_of_openColl {s : State} {ctx group : Nat} {step : Word} {c : Coll} (hc : s.openColl ctx group step = some c) :
    s.coll ctx group step = some c := (Option.filter_eq_some_iff.mp hc).1

/-! A partial goes to another device (R361). -/

@[simp] theorem State.send_group (s : State) (m : OutMsg) (x n : Nat) : (s.send m).group x n = s.group x n := rfl

theorem State.send_openColl (s : State) (m : OutMsg) (ctx group : Nat) (step : Word) :
    (s.send m).openColl ctx group step = s.openColl ctx group step := rfl

theorem State.collSend_peer {s : State} {g : Group} {rank : Nat} (p : CollBeat) (haway : g.devOf rank ≠ s.devnum)
    (hpath : s.peerPath (g.devOf rank) = true) : s.collSend g rank p = s.send (.partialBeat (g.devOf rank) p) :=
  (if_neg haway).trans (if_pos hpath)

/-! What a device does for a beat (R359). -/

/-- The partial of a beat is taken out of those that wait. -/
def Coll.takePart (beat : Nat) (c : Coll) : Coll := { c with parts := c.parts.filter (fun p => p.beat != beat) }

/-- A partial that comes, one that is passed on, a result, an own beat that has come, a buddy's copy. -/
def Coll.addPart (p : CollBeat) (c : Coll) : Coll := { c with parts := c.parts ++ [p] }
def Coll.addPassed (p : CollBeat) (c : Coll) : Coll := { c with passed := c.passed ++ [p] }
def Coll.addResult (p : CollBeat) (c : Coll) : Coll := { c with result := c.result ++ [p] }
def Coll.addOwn (b : CollBeat) (c : Coll) : Coll := { c with fly := c.fly.erase b, own := c.own ++ [b] }
def Coll.addCopy (b : CollBeat) (c : Coll) : Coll := { c with copies := c.copies ++ [b] }
/-- A destination rank is skipped. -/
def Coll.skip (rank : Nat) (c : Coll) : Coll := { c with dmiss := putRank c.dmiss rank, waits := c.waits.filter (fun w => w.1 != rank) }

theorem Coll.takePart_keeps (beat : Nat) : KeepsStep (takePart beat) := fun _ => ⟨rfl, rfl, rfl⟩
theorem Coll.addPart_keeps (p : CollBeat) : KeepsStep (addPart p) := fun _ => ⟨rfl, rfl, rfl⟩
theorem Coll.addPassed_keeps (p : CollBeat) : KeepsStep (addPassed p) := fun _ => ⟨rfl, rfl, rfl⟩
theorem Coll.addResult_keeps (p : CollBeat) : KeepsStep (addResult p) := fun _ => ⟨rfl, rfl, rfl⟩
theorem Coll.addOwn_keeps (b : CollBeat) : KeepsStep (addOwn b) := fun _ => ⟨rfl, rfl, rfl⟩
theorem Coll.addCopy_keeps (b : CollBeat) : KeepsStep (addCopy b) := fun _ => ⟨rfl, rfl, rfl⟩
theorem Coll.skip_keeps (rank : Nat) : KeepsStep (skip rank) := fun _ => ⟨rfl, rfl, rfl⟩

section
variable {s : State} {ctx group beat own : Nat} {step : Word} {c : Coll} {g : Group} (hg : s.group ctx group = some g)
  (hrank : g.rank = some own) (hc : s.openColl ctx group step = some c)

include hg hrank hc

theorem State.collGo_wait (hact : c.act g.size own beat = .wait) (fuel : Nat) : s.collGo ctx group step beat fuel = s := by
  cases fuel with
  | zero => rfl
  | succ n => simp only [State.collGo, hg, hc, hrank, hact]

theorem State.collGo_pass {p : CollBeat} (hact : c.act g.size own beat = .pass p) (hlapsed : c.lapsed = []) (fuel : Nat) :
    s.collGo ctx group step beat (fuel + 1) =
      (((s.modColl ctx group step (Coll.takePart beat)).modColl ctx group step (Coll.addPassed p)).collSend g (own + 1) p).collGo
        ctx group step beat fuel := by
  have hheard (r b : Nat) : c.silentAt r b = false := by simp [Coll.silentAt, hlapsed]
  simp only [State.collGo, hg, hc, hrank, hact, State.collForward, hheard, Bool.false_and, Bool.false_eq_true, if_false]
  rfl

/-- A last combination that leaves other beats of the step to come is kept at the last rank. -/
theorem State.collGo_finish {p : CollBeat} (hact : c.act g.size own beat = .finish p) (hlast : own + 1 = g.size) (hmute : c.mute = none)
    (hmore : (c.result ++ [p]).length < collBeats (((c.result ++ [p]).head?.getD p).hdr)) (fuel : Nat) :
    s.collGo ctx group step beat (fuel + 1) =
      (s.modColl ctx group step (Coll.takePart beat)).modColl ctx group step (Coll.addResult p) := by
  simp only [State.collGo, hg, hc, hrank, hact, hlast, Nat.lt_irrefl, if_false, hmute, Option.isSome_none, Bool.false_eq_true,
    State.collWrite]
  split
  · next d b hshape hhead =>
    rw [hhead] at hmore
    exact if_pos hmore
  · rfl

end

/-! What a share has for a beat (R359). -/

theorem Coll.act_held {c : Coll} {n own beat : Nat} {p : CollBeat} (hpassed : p ∈ c.passed) (hbeat : p.beat = beat) :
    c.act n own beat = .wait := by
  have hany : (c.passed.any (fun p => p.beat == beat) || c.result.any (fun p => p.beat == beat)) = true :=
    Bool.or_eq_true_iff.mpr (.inl (List.any_eq_true.mpr ⟨p, hpassed, beq_iff_eq.mpr hbeat⟩))
  exact if_pos hany

section
variable {c : Coll} (hpassed : c.passed = []) (hresult : c.result = [])

include hpassed hresult

/-- Rank 0 begins the chain with its own beat. -/
theorem Coll.act_first {n beat : Nat} {b : CollBeat} (hparts : c.parts = []) (hown : c.own.find? (fun b => b.beat == beat) = some b)
    (hn : 2 ≤ n) : c.act n 0 beat = .pass { b with raises := b.scales.map (fun _ => 0), nrank := 1, novf := 0 } := by
  have hmore : ¬ 0 + 1 = n := by omega
  simp [Coll.act, hpassed, hresult, hparts, hown, collOn, hmore]

/-- Past the first two ranks nothing is done for a beat before its partial comes. -/
theorem Coll.act_no_part {n own beat : Nat} (hparts : c.parts = []) (hown : 2 ≤ own) : c.act n own beat = .wait := by
  have h0 : ¬ own = 0 := by omega
  have h1 : ¬ own = 1 := by omega
  simp [Coll.act, hpassed, hresult, hparts, h0, h1]

/-- The last rank combines the partial of all before it with its own beat of the same header: the result. -/
theorem Coll.act_last {n own : Nat} {b x : CollBeat} (hparts : c.parts = [b]) (hmute : c.mute = none) (hnext : b.rank + 1 = own)
    (hlast : own + 1 = n) (hx : c.own.find? (fun x => x.beat == b.beat) = some x) (hhdr : x.hdr = b.hdr) :
    c.act n own b.beat = .finish (combineBeat b x) := by
  simp [Coll.act, hpassed, hresult, hparts, hnext, Coll.ownStep, Coll.muteAt, hmute, hx, hhdr, collOn, hlast]

end

/-! The events. -/

section
variable {s : State} {g : Group} {c : Coll}

/-- Rank 0's own beat goes as the partial to rank 1 (R359). -/
theorem State.ownBeat_first {b p : CollBeat} (hc : s.openColl b.ctx b.group b.hdr.step = some c) (hg : s.group b.ctx b.group = some g)
    (hmute : c.mute = none) (hlapsed : c.lapsed = []) (hpassed : c.passed = []) (hresult : c.result = []) (hparts : c.parts = [])
    (hown : c.own = []) (hrank : g.rank = some 0) (hsize : 2 ≤ g.size) (hfly : c.fly.contains b = true) (hfirst : b.rank = 0)
    (haway : g.devOf 1 ≠ s.devnum) (hpath : s.peerPath (g.devOf 1) = true)
    (hp : p = { b with raises := b.scales.map (fun _ => 0), nrank := 1, novf := 0 }) :
    (s.ownBeat b).outbox = s.outbox ++ [.partialBeat (g.devOf 1) p] := by
  have hbegin : s.ownBeat b = (s.modColl b.ctx b.group b.hdr.step (Coll.addOwn b)).collGo b.ctx b.group b.hdr.step b.beat 3 := by
    simp only [State.ownBeat, hc, hfly, Coll.muteAt, hmute, hfirst, Bool.not_true, Bool.false_eq_true, if_false, bne_self_eq_false,
      Bool.false_and]
    rfl
  have hc1 := State.openColl_modColl (Coll.addOwn_keeps b) hc rfl
  have hc2 := State.openColl_modColl (Coll.addPassed_keeps p) (State.openColl_modColl (Coll.takePart_keeps b.beat) hc1 rfl) rfl
  have hact : (c.addOwn b).act g.size 0 b.beat = .pass p := by
    rw [hp]
    exact Coll.act_first (c := c.addOwn b) hpassed hresult hparts (by simp [Coll.addOwn, hown]) hsize
  have hheld : (((c.addOwn b).takePart b.beat).addPassed p).act g.size 0 b.beat = .wait :=
    Coll.act_held (List.mem_append_right _ (List.mem_singleton_self p)) (by rw [hp])
  rw [hbegin, State.collGo_pass (by simpa using hg) hrank hc1 hact hlapsed,
    State.collSend_peer p (by simpa using haway) (by simpa using hpath)]
  rw [State.collGo_wait (by simpa using hg) hrank ((State.send_openColl ..).trans hc2) hheld]
  simp

/-- A buddy's copy that comes before the partial is held where there is room (R360). -/
theorem State.copyBeat_held {b : CollBeat} {own : Nat} (hc : s.openColl b.ctx b.group b.hdr.step = some c)
    (hg : s.group b.ctx b.group = some g) (hpassed : c.passed = []) (hresult : c.result = []) (hparts : c.parts = [])
    (hrank : g.rank = some own) (hown : 2 ≤ own) (hlive : s.collLive b = true) (hnew : c.copies.contains b = false)
    (hroom : s.areaRoom b = true) : s.copyBeat b = s.modColl b.ctx b.group b.hdr.step (Coll.addCopy b) := by
  have hbegin : s.copyBeat b = (s.modColl b.ctx b.group b.hdr.step (Coll.addCopy b)).collGo b.ctx b.group b.hdr.step b.beat 3 := by
    simp only [State.copyBeat, State.coll_of_openColl hc, Option.map_some, Option.getD_some, hnew, hlive, hroom, Bool.not_true,
      Bool.and_false, Bool.or_false, Bool.false_eq_true, if_false]
    rfl
  have hact : (c.addCopy b).act g.size own b.beat = .wait := Coll.act_no_part (c := c.addCopy b) hpassed hresult hparts hown
  rw [hbegin, State.collGo_wait (by simpa using hg) hrank (State.openColl_modColl (Coll.addCopy_keeps b) hc rfl) hact]

/-- The last rank's combination of a beat is a result, and stays while other beats of the step are to come (R359, R362). -/
theorem State.partBeat_last {b x : CollBeat} {own : Nat} (hc : s.openColl b.ctx b.group b.hdr.step = some c)
    (hg : s.group b.ctx b.group = some g) (hlive : s.collLive b = true) (hmute : c.mute = none) (hlapsed : c.lapsed = [])
    (hpassed : c.passed = []) (hresult : c.result = []) (hparts : c.parts = []) (hrank : g.rank = some own)
    (hlast : own + 1 = g.size) (hnext : b.rank + 1 = own) (hx : c.own.find? (fun x => x.beat == b.beat) = some x)
    (hhdr : x.hdr = b.hdr) (hmore : 1 < collBeats (combineBeat b x).hdr) :
    ∃ c', (s.partBeat b).coll b.ctx b.group b.hdr.step = some c' ∧ c'.result = [combineBeat b x] := by
  have hbegin : s.partBeat b = (s.modColl b.ctx b.group b.hdr.step (Coll.addPart b)).collGo b.ctx b.group b.hdr.step b.beat 3 := by
    have hdone : ¬ (b.rank + 1 = g.size ∧ 1 < g.size) := by omega
    have h0 : (own == 0) = false := beq_eq_false_iff_ne.mpr (by omega)
    simp only [State.partBeat, hlive, hg, Option.bind_some, hrank, Option.map_some, Option.getD_some, hdone,
      State.coll_of_openColl hc, Coll.silentAt, hlapsed, List.any_nil, Bool.false_eq_true, and_false, if_false, Bool.not_true, h0,
      Bool.false_and, hparts, hpassed, hresult, List.append_nil]
    rfl
  have hc1 := State.openColl_modColl (Coll.addPart_keeps b) hc rfl
  have hact : (c.addPart b).act g.size own b.beat = .finish (combineBeat b x) :=
    Coll.act_last (c := c.addPart b) hpassed hresult (by simp [Coll.addPart, hparts]) hmute hnext hlast hx hhdr
  rw [hbegin, State.collGo_finish (by simpa using hg) hrank hc1 hact hlast hmute (by simpa [Coll.addPart, hresult] using hmore)]
  refine ⟨_, State.coll_modColl (Coll.addResult_keeps _)
    (State.coll_modColl (Coll.takePart_keeps _) (State.coll_of_openColl hc1)), ?_⟩
  simp [Coll.addResult, Coll.takePart, Coll.addPart, hresult]

/-- The next rank's time has passed: it is silent from that beat on, and the partial goes past it (R361). -/
theorem State.groupLapse_next {ctx group own : Nat} {p : CollBeat} (hc : s.firstColl ctx group = some c)
    (hg : s.group ctx group = some g) (hrank : g.rank = some own) (hsize : own + 2 ≤ g.size) (hpassed : c.passed = [p])
    (hp : p.rank = own) (hlapsed : c.lapsed = []) (haway : g.devOf (own + 2) ≠ s.devnum)
    (hpath : s.peerPath (g.devOf (own + 2)) = true) :
    s.groupLapse ctx group (own + 1) p.beat = (s.modColl ctx group c.step (fun c =>
      { c with lapsed := c.lapsed ++ [(own + 1, p.beat)] })).send
        (.partialBeat (g.devOf (own + 2)) { p with silent := putRank p.silent (own + 1) }) := by
  have hin : ¬ (g.size ≤ own + 1 ∨ g.size < 2) := by omega
  have hother : ¬ own + 1 = own := by omega
  have hmod : (own + 1) % g.size = own + 1 := Nat.mod_eq_of_lt (by omega)
  simp only [State.groupLapse, hg, hc, hrank, hin, hother, hmod, hpassed, hlapsed, if_false, List.any_cons, List.any_nil,
    beq_self_eq_true, Bool.or_false, and_true, if_true, hp, bne_self_eq_false, Bool.and_false, Bool.false_eq_true,
    List.filter_cons, List.filter_nil, Nat.le_refl, decide_true, List.foldl_cons, List.foldl_nil, haway]
  exact State.collSend_peer _ (by rw [State.modColl_devnum]; exact haway) (by rw [State.modColl_peerPath]; exact hpath)

/-- A step for which a destination is still awaited does not settle (R362). -/
theorem State.collSettle_waits {ctx group : Nat} {step : Word} (hc : s.coll ctx group step = some c) (hwaits : c.waits.isEmpty = false) :
    s.collSettle ctx group step = s := by
  unfold State.collSettle
  split
  · next d hg hd =>
    obtain rfl := Option.some.inj (hc.symm.trans (State.coll_of_openColl hd))
    exact if_neg (by simp [hwaits])
  · rfl

/-- A destination that does not acknowledge is skipped while another is awaited (R362). -/
theorem State.destLapse_skips {ctx group rank : Nat}
    (hfind : s.colls.find? (fun c => c.ctx == ctx && c.group == group && c.waits.any (fun w => w.1 == rank)) = some c)
    (hc : s.coll ctx group c.step = some c) (hother : c.waits.any (fun w => w.1 != rank) = true) :
    (s.destLapse ctx group rank).coll ctx group c.step = some (c.skip rank) := by
  have hleft : (c.skip rank).waits.isEmpty = false := by simpa [Coll.skip] using hother
  simp only [State.destLapse, hfind]
  have hskip := State.coll_modColl (Coll.skip_keeps rank) (s := { s with
    peerReqs := s.peerReqs.filter (fun r => !((c.waits.filter (fun w => w.1 == rank)).map (·.2)).contains r.id)
    hostReqs := s.hostReqs.filter (fun r => !((c.waits.filter (fun w => w.1 == rank)).map (·.2)).contains r.id) }) hc
  exact (congrArg (State.coll · ctx group c.step) (State.collSettle_waits hskip hleft)).trans hskip

end

end Sys2Proof.Machine

open Sys2Proof Sys2Proof.Machine

/-- Settles O31: each event meets a step that is open here; what the device then does for the beat is said once for each answer of
its share. -/
theorem collectiveEventResult : Obligations.CollectiveEventResult := by
  unfold Obligations.CollectiveEventResult
  intro s g c
  refine ⟨fun b hc hg hmute hlapsed hpassed hresult hparts hown => ⟨?rank0, ?copy⟩, ?last, ?timeout, ?ack, ?notice⟩
  case rank0 =>
    intro hrank hsize hfly hfirst haway hpath
    exact ⟨_, rfl, State.ownBeat_first hc hg hmute hlapsed hpassed hresult hparts hown hrank hsize hfly hfirst haway hpath rfl⟩
  case copy =>
    intro own hrank hown hlive hnew hroom
    exact congrArg Host.Outcome.next (State.copyBeat_held hc hg hpassed hresult hparts hrank hown hlive hnew hroom)
  case last =>
    intro b own x hc hg hlive hmute hlapsed hpassed hresult hparts hrank hlast hnext hx hhdr hmore
    obtain ⟨c', hc', hres⟩ := State.partBeat_last hc hg hlive hmute hlapsed hpassed hresult hparts hrank hlast hnext hx hhdr hmore
    exact ⟨_, c', rfl, hc', hres⟩
  case timeout =>
    intro ctx group own p hc hg hrank hsize hpassed hp hlapsed haway hpath
    exact congrArg Host.Outcome.next (State.groupLapse_next hc hg hrank hsize hpassed hp hlapsed haway hpath)
  case ack =>
    intro ctx group rank hfind hc hother
    exact ⟨_, _, rfl, State.destLapse_skips hfind hc hother, rfl, rfl⟩
  case notice =>
    intro n hg hlate
    refine congrArg Host.Outcome.next ?_
    simp only [State.collNotice, hg, hlate, Bool.false_eq_true, if_false]

end

section
/-!
PROOFS. Nodes, completion and scheduling (R311, R381, R382, R395 to R397, R420 to R434).
-/

namespace Sys2Proof.Machine

/-! Messages at their homes (R96, R144). -/

/-- An event that performs messages of a kind delivers them. -/
theorem delivers_of_msgStep {ev : Nat → Instr} {mine : MsgKind → Bool} {act : State → Msg → Except Nat State}
    (hev : ∀ n s, exec (ev n) s = .next (s.msgStep n mine act)) : Delivers ev mine act := by
  intro s n m hm hmine hheld hturn
  have hgo : (!mine m.kind || m.held.isSome || s.msgBehind n m) = false := by simp [hmine, hheld, hturn]
  refine ⟨fun hreach => ⟨fun t ht => ?_, fun xlc hx => ?_⟩, fun hreach => ?_⟩
  · simp only [hev, State.msgStep, hm, hgo, hreach, ht, Bool.not_true, Bool.false_eq_true, if_false]
  · simp only [hev, State.msgStep, hm, hgo, hreach, hx, Bool.not_true, Bool.false_eq_true, if_false]
  · simp only [hev, State.msgStep, hm, hgo, hreach, Bool.not_false, Bool.false_eq_true, if_false, if_true]

/-- A push whose turn it is, or that waits at its node (R395). -/
theorem State.nodePushAt_turn {s : State} {n k : Nat} {m : Msg} {a : LaneAcc} (hm : s.net[n]? = some m) (hkind : m.kind = .nodePush a k)
    (hheld : m.held = none)
    (hturn : s.msgBehind n m = false ∨ ∃ node, mget s.nodes a.pa = some node ∧ node.ops.contains (.push m.id) = true) :
    s.nodePushAt n =
      if !s.reach (m.core / 128) a.pa then s.refuseMsg m (m.failRec 17)
      else ({ s with nodes := mput s.nodes a.pa (s.nodeRec a.pa a.owner m.tag.ctx a.va) } : State).arriveNode a.pa (.push m.id) := by
  have hgo : (m.held.isSome || (s.msgBehind n m &&
      !((mget s.nodes a.pa).map (fun k => k.ops.contains (.push m.id))).getD false)) = false := by
    obtain h | ⟨node, hnode, hwaits⟩ := hturn
    · simp [hheld, h]
    · simp only [hheld, hnode, Option.map_some, Option.getD_some, hwaits, Option.isSome_none, Bool.not_true, Bool.and_false, Bool.or_false]
  simp only [State.nodePushAt, hm, hkind, hgo, Bool.false_eq_true, if_false]

/-! Completion of a crew (R382). -/

section
variable {s : State} {id : Nat} {c : Crew} (hc : mget s.crews id = some c)

include hc

theorem State.finishCrew_begins (hspent : c.spent = true) (hown : c.hgroup = none) (hrun : s.ctxRuns c.ctx = true) (hwait : c.wait = none) :
    s.finishCrew id = s.beginFinish id c := by
  have hgo : (!c.spent || c.hgroup.isSome || !s.ctxRuns c.ctx) = false := by simp [hspent, hown, hrun]
  have hop : c.waitOp = none := by simp [Crew.waitOp, hwait]
  simp only [State.finishCrew, hc, hgo, hop, Bool.false_eq_true, if_false]

theorem State.finishCrew_ends (hspent : c.spent = true) (hown : c.hgroup = none) (hrun : s.ctxRuns c.ctx = true) {msgs : List Nat}
    (hop : c.waitOp = some (.finish msgs)) (hquiet : s.inFlight msgs = false) : s.finishCrew id = s.endFinish id c := by
  have hgo : (!c.spent || c.hgroup.isSome || !s.ctxRuns c.ctx) = false := by simp [hspent, hown, hrun]
  simp only [State.finishCrew, hc, hgo, hop, hquiet, Bool.false_eq_true, if_false]

theorem State.finishCrew_helper (hhelper : c.hgroup.isSome = true) : s.finishCrew id = s := by
  have hstop : (!c.spent || c.hgroup.isSome || !s.ctxRuns c.ctx) = true := by simp [hhelper]
  simp only [State.finishCrew, hc, hstop, if_true]

theorem State.endGroup_helper (hhelper : c.hgroup.isSome = true) (hspent : c.spent = true) :
    s.endGroup id = { s with crews := mdel s.crews id, fenceShots := mdel s.fenceShots id } := by
  simp only [State.endGroup, hc, hhelper, hspent, Bool.and_self, if_true]

end

theorem State.finishCrew_gone {s : State} {id : Nat} (hc : mget s.crews id = none) : s.finishCrew id = s := by
  simp only [State.finishCrew, hc]

theorem State.endGroup_gone {s : State} {id : Nat} (hc : mget s.crews id = none) : s.endGroup id = s := by
  simp only [State.endGroup, hc]

/-! Launch datagrams (R421, R466 to R468). -/

/-- The 64-bit words of the j-th message of a datagram. -/
def launchMessage (d : Datagram) (j : Nat) : List Dword :=
  (List.range 8).map (fun k => BitVec.ofNat 64 (leNat ((d.bytes.drop (64 * j + 8 * k)).take 8)))

theorem State.launchDatagram_refused {s : State} {d : Datagram} (h : s.accept d.ident d.seq = none) :
    s.launchDatagram d = s.portDrop d.port := by
  simp only [State.launchDatagram, h]

section
variable {s u : State} {d : Datagram} (h : s.accept d.ident d.seq = some u)

include h

theorem State.launchDatagram_length (hlen : d.bytes.length % 64 ≠ 0 ∨ d.bytes.length = 0 ∨ 1024 < d.bytes.length) :
    s.launchDatagram d = u.portDrop d.port := by
  have hbad : (d.bytes.length % 64 ≠ 0 || d.bytes.isEmpty || decide (1024 < d.bytes.length)) = true := by
    simpa [or_assoc, List.length_eq_zero_iff] using hlen
  simp only [State.launchDatagram, h]
  exact if_pos hbad

theorem State.launchDatagram_messages (hmod : d.bytes.length % 64 = 0) (hsome : 0 < d.bytes.length) (hmost : d.bytes.length ≤ 1024) :
    s.launchDatagram d = (List.range (d.bytes.length / 64)).foldl (fun v j => v.acceptLaunch d.ident (launchMessage d j)) u := by
  have hgood : ¬ (d.bytes.length % 64 ≠ 0 || d.bytes.isEmpty || decide (1024 < d.bytes.length)) = true := by
    have hne : d.bytes ≠ [] := List.ne_nil_of_length_pos hsome
    simp [hmod, hne, hmost]
  simp only [State.launchDatagram, h]
  refine (if_neg hgood).trans ?_
  simp only [List.drop_drop, launchMessage]

end

/-- A launch as it joins its queue (R421). -/
def newLaunch (queue : Nat) (dws : List Dword) : Launch :=
  { queue := queue, dws := dws, checked := false, next := 0, ranges := [], teams := [], survs := [], started := [], drain := none,
    placed := false, status := 0 }

/-- A message of its queue's identity with the expected number joins the queue (R421). -/
theorem State.acceptLaunch_joins {u : State} {ident : Nat} {dws : List Dword} {q : Queue}
    (hq : mget u.queues (bits (dws.getD 0 0) 20 12) = some q) (hident : q.ident = ident) (hseq : hiWord (dws.getD 0 0) = q.expseq)
    (hroom : q.msgs.length < 32) :
    u.acceptLaunch ident dws = { u with
      opSeq := u.opSeq + 1
      launches := mput u.launches u.opSeq (newLaunch (bits (dws.getD 0 0) 20 12) dws)
      queues := mput u.queues (bits (dws.getD 0 0) 20 12) { q with expseq := q.expseq + 1, msgs := q.msgs ++ [u.opSeq] } } := by
  simp only [State.acceptLaunch, hq]
  exact (if_neg (not_not_intro hident)).trans ((if_neg (not_not_intro hseq)).trans (if_neg (Nat.not_le.mpr hroom)))

/-- A datagram of one message. -/
theorem State.launchDatagram_one {s u : State} {d : Datagram} (h : s.accept d.ident d.seq = some u) (hlen : d.bytes.length = 64) :
    s.launchDatagram d = u.acceptLaunch d.ident (launchMessage d 0) := by
  rw [State.launchDatagram_messages h (by omega) (by omega) (by omega), hlen]
  rfl

/-! Launches, tasks and their placement (R381, R423, R425, R428, R434). -/

/-- A queue whose head drains a node (R423). -/
theorem State.drainNode_head {s : State} {q id : Nat} {l : Launch} {r : Queue} (hhead : s.checkHeads.eligibleHead q = some (id, l, r))
    {pa owner : Nat} (hkind : l.kind = 1) (hpage : s.checkHeads.plainPage r.ctx (l.dw 1) = some (pa, owner)) :
    s.drainNode q = (({ s.checkHeads with
      nodes := mput s.checkHeads.nodes pa (s.checkHeads.nodeRec pa owner r.ctx (l.dw 1)) } : State).placedAll q id true).arriveNode pa
        (.expiry (some id)) := by
  have hdrain : ¬ l.kind ≠ 1 := not_not_intro hkind
  simp only [State.drainNode, hhead, hdrain, if_false, hpage]

/-- The clusters that a privileged launch may be shared out over (R428). -/
def State.sharers (s : State) (l : Launch) (ctx : Nat) : List Nat :=
  (List.range 64).filter (fun k => s.launchUses l ctx k && (!l.surv || s.survFree k))

/-- The ranges of teams over some clusters, the lower die's first (R428). -/
def shareOut (teams : Nat) (ks : List Nat) : List (Nat × Nat × Nat) :=
  let k0 := ks.filter (fun k => decide (k < 32))
  let cut := (teams * k0.length + ks.length - 1) / ks.length
  splitRange 0 cut k0 ++ splitRange cut teams (ks.filter (fun k => decide (32 ≤ k)))

/-- A queue whose head is a privileged launch that has not been shared out (R428). -/
theorem State.distribute_head {s : State} {q id : Nat} {l : Launch} {r : Queue} (hhead : s.checkHeads.eligibleHead q = some (id, l, r))
    (hkind : l.kind = 2) (hnew : l.ranges = []) (hsome : s.checkHeads.sharers l r.ctx ≠ []) :
    s.distribute q =
      (let ranges := shareOut l.nteams (s.checkHeads.sharers l r.ctx)
       let t : State := { s.checkHeads with launches := mmod s.checkHeads.launches id (fun l => { l with ranges := ranges }) }
       if l.surv then
         (ranges.filter (fun e => decide (e.2.1 < e.2.2))).foldl (fun v e => v.startSurveyor id l r.ctx e.1) t else t) := by
  have hgo : ¬ (l.kind ≠ 2 || !l.ranges.isEmpty) = true := by simp [hkind, hnew]
  have hks : ¬ (s.checkHeads.sharers l r.ctx).isEmpty = true := by simpa using hsome
  simp only [State.distribute, hhead]
  exact (if_neg hgo).trans (if_neg hks)

/-- A distributor that has run out takes the upper part of another's range (R428). -/
theorem State.steal_takes {s : State} {id cluster half : Nat} {l : Launch} {q : Queue} {mine v : Nat × Nat × Nat}
    (hl : mget s.launches id = some l) (hq : mget s.queues l.queue = some q) (hplacing : s.placing q.ctx = true)
    (havail : s.clusterAvail cluster = true) (hmine : l.ranges.find? (fun r => r.1 == cluster) = some mine) (hout : mine.2.2 ≤ mine.2.1)
    (hv : (largestRange (l.ranges.filter (fun r => r.1 / 32 == cluster / 32))).or
      (largestRange (l.ranges.filter (fun r => r.1 / 32 != cluster / 32))) = some v)
    (hhalf : half = if s.clusterAvail v.1 then (v.2.2 - v.2.1) / 2 else v.2.2 - v.2.1) (hpos : 0 < half)
    (hfree : l.surv = true → l.started.contains cluster = false → s.survFree cluster = true) :
    s.steal id cluster =
      (let t : State := { s with launches := mput s.launches id { l with ranges := l.ranges.map (fun r =>
        if r.1 = v.1 then (r.1, r.2.1, v.2.2 - half) else if r.1 = cluster then (r.1, v.2.2 - half, v.2.2) else r) } }
       if l.surv && !l.started.contains cluster then t.startSurveyor id l q.ctx cluster else t) := by
  have hgo : ¬ (mine.2.1 < mine.2.2 || !s.placing q.ctx || !s.clusterAvail cluster) = true := by
    simp [hplacing, havail, hout]
  have hstart : ¬ (half = 0 || (l.surv && !l.started.contains cluster && !s.survFree cluster)) = true := by
    have hne : ¬ half = 0 := by omega
    simpa [hne] using hfree
  subst hhalf
  simp only [State.steal, hl, hq, hmine]
  refine (if_neg hgo).trans ?_
  simp only [hv]
  exact if_neg hstart

/-- A partition takes the next task that fits (R381). -/
theorem State.takeTask_next {s : State} {core part d n : Nat} {t : Task} {p : Crew} (hnext : s.nextTask core part = some (d, n, t))
    (hp : mget s.crews t.parent = some p) :
    s.takeTask core part =
      ({ s with deques := mput s.deques d ((mgetD s.deques d []).eraseIdx n) } : State).seatTeam t.ctx [(core, part)] none none
        (fun k _ => { startCrew k 0 t.ctx p.w p.nregs t.entry (allLanes p.w) [loWord t.arg, hiWord t.arg] with
          origin := t.origin, parent := some t.parent, teamid := p.teamid, grid := p.grid }) := by
  simp only [State.takeTask, hnext, hp]

/-- A launch leaves, and its queue advances (R420, R434). -/
def State.leaveLaunch (s : State) (id : Nat) (l : Launch) (q : Queue) : State :=
  { s with
    launches := mdel s.launches id
    queues := mput s.queues l.queue (({ q with finished := q.finished ++ [l.seq] } : Queue).advance (q.finished.length + 1)) }

theorem State.endLaunch_done {s : State} {id : Nat} {l : Launch} {q : Queue} (hl : mget s.launches id = some l)
    (hdone : s.launchDone l = true) (hq : mget s.queues l.queue = some q) :
    s.endLaunch id =
      (let u := if l.cmode ≠ 0 then (s.leaveLaunch id l q).writeCompletion l.queue q l.seq l.status else s.leaveLaunch id l q
       if l.cmode = 2 ∧ (mget u.sessions q.ident).isSome then
         u.send (.completion q.ident (leBytes 4 l.queue ++ leBytes 4 l.seq.toNat ++ leBytes 8 l.status)) else u) := by
  simp only [State.endLaunch, hl, hdone, Bool.not_true, Bool.false_eq_true, if_false, hq]
  rfl

end Sys2Proof.Machine

open Sys2Proof Sys2Proof.Machine

/-- Settles O36: each event by what its operation does where its conditions hold. -/
theorem nodeCompletionAndSchedulingResult : Obligations.NodeCompletionAndSchedulingResult := by
  unfold Obligations.NodeCompletionAndSchedulingResult
  refine ⟨⟨delivers_of_msgStep fun _ _ => rfl, ?push, ?expiry, ?complete, ?helper⟩, ?refused, ?datagram, ?place, ?head, ?steal, ?task,
    ?finish⟩
  case push =>
    intro s n m a k hm hkind hheld hturn
    have hstep := State.nodePushAt_turn hm hkind hheld hturn
    exact ⟨fun hreach => congrArg Host.Outcome.next (hstep.trans (if_neg (by simp [hreach]))),
      fun hreach => congrArg Host.Outcome.next (hstep.trans (if_pos (by simp [hreach])))⟩
  case expiry =>
    intro s n k hk
    refine ⟨fun htimer => congrArg Host.Outcome.next ?_, fun hpress => congrArg Host.Outcome.next ?_⟩
    · simp only [hk, htimer, if_true]
    · simp only [hk, Nat.ne_of_gt hpress, if_false]
  case complete =>
    intro s id c hc hspent hown hrun
    refine ⟨fun msgs hop hquiet hgone => congrArg Host.Outcome.next ?_, fun hwait => congrArg Host.Outcome.next ?_⟩
    · rw [State.finishCrew_ends hc hspent hown hrun hop hquiet, State.finishCrew_gone hgone, State.endGroup_gone hgone]
    · rw [State.finishCrew_begins hc hspent hown hrun hwait]
  case helper =>
    intro s id c hc hspent hhelper
    refine congrArg Host.Outcome.next ?_
    rw [State.finishCrew_helper hc hhelper, State.finishCrew_helper hc hhelper, State.endGroup_helper hc hhelper hspent]
  case refused =>
    intro s d h
    exact congrArg Host.Outcome.next (State.launchDatagram_refused h)
  case datagram =>
    intro s u d h
    refine ⟨fun hlen => congrArg Host.Outcome.next (State.launchDatagram_length h hlen),
      fun hmod hsome hmost => congrArg Host.Outcome.next (State.launchDatagram_messages h hmod hsome hmost), ?_⟩
    intro q hlen dws n hq hident hseq hroom l
    have hdws : launchMessage d 0 = dws := by simp only [launchMessage, Nat.mul_zero, Nat.zero_add]; rfl
    refine congrArg Host.Outcome.next ((State.launchDatagram_one h hlen).trans ?_)
    rw [hdws, State.acceptLaunch_joins hq hident hseq hroom]
    rfl
  case place =>
    intro s die hdie u best
    have hexec : exec (.placeTeam die) s = .next (s.place die) := congrArg Host.Outcome.next (if_pos hdie)
    have hbest : bestPick ((u.queueOrder die).filterMap (u.queuePick die) ++ u.sealedQ.filterMap (u.tilePick die)) = best := rfl
    refine ⟨fun h => ?_, fun q id l ctx plan h => ?_, fun q id l ctx cluster core plan h => ?_, fun t plan h => ?_⟩
    all_goals
      rw [hexec, State.place]
      simp only [u] at hbest
      simp only [hbest, h]
      rfl
  case head =>
    intro s q id l r hhead
    refine ⟨fun pa owner hkind hpage => congrArg Host.Outcome.next (State.drainNode_head hhead hkind hpage), ?_⟩
    intro hkind hnew ks hsome
    exact congrArg Host.Outcome.next (State.distribute_head hhead hkind hnew hsome)
  case steal =>
    intro s id cluster l q mine v hl hq hplacing havail hmine hout hv half cut hpos hfree
    exact congrArg Host.Outcome.next (State.steal_takes hl hq hplacing havail hmine hout hv rfl hpos hfree)
  case task =>
    intro s core part d n t p hcore hpart hnext hp
    exact congrArg Host.Outcome.next ((if_pos ⟨hcore, hpart⟩).trans (State.takeTask_next hnext hp))
  case finish =>
    intro s id l q hl hdone hq t
    have hend := State.endLaunch_done hl hdone hq
    refine ⟨fun hnone => congrArg Host.Outcome.next (hend.trans ?_), fun hsome => ?_⟩
    · rw [if_neg (not_not_intro hnone)]
      exact if_neg fun ⟨hframe, _⟩ => Nat.noConfusion (hnone.symm.trans hframe)
    · intro u
      rw [if_pos hsome] at hend
      exact ⟨fun hframe hopen => congrArg Host.Outcome.next (hend.trans (if_pos ⟨hframe, hopen⟩)),
        fun hquiet => congrArg Host.Outcome.next (hend.trans (if_neg fun ⟨hframe, hopen⟩ =>
          hquiet.elim (fun h => h hframe) (fun h => Bool.noConfusion (h.symm.trans hopen))))⟩

end

section
/-!
PROOFS. TRAP and BRK enter the trap handler (R418, R439, R440, R443), whatever path records its path's place in the table makes the
device write (R401).
-/

namespace Sys2Proof.Machine

/-! A crew that has entered its trap handler. -/

/-- A crew past no fence and of no helper group stands with these frames at this path, its latches and operand cache empty. -/
structure Crew.Entered (fs : List Frame) (p : Path) (c : Crew) : Prop where
  frames : c.frames = fs
  running : c.running = some p
  latches : c.latches = []
  oc : c.oc = []
  fence : c.fence = none
  hgroup : c.hgroup = none

theorem Crew.Entered.stopped {fs : List Frame} {p : Path} {c d : Crew} (he : c.Entered fs p) (hd : d = c) (k : Cause) :
    ({ d with cause := k } : Crew).Entered fs p := by
  subst hd
  exact ⟨he.frames, he.running, he.latches, he.oc, he.fence, he.hgroup⟩

/-- The crew of a state that stands so. -/
def State.Entered (id : Nat) (fs : List Frame) (p : Path) (s : State) : Prop := ∃ c, mget s.crews id = some c ∧ c.Entered fs p

/-- A map whose keys stay holds the changed values. -/
theorem mget_map_values {α : Type} (m : NatMap α) (F : Nat × α → Nat × α) (hF : ∀ e, (F e).1 = e.1) (k : Nat) :
    mget (m.map F) k = (mget m k).map (fun v => (F (k, v)).2) := by
  induction m with
  | nil => rfl
  | cons e r ih =>
    obtain ⟨j, v⟩ := e
    show (if (F (j, v)).1 = k then some (F (j, v)).2 else mget (r.map F) k) = Option.map _ (if j = k then some v else mget r k)
    rw [hF]
    by_cases hj : j = k
    · subst hj
      rw [if_pos rfl, if_pos rfl]
      rfl
    · rw [if_neg hj, if_neg hj, ih]

section
variable {s : State} {id : Nat} {fs : List Frame} {p : Path} (h : s.Entered id fs p)

include h

theorem State.Entered.of_crews {t : State} (hcrews : t.crews = s.crews) : t.Entered id fs p := by
  obtain ⟨c, hc, he⟩ := h
  exact ⟨c, by rw [hcrews, hc], he⟩

/-- Every crew is changed by what keeps one that stands so. -/
theorem State.Entered.of_map {t : State} (F : Nat × Crew → Nat × Crew) (hcrews : t.crews = s.crews.map F) (hkey : ∀ e, (F e).1 = e.1)
    (hkeep : ∀ c, c.Entered fs p → (F (id, c)).2.Entered fs p) : t.Entered id fs p := by
  obtain ⟨c, hc, he⟩ := h
  exact ⟨_, by rw [hcrews, mget_map_values _ _ hkey, hc]; rfl, hkeep c he⟩

theorem State.Entered.modCrew (j : Nat) (f : Crew → Crew) (hkeep : ∀ c, c.Entered fs p → (f c).Entered fs p) :
    (s.modCrew j f).Entered id fs p := by
  obtain ⟨c, hc, he⟩ := h
  by_cases hj : id = j
  · subst hj
    exact ⟨f c, (mget_mmod_same ..).trans (by rw [hc]; rfl), hkeep c he⟩
  · exact ⟨c, (mget_mmod_ne _ _ _ _ hj).trans hc, he⟩

theorem State.Entered.setCrew_ne {j : Nat} (hj : id ≠ j) (d : Crew) : (s.setCrew j d).Entered id fs p := by
  obtain ⟨c, hc, he⟩ := h
  exact ⟨c, (mget_mput_ne _ _ _ _ hj).trans hc, he⟩

end

theorem State.Entered.setCrew_same (s : State) (id : Nat) {c : Crew} {fs : List Frame} {p : Path} (he : c.Entered fs p) :
    (s.setCrew id c).Entered id fs p := ⟨c, mget_mput_same .., he⟩

/-- A run of operations, each of which leaves a crew that stands so. -/
theorem State.Entered.foldl {α : Type} {id : Nat} {fs : List Frame} {p : Path} {g : State → α → State}
    (hg : ∀ s a, s.Entered id fs p → (g s a).Entered id fs p) (l : List α) {s : State} (h : s.Entered id fs p) :
    (l.foldl g s).Entered id fs p := by
  induction l generalizing s with
  | nil => exact h
  | cons a l ih => exact ih (hg s a h)

/-! Accesses for the save class leave the crews (R75 to R85, R92, R149, R473). -/

theorem foldl_crews {α : Type} {g : State → α → State} (hg : ∀ s a, (g s a).crews = s.crews) (l : List α) (s : State) :
    (l.foldl g s).crews = s.crews := by
  induction l generalizing s with
  | nil => rfl
  | cons a l ih => exact (ih _).trans (hg s a)

theorem State.tlbDrop_crews (s : State) (unit asn : Nat) (va : Dword) : (s.tlbDrop unit asn va).crews = s.crews := by
  refine foldl_crews ?_ _ _
  exact fun _ _ => rfl

theorem State.tlbFill_crews (s : State) (unit : Nat) (t : TlbEntry) : (s.tlbFill unit t).crews = s.crews := by
  refine foldl_crews ?_ _ _
  exact fun _ _ => rfl

theorem State.walkFill_crews (s : State) (unit ctx : Nat) (va : Dword) (acc : Acc) : (s.walkFill unit ctx va acc).1.crews = s.crews := by
  unfold State.walkFill
  split
  · rfl
  · dsimp only
    split
    · rfl
    · exact State.tlbFill_crews ..

theorem State.translate_crews (s : State) (unit ctx : Nat) (va : Dword) (acc : Acc) : (s.translate unit ctx va acc).1.crews = s.crews := by
  unfold State.translate
  split
  · rfl
  · dsimp only
    split
    · exact State.walkFill_crews ..
    · split
      · rfl
      · exact (State.walkFill_crews ..).trans (State.tlbDrop_crews ..)

theorem State.sendHost_crews (s : State) (r : HostReq) : (s.sendHost r).crews = s.crews := by
  unfold State.sendHost
  split <;> rfl

theorem State.dropPartial_crews (s : State) (die core ln : Nat) : (s.dropPartial die core ln).crews = s.crews := rfl

theorem State.dropSpec_crews (s : State) (ctx : Nat) : (s.dropSpec ctx).crews = s.crews := by
  refine foldl_crews (fun s e => ?_) _ _
  split
  · split <;> rfl
  · rfl

theorem State.forgetPage_crews (s : State) (c : Crew) (f : FaultRec) : (s.forgetPage c f).crews = s.crews := by
  unfold State.forgetPage
  split
  · exact State.tlbDrop_crews ..
  · rfl

theorem State.trigger_crews (s : State) : s.trigger.crews = s.crews := by
  unfold State.trigger
  split <;> rfl

theorem ok_of_bind_ok {ε α β : Type} {x : Except ε α} {f : α → Except ε β} {b : β} (h : (x >>= f) = .ok b) :
    ∃ a, x = .ok a ∧ f a = .ok b := by
  cases x with
  | ok a => exact ⟨a, rfl, h⟩
  | error e => cases h

/-! Stores at the homes, recalls, faults and halt lines leave a crew that has entered its handler. -/

theorem unspeculate_no_fence {shots : NatMap Crew} {id : Nat} {c : Crew} (h : c.fence = none) : unspeculate shots id c = c := by
  unfold unspeculate
  rw [h]

section
variable {id : Nat} {fs : List Frame} {p : Path}

theorem State.Entered.touch {s : State} (h : s.Entered id fs p) (ln : Nat) : (s.touch ln).Entered id fs p := by
  refine h.of_map _ rfl (fun e => ?_) (fun c he => ?_)
  · split <;> rfl
  · rw [if_neg (by rw [he.fence]; exact Bool.false_ne_true)]
    exact he

theorem State.Entered.homeWrite {s : State} (h : s.Entered id fs p) (owner : Nat) (cs : List Host.Cell) (poisoned : Bool) :
    (s.homeWrite owner cs poisoned).Entered id fs p := h.of_crews (State.homeWrite_crews ..)

theorem State.Entered.setHolders {s t : State} (h : s.Entered id fs p) {r : CRange} {ln v : Nat} (ht : s.setHolders r ln v = .ok t) :
    t.Entered id fs p := by
  unfold State.setHolders at ht
  dsimp only at ht
  split at ht
  · cases ht
  · split at ht
    · cases ht
    · cases ht
      exact (h.homeWrite ..).touch _

theorem State.Entered.recallIn (fuel : Nat) {s t : State} (h : s.Entered id fs p) {die : Nat} {r : CRange} {ln : Nat}
    (ht : s.recallIn fuel die r ln = .ok t) : t.Entered id fs p := by
  induction fuel generalizing s t die r ln with
  | zero => cases ht; exact h
  | succ n ih =>
    unfold State.recallIn at ht
    dsimp only at ht
    split at ht
    all_goals obtain ⟨u, hu, ht⟩ := ok_of_bind_ok ht
    case' h_1 =>
      cases hu
      have hthere := h
    case' h_2 => have hthere := ih h hu
    all_goals
      split at ht
      · cases ht
        exact hthere
      · split at ht
        · cases ht
        · refine State.Entered.setHolders (State.Entered.of_crews ((hthere.homeWrite ..).touch _) (foldl_crews ?_ _ _)) ht
          exact fun _ _ => State.dropPartial_crews ..

theorem State.Entered.recallAt {s t : State} (h : s.Entered id fs p) {pa : Nat} (ht : s.recallAt pa = .ok t) : t.Entered id fs p := by
  unfold State.recallAt at ht
  split at ht
  · cases ht; exact h
  · exact h.recallIn _ ht

theorem State.Entered.homeStore {s t : State} (h : s.Entered id fs p) {owner : Nat} {cells : List Host.Cell} {poisoned : Bool}
    (ht : s.homeStore owner cells poisoned = .ok t) : t.Entered id fs p := by
  unfold State.homeStore at ht
  split at ht
  · cases ht
  · split at ht
    · cases ht
    · split at ht
      · cases ht; exact h
      · split at ht
        · cases ht
        · next s1 hr =>
          cases ht
          exact ((h.recallAt hr).homeWrite ..).touch _

theorem State.Entered.writeTarget {s t : State} (h : s.Entered id fs p) {tag : QTag} {die : Nat} {tgt : Target} {owner : Nat}
    {bs : List Byte} {poisoned : Bool} (ht : s.writeTarget tag die tgt owner bs poisoned = .ok t) : t.Entered id fs p := by
  unfold State.writeTarget at ht
  split at ht
  · split at ht
    · cases ht
    · exact h.homeStore ht
  · split at ht
    · cases ht
    · cases ht
      split
      · exact h
      · exact h.of_crews rfl
  · cases ht
    refine h.of_crews (foldl_crews ?_ _ _)
    exact fun _ _ => State.sendHost_crews ..
  · cases ht; exact h

theorem State.Entered.saveWrite {s t : State} (h : s.Entered id fs p) {j : Nat} {c : Crew} {va : Dword} {bs : List Byte} {poisoned : Bool}
    (ht : s.saveWrite j c va bs poisoned = .ok t) : t.Entered id fs p := by
  have htr := s.translate_crews c.unit c.ctx va .save
  unfold State.saveWrite at ht
  split at ht
  · cases ht
  · next s1 x hx =>
    rw [hx] at htr
    dsimp only at ht
    split at ht
    · cases ht
    · next s2 hw =>
      cases ht
      exact (h.of_crews htr).writeTarget hw

theorem State.Entered.storeCrew {s : State} (h : s.Entered id fs p) {j : Nat} {c : Crew} (hself : j = id → c.Entered fs p) :
    (s.storeCrew j c).Entered id fs p := by
  unfold State.storeCrew
  split
  · by_cases hj : id = j
    · exact hj ▸ .setCrew_same s id (hself hj.symm)
    · exact h.setCrew_ne hj c
  · next g hg =>
    have hj : id ≠ j := fun hj => by
      have hnone := (hself hj.symm).hgroup
      rw [hg] at hnone
      cases hnone
    refine State.Entered.setCrew_ne (h.modCrew _ _ (fun d he => ?_)) hj _
    split <;> exact ⟨he.frames, he.running, he.latches, he.oc, he.fence, he.hgroup⟩

theorem State.Entered.unspecGroups {s : State} (h : s.Entered id fs p) (ctx : Nat) : (s.unspecGroups ctx).Entered id fs p := by
  refine State.Entered.foldl (fun t e ht => ?_) _ h
  split
  · split
    · next c hview =>
      refine ht.storeCrew (fun hself => ?_)
      obtain ⟨d, hd, he⟩ := ht
      have hc : c = d := by
        simp only [State.viewCrew, hself, hd, he.hgroup] at hview
        exact (Option.some.inj hview).symm
      rw [hc, unspeculate_no_fence he.fence]
      exact he
    · exact ht
  · exact ht

theorem State.Entered.raiseLine {s : State} (h : s.Entered id fs p) (ctx : Nat) (k : Cause) (skip : Option Nat) :
    (s.raiseLine ctx k skip).Entered id fs p := by
  have hquiet := (h.of_crews (s.dropSpec_crews ctx)).unspecGroups ctx
  unfold State.raiseLine
  split
  · exact h
  · next y hy =>
    dsimp only
    generalize (if skip.isNone = true then ({ y with own := y.own.join k } : Ctx) else y) = x
    split
    · exact h.of_crews rfl
    · split
      case' isTrue => refine State.Entered.of_crews ?_ (State.trigger_crews _)
      all_goals
        refine hquiet.of_map _ rfl (fun e => ?_) (fun c he => ?_)
        · split <;> rfl
        · split
          · refine he.stopped ?_ _
            rw [he.hgroup]
            exact unspeculate_no_fence he.fence
          · exact he

theorem State.Entered.crewFault {s : State} (h : s.Entered id fs p) (f : FaultRec) : (s.crewFault id f).Entered id fs p := by
  obtain ⟨c, hc, he⟩ := h
  have hrecord : (s.crewFault id f) = ((s.forgetPage c f).setCrew id
      { c with cause := c.cause.add causeFault f.xlc, frec := c.frec.or (some f) }).raiseLine c.ctx (c.cause.add causeFault f.xlc)
        (some id) := by
    simp only [State.crewFault, hc]
    rw [he.hgroup]
  rw [hrecord]
  refine State.Entered.raiseLine (State.Entered.setCrew_same _ id ?_) _ _ _
  exact ⟨he.frames, he.running, he.latches, he.oc, he.fence, he.hgroup⟩

/-! The path table leaves it too (R401). -/

/-- A path that does not run may be marked as spilled. -/
theorem Crew.Entered.markSpilled {c : Crew} (he : c.Entered fs p) {v : Path} (hv : v.run = false) :
    ({ c with paths := c.paths.map (fun q => if q = v then { q with spilled := true } else q) } : Crew).Entered fs p := by
  refine ⟨he.frames, ?_, he.latches, he.oc, he.fence, he.hgroup⟩
  have hrun : p.run = true := List.find?_some he.running
  have hsame : ((fun q : Path => q.run) ∘ fun q => if q = v then { q with spilled := true } else q) = fun q => q.run :=
    funext fun q => by
      by_cases hq : q = v <;> simp [hq]
  have hp : p ≠ v := fun e => Bool.noConfusion (hv.symm.trans (e ▸ hrun))
  show (c.paths.map _).find? _ = some p
  rw [List.find?_map, hsame, show c.paths.find? (fun q => q.run) = some p from he.running]
  exact congrArg some (if_neg hp)

theorem spillVictim_run {ps : List Path} : ∀ v, spillVictim ps = some v → v.run = false := by
  unfold spillVictim
  refine List.foldlRecOn (motive := fun best : Option Path => ∀ v, best = some v → v.run = false) _ _ ?_ ?_
  · intro v hv
    cases hv
  · intro best hbest q hq v hv
    have hwaits : q.run = false := by simpa using (List.mem_filter.mp hq).2
    split at hv
    · cases hv
      exact hwaits
    · split at hv
      · cases hv
        exact hwaits
      · exact hbest v hv

theorem State.Entered.spillOut {s : State} (h : s.Entered id fs p) (c : Crew) {v : Path} (hv : v.run = false) :
    (s.spillOut id c v).Entered id fs p := by
  unfold State.spillOut
  split
  · exact h.crewFault _
  · next s1 hw => exact (h.saveWrite hw).modCrew _ _ (fun d he => he.markSpilled hv)

theorem State.Entered.spillRoom {s : State} (h : s.Entered id fs p) (c : Crew) (tbl : List Path) :
    (s.spillRoom id c tbl).1.Entered id fs p := by
  unfold State.spillRoom
  split
  · exact h
  · split
    · exact h
    · next v hv => exact h.spillOut c (spillVictim_run v hv)

theorem State.Entered.spillClear {s : State} (h : s.Entered id fs p) (c : Crew) (q : Path) : (s.spillClear id c q).Entered id fs p := by
  unfold State.spillClear
  split
  · exact h.crewFault _
  · next s1 hw => exact h.saveWrite hw

theorem State.Entered.spillSync {s : State} (h : s.Entered id fs p) (c : Crew) (old : List Path) : (s.spillSync id c old).Entered id fs p := by
  unfold State.spillSync
  refine State.Entered.foldl (fun s q hs => ?_) _ (State.Entered.foldl (fun s q hs => hs.spillClear c q) _ h)
  split
  · exact hs.crewFault _
  · next s1 hw => exact hs.saveWrite hw

/-- Where no spilled path runs, records are only written. -/
theorem State.Entered.spillFix {s : State} {c : Crew} (hc : mget s.crews id = some c) (he : c.Entered fs p)
    (hin : c.paths.find? (fun q => q.run && q.spilled) = none) (old : List Path) : (s.spillFix id old).Entered id fs p := by
  have h : s.Entered id fs p := ⟨c, hc, he⟩
  simp only [State.spillFix, hc, hin]
  split
  · exact h
  · have hents (ents : List Path) (r : State × List Path) (hr : r.1.Entered id fs p) :
        (ents.foldl (fun (r : State × List Path) e =>
          let o := r.1.spillRoom id c r.2
          (o.1, o.2 ++ [e])) r).1.Entered id fs p :=
      List.foldlRecOn (motive := fun r : State × List Path => r.1.Entered id fs p) _ _ hr (fun r hr e _ => hr.spillRoom c r.2)
    split
    · exact (hents _ _ (h.spillSync c old)).spillRoom c _
    · exact hents _ _ (h.spillSync c old)

end

/-! Trap entry (R439). -/

theorem Crew.writeDest_frames_fence (c : Crew) (d : PDest) (m : Lanes) :
    (c.writeDest d m).frames = c.frames ∧ (c.writeDest d m).fence = c.fence := by
  unfold Crew.writeDest
  split
  case h_3 =>
    unfold Crew.writeLatch
    split
    · exact ⟨rfl, rfl⟩
    · split <;> exact ⟨rfl, rfl⟩
  all_goals exact ⟨rfl, rfl⟩

theorem Crew.commit_frames_fence (c : Crew) : c.commit.frames = c.frames ∧ c.commit.fence = c.fence := by
  unfold Crew.commit
  refine List.foldlRecOn (motive := fun d : Crew => d.frames = c.frames ∧ d.fence = c.fence) _ _ ⟨rfl, rfl⟩ (fun d hd r _ => ?_)
  refine List.foldlRecOn (motive := fun d : Crew => d.frames = c.frames ∧ d.fence = c.fence) _ _ hd (fun d hd w _ => ?_)
  obtain ⟨h1, h2⟩ := d.writeDest_frames_fence w w.lanes
  exact ⟨h1.trans hd.1, h2.trans hd.2⟩

/-- What closing the windows leaves, the latches and the operand cache emptied. -/
theorem Crew.closeWindows_entered {c : Crew} {p : Path} (hp : c.running = some p) (hfence : c.fence = none) (hown : c.hgroup = none) :
    c.closeWindows.dropUpper.Entered c.frames p ∧ c.closeWindows.dropUpper.paths = c.paths := by
  let d : Crew := { c with pends := c.pends.map (fun p => { p with win := 0 }) }
  obtain ⟨hframes, hf⟩ := d.commit_frames_fence
  have halike := d.commit_alike
  have hpaths : c.closeWindows.dropUpper.paths = c.paths := halike.paths
  exact ⟨⟨hframes, by rw [Crew.running, hpaths]; exact hp, rfl, rfl, hf.trans hfence, halike.hgroup.trans hown⟩, hpaths⟩

/-- The frame of a trap of an instruction of len bytes at a path. -/
def Trap.frame (t : Trap) (p : Path) (len : Nat) : Frame :=
  { pc := p.pc, rpc := if t.cls = 1 ∨ t.cls = 2 then p.pc + BitVec.ofNat 64 len else p.pc, cause := t.cause, tm := t.tm.getD p.mask
    lmask := t.lmask, aux0 := t.aux0, aux1 := t.aux1, len := len }

/-- The crew stands at the handler's path, and no other path runs. -/
theorem Crew.enterTrap_entered {c : Crew} {p : Path} (hp : c.running = some p) (hfence : c.fence = none) (hown : c.hgroup = none)
    (tentry : Dword) (len : Nat) (t : Trap) :
    (c.enterTrap tentry len t).Entered (c.frames ++ [t.frame p len])
      (newPath tentry (t.tm.getD p.mask) (c.frames.length + 1) true) ∧
    (c.enterTrap tentry len t).paths.find? (fun q => q.run && q.spilled) = none := by
  let rest := p.mask &&& ~~~t.tm.getD p.mask
  let before := c.paths.map (fun q => if q.run then { q with run := false, age := 0, mask := t.tm.getD p.mask } else q) ++
    (if rest = 0 then [] else [newPath (p.pc + BitVec.ofNat 64 len) rest p.frame false])
  have hbefore : ∀ q ∈ before, q.run = false := by
    intro q hq
    obtain hq | hq := List.mem_append.mp hq
    · obtain ⟨r, -, rfl⟩ := List.mem_map.mp hq
      cases hr : r.run <;> simp [hr]
    · split at hq
      · cases hq
      · rw [List.mem_singleton.mp hq]
        rfl
  let new := newPath tentry (t.tm.getD p.mask) (c.frames.length + 1) true
  let d : Crew := { c with fbuf := [], frames := c.frames ++ [t.frame p len], paths := before ++ [new] }
  have hd : c.enterTrap tentry len t = d.closeWindows.dropUpper := by
    unfold Crew.enterTrap
    rw [hp]
    rfl
  have hrun : d.running = some new := by
    show (before ++ [new]).find? (fun q => q.run) = some new
    rw [List.find?_append, List.find?_eq_none.mpr (fun q hq => by simp [hbefore q hq])]
    rfl
  obtain ⟨hentered, hpaths⟩ := Crew.closeWindows_entered hrun hfence hown
  refine ⟨hd ▸ hentered, ?_⟩
  rw [hd, hpaths, List.find?_eq_none]
  intro q hq
  obtain hq | hq := List.mem_append.mp hq
  · simp [hbefore q hq]
  · rw [List.mem_singleton.mp hq]
    exact Bool.false_ne_true

/-! The trap of an instruction (R437, R439). -/

/-- The load set's say changes a crew's place in the set alone. -/
theorem State.loadSetCrew_same {s : State} {opc : Nat} {c c1 : Crew} (h : s.loadSetCrew opc c = some c1) :
    ∃ b n l, c1 = { c with loadSet := b, loadSlots := n, loadHeld := l } := by
  unfold State.loadSetCrew at h
  split at h
  · cases h
    exact ⟨_, _, _, rfl⟩
  · split at h
    · cases h
      exact ⟨_, _, _, rfl⟩
    · cases h

theorem State.viewCrew_no_group {s : State} {id : Nat} {c : Crew} (h : s.viewCrew id = some c) (hown : c.hgroup = none) :
    mget s.crews id = some c := by
  unfold State.viewCrew at h
  split at h
  · cases h
  · next d hd =>
    split at h
    · rw [hd, Option.some.inj h]
    · next g hg =>
      split at h
      · rw [hd, Option.some.inj h]
      · cases h
        exact absurd (hg.symm.trans hown) (by simp)

/-- Ageing leaves the running path. -/
theorem Crew.agePaths_running (c : Crew) : c.agePaths.running = c.running := by
  unfold Crew.running Crew.agePaths
  rw [List.find?_map]
  have hsame : ((fun q : Path => q.run) ∘ fun q =>
      if q.frame == c.curFrame && !q.run && !q.wait then { q with age := min 255 (q.age + 1) } else q) = fun q => q.run :=
    funext fun q => by
      rw [Function.comp_apply]
      split <;> rfl
  rw [hsame]
  cases hp : c.paths.find? (fun q => q.run) with
  | none => rfl
  | some p =>
    have hrun : p.run = true := List.find?_some hp
    exact congrArg some (if_neg (by simp [hrun]))

/-- The focus crew as an issue slot finds it: past no fence and of no helper group, its record, at the path of the slot. -/
theorem issueCx_crew {s : State} {opc len : Nat} {g : Guard} {x : Cx} (h : s.issueCx opc len g = some x) (hfence : x.c.fence = none)
    (hown : x.c.hgroup = none) :
    ∃ c, mget x.s.crews s.focus = some c ∧ c.running = some x.p ∧ c.fence = none ∧ c.hgroup = none ∧ x.c.frames = c.frames ∧
      x.s.tentryOf c = s.tentryOf x.c := by
  obtain ⟨c, c1, hview, hp, hload, -, -, -, -, -, -, hx⟩ := issueCx_unfold h
  obtain ⟨b, n, l, rfl⟩ := State.loadSetCrew_same hload
  rw [hx] at hfence hown ⊢
  exact ⟨c, State.viewCrew_no_group hview hown, hp, hfence, hown, rfl, rfl⟩

/-- A trap that a crew's instruction raises, past no fence and with a frame left, leaves the crew in its handler. -/
theorem raiseTrap_entered {s : State} {opc len : Nat} {g : Guard} {x : Cx} (h : s.issueCx opc len g = some x) (hfence : x.c.fence = none)
    (hown : x.c.hgroup = none) (hfree : x.c.frames.length < 4) {t : Trap} (hcls : t.cls ≠ 6) :
    ((x.s.trapSlot s.focus).raiseTrap s.focus len t).Entered s.focus (x.c.frames ++ [t.frame x.p len])
      (newPath (s.tentryOf x.c) (t.tm.getD x.p.mask) (x.c.frames.length + 1) true) := by
  obtain ⟨c, hc, hp, hf, hg, hframes, htentry⟩ := issueCx_crew h hfence hown
  rw [hframes] at hfree ⊢
  let d : Crew := { c.agePaths with loadHeld := none }
  have hd : mget (x.s.trapSlot s.focus).crews s.focus = some d := by
    refine (mget_mmod_same ..).trans ?_
    rw [hc]
    have hage : (if c.frames.length < 4 then c.agePaths else c) = c.agePaths := if_pos hfree
    exact congrArg (fun e : Crew => some { e with loadHeld := none }) hage
  have hslot : (x.s.trapSlot s.focus).tentryOf d = s.tentryOf x.c := htentry
  have hraise : (x.s.trapSlot s.focus).raiseTrap s.focus len t =
      ((x.s.trapSlot s.focus).setCrew s.focus (d.enterTrap (s.tentryOf x.c) len t)).spillFix s.focus d.paths := by
    have hno : d.isHelper = false := by rw [Crew.isHelper, show d.hgroup = none from hg]; rfl
    have hfew : d.frames.length < 4 := hfree
    have hopen : (x.s.trapSlot s.focus).openField t = (x.s.trapSlot s.focus, t) := if_neg (by simp [hcls])
    simp only [State.raiseTrap, hd, hno, hopen, State.takeTrap, hfew, if_true, Bool.false_eq_true, if_false, hslot]
  obtain ⟨he, hin⟩ := Crew.enterTrap_entered (c := d) (c.agePaths_running.trans hp) hf hg (s.tentryOf x.c) len t
  rw [hraise]
  exact State.Entered.spillFix (mget_mput_same ..) he hin _

/-- The trap of an instruction that asks for one, and its frame (R418, R438, R443). -/
def softTrap (cls arg : Nat) (tm : Option Lanes) : Trap :=
  { cls := cls, sub := 0, arg := arg, lmask := 0, aux0 := 0, aux1 := 0, tm := tm }

theorem softTrap_frame {cls : Nat} (hcls : cls = 1 ∨ cls = 2) (arg : Nat) (tm : Option Lanes) (p : Path) :
    (softTrap cls arg tm).frame p 8 = { pc := p.pc, rpc := p.pc + 8, cause := BitVec.ofNat 32 (cls + arg % 256 * 2 ^ 24)
                                        tm := tm.getD p.mask, lmask := 0, aux0 := 0, aux1 := 0, len := 8 } := by
  have hcause : (softTrap cls arg tm).cause = BitVec.ofNat 32 (cls + arg % 256 * 2 ^ 24) := by
    have hmod : cls % 256 = cls := Nat.mod_eq_of_lt (by omega)
    simp only [Trap.cause, softTrap, hmod, Nat.zero_mod, Nat.zero_mul, Nat.add_zero]
  rw [Trap.frame, hcause, if_pos (show (softTrap cls arg tm).cls = 1 ∨ (softTrap cls arg tm).cls = 2 from hcls)]
  rfl

end Sys2Proof.Machine

open Sys2Proof Sys2Proof.Machine

/-- Settles O18: the trap pushes its frame and the handler's path, and writing path records leaves both. -/
theorem trapEntrySavesAndEnters : Obligations.TrapEntrySavesAndEnters := by
  unfold Obligations.TrapEntrySavesAndEnters
  intro f s x hfence hown hfree hact
  refine ⟨fun h hmd => ?trap, fun h => ?brk⟩
  case trap =>
    have hbody : trapBody f x = .error (.trap (softTrap 1 f.fn.toNat none)) := by
      simp only [trapBody, hmd, beq_self_eq_true, needInsn, hact, if_false]
      rfl
    obtain ⟨c, hc, he⟩ := raiseTrap_entered h hfence hown hfree (t := softTrap 1 f.fn.toNat none) (by simp [softTrap])
    exact ⟨_, c, issue_trap h hbody hfence, hc, softTrap_frame (.inl rfl) f.fn.toNat none x.p ▸ he.frames, he.running, he.latches, he.oc⟩
  case brk =>
    have hbody : brkBody f x = .error (.trap (softTrap 2 f.md.toNat (some x.act))) := if_neg hact
    obtain ⟨c, hc, he⟩ := raiseTrap_entered h hfence hown hfree (t := softTrap 2 f.md.toNat (some x.act)) (by simp [softTrap])
    exact ⟨_, c, issue_trap h hbody hfence, hc, softTrap_frame (.inr rfl) f.md.toNat (some x.act) x.p ▸ he.frames, he.running,
      he.latches, he.oc⟩

end
